-- ==== Sys2Proof/Word.lean ====
section
/-! DEFINITION. The words of the machine and its rows of 64 lanes (01 R9, R22). -/
namespace Sys2Proof

/-- One byte of memory (00 R6). -/
abbrev Byte := BitVec 8

/-- An instruction word or control word (02 R43). -/
abbrev Half := BitVec 32

/-- A 64-bit lane register, scalar register or mask (01 R22). -/
abbrev Word := BitVec 64

/-- One value for each of the 64 lanes of a row (00 R9: W = 64). -/
abbrev Lanes (α : Type) := Vector α 64

end Sys2Proof
end

