-- ==== Sys2Proof/Config.lean ====
section
/-! DEFINITION. What an implementation fixes and the spec leaves open: the free values (00 R1), what is fused or
provisioned, and what the security root keeps to itself (21 R391 to R393). -/
namespace Sys2Proof

/-- The free values: an undefined value (00 R1) is `freeWord` applied to a counter of the state that every use
advances, so that nothing is known of it and two uses need not agree (log 1). -/
opaque Config.freeWord : Nat → BitVec 64

/-- What a byte of HBM holds after its stack's hash was changed: undefined (07 R197, log 1). The first argument is
the number of the change, the second the physical address. -/
opaque Config.freeByte : Nat → Nat → BitVec 8

/-- The seeds of the identity keys, whose private halves never leave the security root (21 R392): Ed25519's and
ML-DSA-65's (log 5, log 10). -/
opaque Config.idSeed : List Byte
opaque Config.mlSeed : List Byte

/-- What is fused or provisioned: the vendor and owner key hashes, the module's identity, the image in flash, the
rollback counter, the calibration block, the voltage table of each die by MHz, MODMLIM (21 R380 to R393; log 5). -/
opaque Config.vendorHash : BitVec 384
opaque Config.ownerHash : BitVec 384
opaque Config.device : BitVec 16
opaque Config.flash : List Byte
opaque Config.fusedArb : Nat
opaque Config.calibration : List Byte
opaque Config.vf : (die mhz : Nat) → Nat
opaque Config.modMlim : Nat

/-- The certificates of the identity keys (21 R392), and the far end of each span link at training, none where the training
fails (21 R389, R393; log 58). -/
opaque Config.certificates : List Byte
opaque Config.spanPeer : Nat → Option (BitVec 16)

/-- The session nonce by the number of times it has changed (21 R393; log 7). -/
opaque Config.nonce : Nat → BitVec 384

end Sys2Proof
end

