-- ==== Sys2Proof/Machine/Sparse.lean ====
section
/-! DEFINITION. Sparse tables in one canonical form (keys strictly rising, no entry equal to the default), memory
as such a table of bytes, and vectors read and built by a natural index. -/
namespace Sys2Proof.Machine

/-- A table keyed by Nat: keys rise, and no entry holds what an unlisted key reads as. -/
abbrev Sparse (α : Type) := List (Nat × α)

/-- The entry at key `i`, or the default `d` where none is listed. -/
def Sparse.get {α : Type} (d : α) : List (Nat × α) → Nat → α
  | [], _ => d
  | (k, v) :: r, i => if i = k then v else Sparse.get d r i

/-- Key `i` set to `v`; the entry goes when `v` is the default. -/
def Sparse.set {α : Type} [DecidableEq α] (d : α) : List (Nat × α) → Nat → α → List (Nat × α)
  | [], i, v => if v = d then [] else [(i, v)]
  | (k, w) :: r, i, v =>
    if i < k then (if v = d then (k, w) :: r else (i, v) :: (k, w) :: r)
    else if i = k then (if v = d then r else (i, v) :: r)
    else (k, w) :: Sparse.set d r i v

/-- Every entry whose key satisfies `p` goes back to the default. -/
def Sparse.clear {α : Type} (p : Nat → Bool) (m : List (Nat × α)) : List (Nat × α) :=
  m.filter (fun e => !p e.1)

/-- Every key of the list is above `lo`, keys rise, and no entry holds the default. -/
def Sparse.wfFrom {α : Type} [DecidableEq α] (d : α) : Nat → List (Nat × α) → Bool
  | _, [] => true
  | lo, (k, v) :: r => decide (lo ≤ k) && !decide (v = d) && Sparse.wfFrom d (k + 1) r

/-- The canonical form. -/
def Sparse.wf {α : Type} [DecidableEq α] (d : α) (m : List (Nat × α)) : Bool := Sparse.wfFrom d 0 m

/-- Memory: bytes by address; an unlisted address reads as 0. -/
abbrev Memory := List Host.Cell

/-- The byte at an address. -/
def Memory.byte (m : Memory) (a : Nat) : Byte := Sparse.get 0 m a

/-- One byte written. -/
def Memory.put (m : Memory) (a : Nat) (b : Byte) : Memory := Sparse.set 0 m a b

/-- The canonical form of a memory. -/
def Memory.wf (m : Memory) : Bool := Sparse.wf (0 : Byte) m

/-- `n` bytes from `a`, little-endian, as a number (00 R6). -/
def Memory.read (m : Memory) (a : Nat) : Nat → Nat
  | 0 => 0
  | n + 1 => (m.byte a).toNat + 256 * Memory.read m (a + 1) n

/-- The low `n` bytes of `v` written from `a`, little-endian (00 R6). -/
def Memory.write (m : Memory) (a : Nat) : Nat → Nat → Memory
  | 0, _ => m
  | n + 1, v => Memory.write (m.put a (BitVec.ofNat 8 v)) (a + 1) n (v / 256)

/-- A list of bytes written from `a`. -/
def Memory.writeList (m : Memory) (a : Nat) : List Byte → Memory
  | [] => m
  | b :: r => Memory.writeList (m.put a b) (a + 1) r

/-- `n` bytes from `a`, in order. -/
def Memory.readList (m : Memory) (a : Nat) : Nat → List Byte
  | 0 => []
  | n + 1 => m.byte a :: Memory.readList m (a + 1) n

/-- A vector built from a function of the index. -/
def tab {α : Type} (n : Nat) (f : Nat → α) : Vector α n :=
  ⟨⟨(List.range n).map f⟩, by simp⟩

/-- The element at an index, or `d` outside the vector. -/
def vget {α : Type} {n : Nat} (d : α) (v : Vector α n) (i : Nat) : α :=
  v.toArray.toList.getD i d

/-- The vector with the element at `i` replaced (unchanged where `i` is outside). -/
def vset {α : Type} {n : Nat} (v : Vector α n) (i : Nat) (a : α) : Vector α n :=
  ⟨⟨v.toArray.toList.set i a⟩, by simp⟩

/-- A vector of equal elements. -/
def vrep {α : Type} (n : Nat) (a : α) : Vector α n := ⟨⟨List.replicate n a⟩, by simp⟩

end Sys2Proof.Machine
end

