-- ==== Sys2Proof/Machine/Crypto.lean ====
section
/-! DEFINITION. The published standards that the device uses (00 R4; 21 R391 to R393): SHA-384 and SHA-512 of FIPS 180-4,
SHAKE128 and SHAKE256 of FIPS 202, Ed25519 of RFC 8032, and ML-DSA-65 of FIPS 204 (log 10). -/
namespace Sys2Proof.Machine

/-! ### Bytes -/

/-- A number's low `n` bytes, little-endian (00 R6). -/
def bytesOf (v : Nat) : Nat → List Byte
  | 0 => []
  | n + 1 => BitVec.ofNat 8 v :: bytesOf (v / 256) n

/-- The number of a little-endian list of bytes. -/
def numOf : List Byte → Nat
  | [] => 0
  | b :: r => b.toNat + 256 * numOf r

/-- A field: `n` bytes from an offset. -/
def slice (img : List Byte) (off n : Nat) : List Byte := (img.drop off).take n

/-- A base to an exponent of at most `n` bits, modulo `q`. -/
def powMod (b e q : Nat) : Nat → Nat
  | 0 => 1
  | n + 1 => let h := powMod (b * b % q) (e / 2) q n; if e % 2 = 1 then b * h % q else h

/-! ### SHA-512 and SHA-384 (FIPS 180-4) -/

/-- The constants of SHA-512 (FIPS 180-4). -/
def shaK : List Word :=
  [0x428A2F98D728AE22, 0x7137449123EF65CD, 0xB5C0FBCFEC4D3B2F, 0xE9B5DBA58189DBBC,
   0x3956C25BF348B538, 0x59F111F1B605D019, 0x923F82A4AF194F9B, 0xAB1C5ED5DA6D8118,
   0xD807AA98A3030242, 0x12835B0145706FBE, 0x243185BE4EE4B28C, 0x550C7DC3D5FFB4E2,
   0x72BE5D74F27B896F, 0x80DEB1FE3B1696B1, 0x9BDC06A725C71235, 0xC19BF174CF692694] ++
  [0xE49B69C19EF14AD2, 0xEFBE4786384F25E3, 0x0FC19DC68B8CD5B5, 0x240CA1CC77AC9C65,
   0x2DE92C6F592B0275, 0x4A7484AA6EA6E483, 0x5CB0A9DCBD41FBD4, 0x76F988DA831153B5,
   0x983E5152EE66DFAB, 0xA831C66D2DB43210, 0xB00327C898FB213F, 0xBF597FC7BEEF0EE4,
   0xC6E00BF33DA88FC2, 0xD5A79147930AA725, 0x06CA6351E003826F, 0x142929670A0E6E70] ++
  [0x27B70A8546D22FFC, 0x2E1B21385C26C926, 0x4D2C6DFC5AC42AED, 0x53380D139D95B3DF,
   0x650A73548BAF63DE, 0x766A0ABB3C77B2A8, 0x81C2C92E47EDAEE6, 0x92722C851482353B,
   0xA2BFE8A14CF10364, 0xA81A664BBC423001, 0xC24B8B70D0F89791, 0xC76C51A30654BE30,
   0xD192E819D6EF5218, 0xD69906245565A910, 0xF40E35855771202A, 0x106AA07032BBD1B8] ++
  [0x19A4C116B8D2D0C8, 0x1E376C085141AB53, 0x2748774CDF8EEB99, 0x34B0BCB5E19B48A8,
   0x391C0CB3C5C95A63, 0x4ED8AA4AE3418ACB, 0x5B9CCA4F7763E373, 0x682E6FF3D6B2B8A3,
   0x748F82EE5DEFB2FC, 0x78A5636F43172F60, 0x84C87814A1F0AB72, 0x8CC702081A6439EC,
   0x90BEFFFA23631E28, 0xA4506CEBDE82BDE9, 0xBEF9A3F7B2C67915, 0xC67178F2E372532B] ++
  [0xCA273ECEEA26619C, 0xD186B8C721C0C207, 0xEADA7DD6CDE0EB1E, 0xF57D4F7FEE6ED178,
   0x06F067AA72176FBA, 0x0A637DC5A2C898A6, 0x113F9804BEF90DAE, 0x1B710B35131C471B,
   0x28DB77F523047D84, 0x32CAAB7B40C72493, 0x3C9EBE0A15C9BEBC, 0x431D67C49C100D4C,
   0x4CC5D4BECB3E42B6, 0x597F299CFC657E2A, 0x5FCB6FAB3AD6FAEC, 0x6C44198C4A475817]

/-- The first hash values of SHA-512 (FIPS 180-4). -/
def sha512Iv : List Word :=
  [0x6A09E667F3BCC908, 0xBB67AE8584CAA73B, 0x3C6EF372FE94F82B, 0xA54FF53A5F1D36F1,
   0x510E527FADE682D1, 0x9B05688C2B3E6C1F, 0x1F83D9ABFB41BD6B, 0x5BE0CD19137E2179]

/-- The first hash values of SHA-384 (FIPS 180-4). -/
def sha384Iv : List Word :=
  [0xCBBB9D5DC1059ED8, 0x629A292A367CD507, 0x9159015A3070DD17, 0x152FECD8F70E5939,
   0x67332667FFC00B31, 0x8EB44A8768581511, 0xDB0C2E0D64F98FA7, 0x47B5481DBEFA4FA4]

/-- The message schedule, last word first, made `n` words longer. -/
def shaSchedule (r : List Word) : Nat → List Word
  | 0 => r
  | n + 1 =>
    let a := r.getD 1 0
    let b := r.getD 14 0
    shaSchedule (((a.rotateRight 19 ^^^ a.rotateRight 61 ^^^ (a >>> 6)) + r.getD 6 0 +
      (b.rotateRight 1 ^^^ b.rotateRight 8 ^^^ (b >>> 7)) + r.getD 15 0) :: r) n

/-- One round, of a constant and a word of the schedule. -/
def shaRound (v : List Word) (k w : Word) : List Word :=
  let x (i : Nat) : Word := v.getD i 0
  let e := x 4
  let t1 := x 7 + (e.rotateRight 14 ^^^ e.rotateRight 18 ^^^ e.rotateRight 41) + ((e &&& x 5) ^^^ (~~~e &&& x 6)) + k + w
  let a := x 0
  let t2 := (a.rotateRight 28 ^^^ a.rotateRight 34 ^^^ a.rotateRight 39) + ((a &&& x 1) ^^^ (a &&& x 2) ^^^ (x 1 &&& x 2))
  [t1 + t2, a, x 1, x 2, x 3 + t1, e, x 5, x 6]

/-- A 128-byte block compressed into the hash value. -/
def shaBlock (h : List Word) (block : List Byte) : List Word :=
  let m : List Word := (List.range 16).map (fun i => BitVec.ofNat 64 (numOf (slice block (8 * i) 8).reverse))
  let v := (shaK.zip (shaSchedule m.reverse 64).reverse).foldl (fun v (x : Word × Word) => shaRound v x.1 x.2) h
  (h.zip v).map (fun (x : Word × Word) => x.1 + x.2)

/-- The blocks of a padded message. -/
def shaBlocks (h : List Word) (m : List Byte) : Nat → List Word
  | 0 => h
  | n + 1 => shaBlocks (shaBlock h (m.take 128)) (m.drop 128) n

/-- The hash value of a message, as 64 bytes. -/
def sha2 (iv : List Word) (m : List Byte) : List Byte :=
  let pad := m ++ [0x80] ++ List.replicate ((239 - m.length % 128) % 128) 0 ++ (bytesOf (8 * m.length) 16).reverse
  (shaBlocks iv pad (pad.length / 128)).flatMap (fun w => (bytesOf w.toNat 8).reverse)

/-- SHA-512. -/
def sha512 (m : List Byte) : List Byte := sha2 sha512Iv m
/-- SHA-384, its 48 bytes as a number, first byte lowest (00 R6). -/
def sha384 (m : List Byte) : BitVec 384 := BitVec.ofNat 384 (numOf ((sha2 sha384Iv m).take 48))

/-! ### SHAKE (FIPS 202) -/

/-- The next state of the shift register that gives the round constants (FIPS 202, Algorithm 5). -/
def keccakShift (r : Byte) : Byte := (r <<< 1) ^^^ (if r.msb then 0x71 else 0)

/-- The round constants (FIPS 202, Algorithm 5 and the step ι): bit 2^j - 1 is the register's low bit `j` shifts on, and a
round takes seven. -/
def keccakRcs (r : Byte) : Nat → List Word
  | 0 => []
  | n + 1 =>
    let at' (j : Nat) : Byte := Nat.repeat keccakShift j r
    BitVec.ofNat 64 ((List.range 7).foldl (fun w j => w + (at' j).toNat % 2 * 2 ^ (2 ^ j - 1)) 0) :: keccakRcs (at' 7) n

/-- The rotations of the lanes (FIPS 202, the step ρ): the walk from lane (1, 0), a step taking (x, y) to (y, 2x + 3y), gives
the lane it meets at step `t` the `t`th triangular number. -/
def rhoWalk (l : List Nat) (x y t : Nat) : Nat → List Nat
  | 0 => l
  | n + 1 => rhoWalk (l.set (x + 5 * y) (t * (t + 1) / 2 % 64)) y ((2 * x + 3 * y) % 5) (t + 1) n
def keccakRot : List Nat := rhoWalk (List.replicate 25 0) 1 0 1 24

/-- A lane of the state: lane (x, y) stands at x + 5y, coordinates taken modulo 5. -/
def lane5 (a : List Word) (x y : Nat) : Word := a.getD (x % 5 + 5 * (y % 5)) 0
/-- A state by its lanes. -/
def lanes5 (f : (x y : Nat) → Word) : List Word := (List.range 25).map (fun i => f (i % 5) (i / 5))

/-- The step θ: each lane takes the parity of the column before it and the turned parity of the one after. -/
def keccakTheta (a : List Word) : List Word :=
  let par (x : Nat) : Word := (List.range 5).foldl (fun p y => p ^^^ lane5 a x y) 0
  lanes5 (fun x y => lane5 a x y ^^^ par (x + 4) ^^^ (par (x + 1)).rotateLeft 1)
/-- The steps ρ and π: lane (x, y) comes, turned, from lane (x + 3y, x). -/
def keccakMove (rot : List Nat) (a : List Word) : List Word :=
  lanes5 (fun x y => (lane5 a (x + 3 * y) x).rotateLeft (rot.getD ((x + 3 * y) % 5 + 5 * x) 0))
/-- The step χ. -/
def keccakChi (a : List Word) : List Word :=
  lanes5 (fun x y => lane5 a x y ^^^ (~~~lane5 a (x + 1) y &&& lane5 a (x + 2) y))

/-- Keccak-f[1600]: 24 rounds, the step ι last in each. -/
def keccak (a : List Word) : List Word :=
  (keccakRcs 1 24).foldl (fun s rc => (keccakChi (keccakMove keccakRot (keccakTheta s))).modifyHead (fun w => w ^^^ rc)) a

/-- Whole blocks of `rate` bytes absorbed. -/
def absorb (rate : Nat) (a : List Word) (m : List Byte) : Nat → List Word
  | 0 => a
  | n + 1 =>
    absorb rate (keccak ((List.range 25).map (fun i =>
      a.getD i 0 ^^^ (if 8 * i < rate then BitVec.ofNat 64 (numOf (slice m (8 * i) 8)) else 0)))) (m.drop rate) n

/-- `n` blocks of `rate` bytes squeezed. -/
def squeeze (rate : Nat) (a : List Word) : Nat → List Byte
  | 0 => []
  | n + 1 => (a.flatMap (fun w => bytesOf w.toNat 8)).take rate ++ squeeze rate (keccak a) n

/-- `n` bytes of SHAKE128 (a rate of 168) or SHAKE256 (a rate of 136) of a message. -/
def shake (rate : Nat) (m : List Byte) (n : Nat) : List Byte :=
  let z := rate - 1 - m.length % rate
  let pad := if z = 0 then m ++ [0x9F] else m ++ [0x1F] ++ List.replicate (z - 1) 0 ++ [0x80]
  (squeeze rate (absorb rate (List.replicate 25 0) pad (pad.length / rate)) ((n + rate - 1) / rate)).take n

/-! ### Ed25519 (RFC 8032) -/

/-- The field's prime, the group's order, and the curve's d. -/
def edP : Nat := 2 ^ 255 - 19
def edL : Nat := 2 ^ 252 + 27742317777372353535851937790883648493
def edD : Nat := 37095705934669439343138083508754565189542113879843219016388785533085940283555

/-- A point (X, Y, Z, T) with x = X / Z, y = Y / Z and T = X × Y / Z. -/
structure EdPoint where
  x : Nat
  y : Nat
  z : Nat := 1
  t : Nat
  deriving DecidableEq, Repr

/-- Differences and inverses in the field. -/
def edSub (a b : Nat) : Nat := (a + edP - b % edP) % edP
def edInv (a : Nat) : Nat := powMod a (edP - 2) edP 256

/-- The sum of two points. -/
def EdPoint.add (p q : EdPoint) : EdPoint :=
  let a := edSub p.y p.x * edSub q.y q.x % edP
  let b := (p.y + p.x) * (q.y + q.x) % edP
  let c := 2 * p.t * q.t * edD % edP
  let d := 2 * p.z * q.z % edP
  let e := edSub b a
  let f := edSub d c
  let g := (d + c) % edP
  let h := (b + a) % edP
  { x := e * f % edP, y := g * h % edP, z := f * g % edP, t := e * h % edP }

/-- A multiple of a point, of `n` bits of the number `k`, added to `acc`. -/
def EdPoint.mulAdd (p acc : EdPoint) (k : Nat) : Nat → EdPoint
  | 0 => acc
  | n + 1 => (p.add p).mulAdd (if k % 2 = 1 then acc.add p else acc) (k / 2) n

def EdPoint.mul (p : EdPoint) (k : Nat) : EdPoint := p.mulAdd { x := 0, y := 1, t := 0 } k 512

/-- The points are the same. -/
def EdPoint.same (p q : EdPoint) : Bool := p.x * q.z % edP == q.x * p.z % edP && p.y * q.z % edP == q.y * p.z % edP

/-- The point of a 32-byte encoding, if it encodes one (RFC 8032, 5.1.3). -/
def edDecode (b : List Byte) : Option EdPoint :=
  let w := numOf b
  let y := w % 2 ^ 255
  let sign := w / 2 ^ 255
  let u := edSub (y * y) 1
  let v := (edD * (y * y % edP) + 1) % edP
  let x0 := u * powMod v 3 edP 256 % edP * powMod (u * powMod v 7 edP 256 % edP) ((edP - 5) / 8) edP 256 % edP
  let x1 := if v * x0 * x0 % edP = u then some x0
    else if v * x0 * x0 % edP = edSub 0 u then some (x0 * powMod 2 ((edP - 1) / 4) edP 256 % edP)
    else none
  match x1 with
  | none => none
  | some x =>
    if edP ≤ y ∨ b.length ≠ 32 ∨ (x = 0 ∧ sign = 1) then none
    else
      let x := if x % 2 = sign then x else edP - x
      some { x := x, y := y, t := x * y % edP }

/-- The encoding of a point (RFC 8032, 5.1.2). -/
def EdPoint.encode (p : EdPoint) : List Byte :=
  let i := edInv p.z
  bytesOf (p.y * i % edP + p.x * i % edP % 2 * 2 ^ 255) 32

/-- The base point. -/
def edBase : EdPoint :=
  let x := 15112221349535400772501151409588531511454012693041857206046113283949847762202
  let y := 46316835694926478169428394003475163141307993866256225615783033603165251855960
  { x := x, y := y, t := x * y % edP }

/-- The signature of a message verifies under a key (RFC 8032, 5.1.7). -/
def edVerify (key msg sig : List Byte) : Bool :=
  let s := numOf (sig.drop 32)
  match edDecode key, edDecode (sig.take 32) with
  | some a, some r =>
    let k := numOf (sha512 (sig.take 32 ++ key ++ msg)) % edL
    decide (sig.length = 64) && decide (s < edL) && ((edBase.mul s).mul 8).same ((r.add (a.mul k)).mul 8)
  | _, _ => false

/-- The signature of a message under a 32-byte private key (RFC 8032, 5.1.6). -/
def edSign (seed msg : List Byte) : List Byte :=
  let h := sha512 seed
  let s := numOf (h.take 32) % 2 ^ 254 / 8 * 8 + 2 ^ 254
  let a := (edBase.mul s).encode
  let r := numOf (sha512 (h.drop 32 ++ msg)) % edL
  let rb := (edBase.mul r).encode
  let k := numOf (sha512 (rb ++ a ++ msg)) % edL
  rb ++ bytesOf ((r + k * s) % edL) 32

/-! ### ML-DSA-65 (FIPS 204) -/

/-- The modulus, and the root of unity of order 512. -/
def mlQ : Nat := 8380417
def mlZeta (e : Nat) : Nat := powMod 1753 (e % 512) mlQ 9

/-- A polynomial of 256 coefficients modulo q. -/
abbrev Poly := List Nat
def Poly.at (p : Poly) (i : Nat) : Nat := p.getD i 0
/-- A polynomial by its coefficients. -/
def poly (f : Nat → Nat) : Poly := (List.range 256).map f

/-- A byte's bits in reverse order. -/
def bitRev8 (i : Nat) : Nat := (List.range 8).foldl (fun n j => n + i / 2 ^ j % 2 * 2 ^ (7 - j)) 0

/-- The number-theoretic transform: the values at the odd powers of the root, in bit-reversed order; and its inverse. -/
def ntt (w : Poly) : Poly := poly (fun i =>
  let x := mlZeta (2 * bitRev8 i + 1)
  w.foldr (fun c v => (c + x * v) % mlQ) 0)
def nttInv (w : Poly) : Poly := poly (fun j =>
  8347681 * ((List.range 256).foldl (fun n i => (n + w.at i * mlZeta (512 * 256 - (2 * bitRev8 i + 1) * j)) % mlQ) 0) % mlQ)

/-- Products by coefficient, sums and differences. -/
def Poly.mul (a b : Poly) : Poly := poly (fun i => a.at i * b.at i % mlQ)
def Poly.add (a b : Poly) : Poly := poly (fun i => (a.at i + b.at i) % mlQ)
def Poly.sub (a b : Poly) : Poly := poly (fun i => (a.at i + mlQ - b.at i % mlQ) % mlQ)

/-- The `i`th field of `w` bits. -/
def fieldOf (n w i : Nat) : Nat := n / 2 ^ (w * i) % 2 ^ w

/-- 256 coefficients by rejection from a stream of bytes (RejNTTPoly). -/
def rejNtt : List Byte → Poly
  | a :: b :: c :: r =>
    let z := a.toNat + 2 ^ 8 * b.toNat + 2 ^ 16 * (c.toNat % 128)
    if z < mlQ then z :: rejNtt r else rejNtt r
  | _ => []

/-- An entry of the matrix (ExpandA). -/
def expandA (rho : List Byte) (r s : Nat) : Poly :=
  (rejNtt (shake 168 (rho ++ [BitVec.ofNat 8 s, BitVec.ofNat 8 r]) 2688)).take 256

/-- The challenge's coefficients from `i` on, of the sign bits and a stream of bytes (SampleInBall). -/
def ball (signs i : Nat) (c : Poly) : List Byte → Poly
  | [] => c
  | b :: r =>
    let j := b.toNat
    if 256 ≤ i then c
    else if i < j then ball signs i c r
    else ball signs (i + 1) ((c.set i (c.at j)).set j (if signs / 2 ^ (i - 207) % 2 = 1 then mlQ - 1 else 1)) r

def sampleInBall (seed : List Byte) : Poly :=
  let s := shake 136 seed 1088
  ball (numOf (s.take 8)) 207 (poly (fun _ => 0)) (s.drop 8)

/-- The hint's polynomials, if the bytes encode one (HintBitUnpack). -/
def hintOk (y : List Byte) : Bool :=
  let e (i : Nat) : Nat := (y.getD i 0).toNat
  let cut (i : Nat) : Nat := if i = 0 then 0 else e (55 + i - 1)
  (List.range 6).all (fun i => decide (cut i ≤ cut (i + 1)) && decide (cut (i + 1) ≤ 55) &&
    (List.range 55).all (fun j => !(decide (cut i < j) && decide (j < cut (i + 1))) || decide (e (j - 1) < e j))) &&
  (List.range 55).all (fun j => decide (j < cut 6) || e j == 0)
def hintBit (y : List Byte) (i n : Nat) : Bool :=
  let lo := if i = 0 then 0 else (y.getD (55 + i - 1) 0).toNat
  (slice y lo ((y.getD (55 + i) 0).toNat - lo)).contains (BitVec.ofNat 8 n)

/-- A coefficient's high and low parts (Decompose, with γ2 = (q − 1) / 32 = 261,888). -/
def decompose (r : Nat) : Nat × Int :=
  let g := 2 * 261888
  let low : Int := if 261888 < r % g then (r % g : Int) - g else r % g
  if (r : Int) - low = mlQ - 1 then (0, low - 1) else ((((r : Int) - low) / g).toNat, low)

/-- The high part of a coefficient, moved by the hint (UseHint). -/
def useHint (h : Bool) (r : Nat) : Nat :=
  let (r1, r0) := decompose r
  if h then (if 0 < r0 then (r1 + 1) % 16 else (r1 + 15) % 16) else r1

/-- A row of the matrix times a vector of transforms. -/
def mlRow (rho : List Byte) (i : Nat) (v : List Poly) : Poly :=
  (List.range 5).foldl (fun (p : Poly) j => p.add ((expandA rho i j).mul (v.getD j []))) (poly (fun _ => 0))

/-- Fields of `w` bits packed, the first lowest (BitPack). -/
def packBits (w : Nat) (l : List Nat) : List Byte := bytesOf (l.foldr (fun v n => v + 2 ^ w * n) 0) (w * l.length / 8)

/-- What a signature signs: the message with its empty context, under the hash of the key (pure mode). -/
def mlMu (tr msg : List Byte) : List Byte := shake 136 (tr ++ [0, 0] ++ msg) 64

/-- The challenge's bytes, of the high parts of six polynomials. -/
def mlChallenge (mu : List Byte) (w1 : List (List Nat)) : List Byte := shake 136 (mu ++ w1.flatMap (packBits 4)) 48

/-- The signature of a message verifies under a key, in pure mode with an empty context (ML-DSA.Verify). -/
def mlVerify (key msg sig : List Byte) : Bool :=
  let seed := sig.take 48
  let z : List (List Int) := (List.range 5).map (fun i =>
    let n := numOf (slice sig (48 + 640 * i) 640)
    (List.range 256).map (fun j => (2 ^ 19 : Int) - fieldOf n 20 j))
  let y := sig.drop 3248
  let c := ntt (sampleInBall seed)
  let zn : List Poly := z.map (fun p => ntt (p.map (fun a => (a % (mlQ : Int)).toNat)))
  let w1 : List (List Nat) := (List.range 6).map (fun i =>
    let n := numOf (slice key (32 + 320 * i) 320)
    let t1 := ntt (poly (fun j => fieldOf n 10 j * 2 ^ 13 % mlQ))
    let w := nttInv ((mlRow (key.take 32) i zn).sub (c.mul t1))
    (List.range 256).map (fun j => useHint (hintBit y i j) (w.at j)))
  decide (key.length = 1952) && decide (sig.length = 3309) && hintOk y &&
    z.all (fun p => p.all (fun a => decide (a.natAbs < 2 ^ 19 - 196))) && mlChallenge (mlMu (shake 136 key 64) msg) w1 == seed

/-- Coefficients from -4 to 4, modulo q, by rejection from the halves of a stream of bytes (RejBoundedPoly). -/
def rejBounded (l : List Byte) : Poly :=
  ((l.flatMap (fun b => [b.toNat % 16, b.toNat / 16])).filter (· < 9)).map (fun z => (mlQ + 4 - z) % mlQ)

/-- What a private key is unpacked to: the public seed, the seed of masks, the public key's hash, and the secret vectors. -/
structure MlKey where
  rho : List Byte
  mask : List Byte
  tr : List Byte
  s1 : List Poly
  s2 : List Poly
  t0 : List Poly

/-- The coefficient as the number nearest zero (mod± q). -/
def centred (a : Nat) : Int := if mlQ / 2 < a then (a : Int) - mlQ else a

/-- The low 13 bits of a coefficient, as the number nearest zero (Power2Round). -/
def low13 (r : Nat) : Int := if 2 ^ 12 < r % 2 ^ 13 then ((r % 2 ^ 13 : Nat) : Int) - 2 ^ 13 else (r % 2 ^ 13 : Nat)

/-- The public and the private key of a 32-byte seed (ML-DSA.KeyGen). -/
def mlKeys (seed : List Byte) : List Byte × MlKey :=
  let h := shake 136 (seed ++ [6, 5]) 128
  let rho := h.take 32
  let small (i : Nat) : Poly := (rejBounded (shake 136 (slice h 32 64 ++ bytesOf i 2) 1088)).take 256
  let s1 := (List.range 5).map small
  let s2 := (List.range 6).map (fun i => small (5 + i))
  let t := (List.range 6).map (fun i => (nttInv (mlRow rho i (s1.map ntt))).add (s2.getD i []))
  let pk := rho ++ t.flatMap (fun p => packBits 10 (p.map (fun r => (((r : Int) - low13 r) / 2 ^ 13).toNat)))
  (pk, { rho := rho, mask := h.drop 96, tr := shake 136 pk 64, s1 := s1, s2 := s2
         t0 := t.map (fun p => p.map (fun r => (low13 r % (mlQ : Int)).toNat)) })

/-- No coefficient reaches the bound in magnitude. -/
def within (b : Nat) (v : List Poly) : Bool := v.all (fun p => p.all (fun a => decide ((centred a).natAbs < b)))

/-- The hint's bytes (HintBitPack): the places of the hints of each polynomial, then where each polynomial's end. -/
def hintPack (h : List (List Bool)) : List Byte :=
  let at' := h.map (fun p => (List.range 256).filter (fun j => p.getD j false))
  let ys := at'.flatMap (fun l => l.map (BitVec.ofNat 8))
  ys ++ List.replicate (55 - ys.length) 0 ++
    (List.range 6).map (fun i => BitVec.ofNat 8 (((at'.take (i + 1)).map List.length).sum))

/-- One attempt at a signature, with the mask of counter `kap` (ML-DSA.Sign_internal, steps 11 to 31). -/
def mlTry (k : MlKey) (mu seed : List Byte) (kap : Nat) : Option (List Byte) :=
  let y : List Poly := (List.range 5).map (fun i =>
    let n := numOf (shake 136 (seed ++ bytesOf (kap + i) 2) 640)
    poly (fun j => (2 ^ 19 + mlQ - fieldOf n 20 j) % mlQ))
  let w := (List.range 6).map (fun i => nttInv (mlRow k.rho i (y.map ntt)))
  let ch := mlChallenge mu (w.map (fun p => p.map (fun r => (decompose r).1)))
  let c := ntt (sampleInBall ch)
  let times (v : List Poly) : List Poly := v.map (fun p => nttInv (c.mul (ntt p)))
  let z := (y.zip (times k.s1)).map (fun (x : Poly × Poly) => x.1.add x.2)
  let r := (w.zip (times k.s2)).map (fun (x : Poly × Poly) => x.1.sub x.2)
  let e := times k.t0
  let h : List (List Bool) := (r.zip e).map (fun (x : Poly × Poly) =>
    (x.1.zip (x.1.add x.2)).map (fun (a : Nat × Nat) => (decompose a.1).1 != (decompose a.2).1))
  if within (2 ^ 19 - 196) z && r.all (fun p => p.all (fun a => decide ((decompose a).2.natAbs < 261888 - 196))) &&
      within 261888 e && decide ((h.map (List.count true)).sum ≤ 55) then
    some (ch ++ z.flatMap (fun p => packBits 20 (p.map (fun a => ((2 ^ 19 : Int) - centred a).toNat))) ++ hintPack h)
  else none

/-- Attempts until one gives a signature. -/
def mlTries (k : MlKey) (mu seed : List Byte) (kap : Nat) : Nat → List Byte
  | 0 => []
  | n + 1 => (mlTry k mu seed kap).getD (mlTries k mu seed (kap + 5) n)

/-- The signature of a message under the key of a seed, with 32 bytes of randomness (ML-DSA.Sign, pure mode, empty
context); 814 attempts, the bound that FIPS 204 gives for an implementation that has one. -/
def mlSign (seed rnd msg : List Byte) : List Byte :=
  let k := (mlKeys seed).2
  let mu := mlMu k.tr msg
  mlTries k mu (shake 136 (k.mask ++ rnd ++ mu) 64) 0 814

end Sys2Proof.Machine
end

