-- ==== Sys2Proof/Syntax.lean ====
section
/-! DEFINITION. The instructions: one constructor for each row of spec/opcode_table.json. The first 158 are words of
the instruction set (02 R51, R67); the others are the module's own steps, which have no word. -/
namespace Sys2Proof

/-- A source code: LU, L and n (02 R53). What `n` names depends on the slot, so it is read when the slot runs. -/
structure Src where
  lu : Bool
  l : Bool
  n : BitVec 5
  deriving DecidableEq, Repr

/-- The D field of an instruction that writes a register: NW and DR (02 R52). -/
structure Dst where
  nw : Bool
  dr : BitVec 5
  deriving DecidableEq, Repr

/-- The 7 bits of a source code (02 R53). -/
def Src.code (a : Src) : Nat := a.lu.toNat * 64 + a.l.toNat * 32 + a.n.toNat

/-- The 6 bits of a D field (02 R52). -/
def Dst.code (d : Dst) : Nat := d.nw.toNat * 32 + d.dr.toNat

/-- Where a girth command stands: the head of a girth queue, or of the task scheduler's stream to a stack (09 R261,
12 R314). -/
inductive GirthSrc where
  | queue (hdr : Word)
  | task (stack : Fin 24)
  deriving DecidableEq, Repr

/-- A part of the SRAM that an uncorrectable error can meet (07 R184, 14 R346, R367). -/
inductive SramPlace where
  | spad (core : Fin 64) (line : Fin 98304)
  | x (sid : Fin 16384) (n : Fin 31) (lane : Fin 64)
  | s (sid : Fin 16384) (n : Fin 31)
  | m (sid : Fin 16384) (n : Fin 8)
  | cb (sid : Fin 16384) (n : Fin 4)
  | acc (sid : Fin 16384) (n : Fin 128) (lane : Fin 64)
  | latch (sid : Fin 16384) (k : Fin 4) (lane : Fin 64)
  | south (k : Fin 4096) (e : Fin 8) (lane : Fin 64)
  | north (k : Fin 4096) (e : Fin 16) (lane : Fin 64)
  | cache (core : Fin 64)
  deriving DecidableEq, Repr

/-- A configuration register without behaviour of its own beyond R10's access codes. -/
inductive Reg where
  | leasecfg | spawncfg | tvecdef
  | tregion (die : Fin 8)
  | tuva | tupte | tuctl
  | ogrant (n : Fin 128)
  | igrant (n : Fin 128)
  | suparg (i : Fin 3)
  | supstat | vtail | etail
  | counter (n : Fin 4096)
  | hmask (stack : Fin 24) (k : Fin 8)
  | hcfg (stack : Fin 24)
  | retctl (stack : Fin 24)
  | pwrctl (die : Fin 8)
  | droopth (core : Fin 64)
  | partcfg | pwrshare
  deriving DecidableEq, Repr

/-- An access that a peer asks for: a load of 2^z bytes, a store, of poisoned data or not (07 R199), or an atomic with its
operation, type and operands. -/
inductive PeerOp where
  | load (z : Fin 4)
  | store (z : Fin 4) (v : Word) (pois : Bool)
  | atomic (f : BitVec 4) (ty : BitVec 4) (v : Word)
  | cas (ty : BitVec 4) (cmp v : Word)
  deriving DecidableEq, Repr

/-- The instructions and the module's steps. -/
inductive Instr where
  /-- NOP (R46): No operation: takes no issue and changes no state. -/
  | nop
  /-- MOD (R65): Prefix that overrides mask, rounding, merge/zero and element type, or adds a fourth operand, for the next slot. -/
  | mod (q : BitVec 1) (s : BitVec 7) (e : BitVec 1) (t : BitVec 4) (r : BitVec 3) (z : BitVec 2) (k : BitVec 3)
  /-- XIMM (R66): Prefix that extends the I-form immediate or replaces SB of the next slot with IMM24. -/
  | ximm (i : BitVec 24)
  /-- BRA (R298): Uniform branch, always taken, to a bundle offset. -/
  | bra (o : BitVec 20)
  /-- BZ (R298): Uniform branch when scalar sC is zero. -/
  | bz (c : BitVec 4) (o : BitVec 20)
  /-- BNZ (R298): Uniform branch when scalar sC is nonzero. -/
  | bnz (c : BitVec 4) (o : BitVec 20)
  /-- BRD (R299): Per-lane divergent branch on a mask, pushing a DIV entry when lanes disagree. -/
  | brd (m : BitVec 3) (o : BitVec 20)
  /-- BRDN (R299): Per-lane divergent branch on the inverse of a mask. -/
  | brdn (m : BitVec 3) (o : BitVec 20)
  /-- JSET (R300): Pushes a JOIN entry naming the reconvergence bundle. -/
  | jset (o : BitVec 20)
  /-- JOIN (R301): Ends a path, switches to a sibling path or reconverges at the join. -/
  | join
  /-- JMP (R303): Moves the running path to a scalar target address. -/
  | jmp (a : Src)
  /-- JMPV (R304): Moves path lanes to per-lane targets, grouping distinct targets as DIV entries. -/
  | jmpv (a : Src)
  /-- CALL (R303): Writes the return address to s30 and branches to a bundle offset. -/
  | call (o : BitVec 20)
  /-- CALLR (R303): Writes the return address to s30 and jumps to a scalar target. -/
  | callr (a : Src)
  /-- RET (R303): Jumps to the scalar return address, s30 by default. -/
  | ret (a : Src)
  /-- EXIT (R305): Ends every active lane; the row exits when no live lane remains. -/
  | exit
  /-- LOOP (R298): Decrements scalar sC and branches while it is nonzero. -/
  | loop (c : BitVec 4) (o : BitVec 20)
  /-- BRK (R306): Raises the BRK trap with code k. -/
  | brk (k : BitVec 4)
  /-- PUSHP (R308): Pushes a PRED entry narrowing the path to lanes set in a mask. -/
  | pushp (a : BitVec 3)
  /-- PUSHPN (R308): Pushes a PRED entry narrowing the path to lanes clear in a mask. -/
  | pushpn (a : BitVec 3)
  /-- PUSHM (R308): Pushes a PRED entry of the live lanes set in a mask. -/
  | pushm (a : BitVec 3)
  /-- INVP (R308): Inverts the top PRED entry against the entry below. -/
  | invp
  /-- POPP (R308): Pops the top PRED entry and unwinds. -/
  | popp
  /-- MSET (R309): Writes a mask register from the governing mask, path lanes, zero or live lanes. -/
  | mset (d : BitVec 3) (k : BitVec 2)
  /-- MLOG (R309): Writes a mask register with MAND, MOR, MXOR, MANDN or MNOT of masks. -/
  | mlog (d : BitVec 3) (a : BitVec 3) (b : BitVec 3) (f : BitVec 4)
  /-- MCNT (R310): Writes the count of set bits of a mask to a scalar. -/
  | mcnt (d : Dst) (a : BitVec 3)
  /-- MFST (R310): Writes the index of the lowest set bit of a mask to a scalar. -/
  | mfst (d : Dst) (a : BitVec 3)
  /-- MTOS (R310): Copies a mask register to a scalar. -/
  | mtos (d : Dst) (a : BitVec 3)
  /-- STOM (R309): Writes a mask register from a scalar value. -/
  | stom (d : BitVec 3) (a : Src)
  /-- MANY (R310): Writes 1 when any active lane is set in a mask. -/
  | many (d : Dst) (a : BitVec 3)
  /-- MALL (R310): Writes 1 when every active lane is set in a mask. -/
  | mall (d : Dst) (a : BitVec 3)
  /-- MSPILL (R351): Writes every mask-stack entry to global memory as 32-byte images. -/
  | mspill (a : Src)
  /-- MFILL (R351): Replaces the mask stack with n images read from global memory. -/
  | mfill (a : Src) (n : BitVec 4)
  /-- ADD (R122): Integer add per element, wrapping or saturating. -/
  | add (d : Dst) (a : Src) (b : Src)
  /-- SUB (R122): Integer subtract per element. -/
  | sub (d : Dst) (a : Src) (b : Src)
  /-- MUL (R122): Integer multiply per element. -/
  | mul (d : Dst) (a : Src) (b : Src)
  /-- MULH (R123): High half of the double-width integer product. -/
  | mulh (d : Dst) (a : Src) (b : Src)
  /-- MIN (R124): Lesser element under integer or TAP order. -/
  | min (d : Dst) (a : Src) (b : Src)
  /-- MAX (R124): Greater element under integer or TAP order. -/
  | max (d : Dst) (a : Src) (b : Src)
  /-- ABS (R122): Integer absolute value per element. -/
  | abs (d : Dst) (a : Src)
  /-- NEG (R122): Integer negation per element. -/
  | neg (d : Dst) (a : Src)
  /-- AND (R118): Bitwise AND of 64 bits. -/
  | and (d : Dst) (a : Src) (b : Src)
  /-- OR (R118): Bitwise OR of 64 bits. -/
  | or (d : Dst) (a : Src) (b : Src)
  /-- XOR (R118): Bitwise XOR of 64 bits. -/
  | xor (d : Dst) (a : Src) (b : Src)
  /-- ANDN (R118): Bitwise a AND NOT b of 64 bits. -/
  | andn (d : Dst) (a : Src) (b : Src)
  /-- SHL (R125): Shift left per element. -/
  | shl (d : Dst) (a : Src) (b : Src)
  /-- SHR (R125): Logical shift right per element. -/
  | shr (d : Dst) (a : Src) (b : Src)
  /-- SAR (R125): Arithmetic shift right per element. -/
  | sar (d : Dst) (a : Src) (b : Src)
  /-- ROT (R125): Rotate left per element. -/
  | rot (d : Dst) (a : Src) (b : Src)
  /-- ADDI (R126): Adds a sign-extended immediate to the 64-bit destination. -/
  | addi (d : Dst) (i : BitVec 18)
  /-- LI (R126): Loads a sign-extended immediate into the destination. -/
  | li (d : Dst) (i : BitVec 18)
  /-- LSI (R126): Shifts the destination left and ORs in raw immediate bits. -/
  | lsi (d : Dst) (i : BitVec 18)
  /-- LEA (R126): Writes a + (b << k) in 64 bits. -/
  | lea (d : Dst) (a : Src) (b : Src) (k : BitVec 4)
  /-- CLZ (R127): Counts leading zeros per element. -/
  | clz (d : Dst) (a : Src)
  /-- POPC (R127): Counts set bits per element. -/
  | popc (d : Dst) (a : Src)
  /-- BREV (R127): Reverses bit order per element. -/
  | brev (d : Dst) (a : Src)
  /-- BFX (R128): Extracts a bit field per element. -/
  | bfx (d : Dst) (a : Src) (b : Src)
  /-- BFI (R128): Inserts a bit field into the destination per element. -/
  | bfi (d : Dst) (a : Src) (b : Src)
  /-- DIV (R129): Integer quotient truncated towards zero. -/
  | div (d : Dst) (a : Src) (b : Src)
  /-- REM (R129): Integer remainder with the sign of the dividend. -/
  | rem (d : Dst) (a : Src) (b : Src)
  /-- MAD (R122): Integer d + a × b, narrowed once. -/
  | mad (d : Dst) (a : Src) (b : Src)
  /-- SEXT (R128): Sign-extends each element from bit count b. -/
  | sext (d : Dst) (a : Src) (b : Src)
  /-- ZEXT (R128): Zero-extends each element from bit count b. -/
  | zext (d : Dst) (a : Src) (b : Src)
  /-- CMP (R130): Compares elements, writing all ones where the relation in F holds. -/
  | cmp (d : Dst) (a : Src) (b : Src) (f : BitVec 4)
  /-- CMPM (R131): Compares and writes one bit per active lane into a mask register. -/
  | cmpm (d : BitVec 3) (a : Src) (b : Src) (f : BitVec 4)
  /-- SEL (R132): Selects a or b per lane by a mask register. -/
  | sel (d : Dst) (a : Src) (b : Src) (m : BitVec 3)
  /-- CLAMP (R133): Clamps elements between b and an upper bound. -/
  | clamp (d : Dst) (a : Src) (b : Src)
  /-- FADD (R134): Float add rounded once. -/
  | fadd (d : Dst) (a : Src) (b : Src)
  /-- FSUB (R134): Float subtract rounded once. -/
  | fsub (d : Dst) (a : Src) (b : Src)
  /-- FMUL (R134): Float multiply rounded once. -/
  | fmul (d : Dst) (a : Src) (b : Src)
  /-- FMA (R134): Fused d + a × b rounded once. -/
  | fma (d : Dst) (a : Src) (b : Src)
  /-- FNMA (R134): Fused d − a × b rounded once. -/
  | fnma (d : Dst) (a : Src) (b : Src)
  /-- FMIN (R135): minimumNumber of float elements. -/
  | fmin (d : Dst) (a : Src) (b : Src)
  /-- FMAX (R135): maximumNumber of float elements. -/
  | fmax (d : Dst) (a : Src) (b : Src)
  /-- FNEG (R136): Flips the sign of float elements. -/
  | fneg (d : Dst) (a : Src)
  /-- FABS (R136): Clears the sign of float elements. -/
  | fabs (d : Dst) (a : Src)
  /-- FDIV (R134): Float divide rounded once. -/
  | fdiv (d : Dst) (a : Src) (b : Src)
  /-- FSQRT (R134): Float square root rounded once. -/
  | fsqrt (d : Dst) (a : Src)
  /-- FEXP2 (R137): 2^a rounded once by RNE. -/
  | fexp2 (d : Dst) (a : Src)
  /-- FLOG2 (R137): log2 a rounded once by RNE. -/
  | flog2 (d : Dst) (a : Src)
  /-- FRSQ (R137): 1/√a rounded once by RNE. -/
  | frsq (d : Dst) (a : Src)
  /-- FTANH (R137): tanh a rounded once by RNE. -/
  | ftanh (d : Dst) (a : Src)
  /-- FSIGM (R137): Logistic sigmoid of a rounded once by RNE. -/
  | fsigm (d : Dst) (a : Src)
  /-- FCLASS (R138): Writes the class bits of each float element. -/
  | fclass (d : Dst) (a : Src)
  /-- CVT (R139): Converts elements from the source type in F to the effective type. -/
  | cvt (d : Dst) (a : Src) (b : Src) (s : BitVec 4)
  /-- QCB (R141): Quantises F32 elements to nearest CB4 codebook codes. -/
  | qcb (d : Dst) (a : Src) (b : Src) (n : BitVec 2)
  /-- DQCB (R142): Dequantises CB4 codes to BF16 codebook entries. -/
  | dqcb (d : Dst) (a : Src) (b : Src) (n : BitVec 2)
  /-- PACK (R140): Converts two registers into one of half-width elements. -/
  | pack (d : Dst) (a : Src) (b : Src) (s : BitVec 4)
  /-- UNPK (R140): Converts one register into two of double-width elements. -/
  | unpk (d : Dst) (a : Src) (s : BitVec 4)
  /-- HAD (R143): Keyed signed 64-point Walsh–Hadamard transform across the row. -/
  | had (d : Dst) (a : Src) (b : Src)
  /-- HADINV (R143): Inverse keyed Walsh–Hadamard transform across the row. -/
  | hadinv (d : Dst) (a : Src) (b : Src)
  /-- RAND (R144): Writes keyed mix bits into each active lane. -/
  | rand (d : Dst) (a : Src) (b : Src)
  /-- SHFL (R146): Gathers a value from another lane by index, offset or xor. -/
  | shfl (d : Dst) (a : Src) (b : Src) (f : BitVec 4)
  /-- BFLY (R147): Butterfly step pairing lanes l and l ^ 2^F. -/
  | bfly (d : Dst) (a : Src) (f : BitVec 4)
  /-- BCAST (R148): Broadcasts one lane's value to every active lane. -/
  | bcast (d : Dst) (a : Src) (b : Src)
  /-- REDW (R149): Reduces a row over a fixed tree and writes the result to every active lane. -/
  | redw (d : Dst) (a : Src) (f : BitVec 3)
  /-- SCAN (R149): Inclusive or exclusive scan over lanes in a fixed tree. -/
  | scan (d : Dst) (a : Src) (f : BitVec 4)
  /-- COMPACT (R150): Packs the active lanes' values into the low lanes. -/
  | compact (d : Dst) (a : Src)
  /-- XTOS (R151): Copies one lane's value into a scalar. -/
  | xtos (d : Dst) (a : Src) (b : Src)
  /-- STOX (R151): Writes a value into one lane of an x register. -/
  | stox (d : Dst) (a : Src) (b : Src)
  /-- MOV (R152): Copies a into d in each active lane. -/
  | mov (d : Dst) (a : Src)
  /-- MOVS (R152): Swizzles elements within each lane. -/
  | movs (d : Dst) (a : Src) (b : Src)
  /-- MDOT (R156): Queues a k-run of exact dot-product steps into an accumulator. -/
  | mdot (d : BitVec 5) (a : Src) (b : Src) (k : BitVec 3)
  /-- MDOTP (R157): Queues dot-product steps on a partial sum and reserves a south-port slot. -/
  | mdotp (a : Src) (b : Src) (z : BitVec 1) (k : BitVec 3)
  /-- MBATCH (R159): Closes the seat's open matrix batch and returns its number. -/
  | mbatch (d : Dst)
  /-- MWAIT (R160): Parks until a batch and all earlier batches retire, then folds matrix flags into FSTAT. -/
  | mwait (a : Src)
  /-- AGET (R163): Reads two accumulators into one register. -/
  | aget (d : Dst) (a : BitVec 5)
  /-- APUT (R164): Queues a write of two accumulators from a register. -/
  | aput (d : BitVec 5) (a : Src)
  /-- AZERO (R165): Queues zeroing of k accumulators. -/
  | azero (d : BitVec 5) (k : BitVec 4)
  /-- ASCL (R166): Queues scaling of k accumulators by an F32 factor. -/
  | ascl (d : BitVec 5) (a : Src) (k : BitVec 4)
  /-- LDCB (R167): Loads a codebook register from a tensor header record. -/
  | ldcb (n : BitVec 2) (a : Src)
  /-- PPASS (R174): Pops one north-port entry and writes it to the south port. -/
  | ppass
  /-- PDROP (R174): Pops and discards one north-port entry. -/
  | pdrop
  /-- PSTAT (R175): Writes a snapshot of the row's port state to a scalar. -/
  | pstat (d : Dst)
  /-- TAILCFG (R173): Configures the tail sink base, pitch, count and enable. -/
  | tailcfg (a : Src) (b : Src)
  /-- LDS (R237): Loads one element per lane from scratchpad. -/
  | lds (d : Dst) (a : Src) (b : Src) (f : BitVec 4)
  /-- STS (R237): Stores one element per lane to scratchpad. -/
  | sts (d : BitVec 5) (a : Src) (b : Src) (f : BitVec 4)
  /-- LDSB (R238): Loads a 512-byte scratchpad block into one register. -/
  | ldsb (d : Dst) (a : Src) (b : Src)
  /-- STSB (R238): Stores one register as a 512-byte scratchpad block. -/
  | stsb (d : BitVec 5) (a : Src) (b : Src)
  /-- PRES (R239): Reports presence and poison of scratchpad lines. -/
  | pres (d : Dst) (a : Src) (b : Src)
  /-- ABSENT (R240): Clears the presence bit of n scratchpad lines. -/
  | absent (a : Src) (b : Src) (n : BitVec 4)
  /-- ATOMS (R242): Scratchpad atomic read-modify-write selected by F. -/
  | atoms (d : Dst) (a : Src) (b : Src) (f : BitVec 4)
  /-- CASS (R242): Scratchpad compare-and-swap. -/
  | cass (d : Dst) (a : Src) (b : Src)
  /-- LDG (R237): Loads one element per lane from global memory, optionally no-cache. -/
  | ldg (d : Dst) (a : Src) (b : Src) (f : BitVec 4)
  /-- STG (R237): Stores one element per lane to global memory and returns a GWCT. -/
  | stg (d : BitVec 5) (a : Src) (b : Src) (f : BitVec 2)
  /-- LDGB (R238): Loads a 512-byte global block into one register. -/
  | ldgb (d : Dst) (a : Src) (b : Src) (f : BitVec 1)
  /-- STGB (R238): Stores one register as a 512-byte global block. -/
  | stgb (d : BitVec 5) (a : Src) (b : Src)
  /-- ATOMG (R242): Global atomic read-modify-write at the home girth unit. -/
  | atomg (d : Dst) (a : Src) (b : Src) (f : BitVec 4)
  /-- REDG (R242): Global reduction at the home girth unit with no returned value. -/
  | redg (a : Src) (b : Src) (f : BitVec 4)
  /-- CASG (R242): Global compare-and-swap. -/
  | casg (d : Dst) (a : Src) (b : Src)
  /-- PREFG (R243): Requests global sectors into the line cache with a lease. -/
  | prefg (a : Src) (b : Src)
  /-- ISECT (R245): Counts common elements of two sorted lists in rounds per lane. -/
  | isect (d : BitVec 5) (a : BitVec 5) (b : BitVec 5)
  /-- FREL (R213): Release fence at a scope. -/
  | frel (s : BitVec 3)
  /-- FACQ (R214): Acquire fence at a scope, invalidating the line cache at lease scopes. -/
  | facq (s : BitVec 3)
  /-- FFULL (R215): Full fence at a scope. -/
  | ffull (s : BitVec 3)
  /-- IFENCE (R246): Invalidates the executing core's instruction cache. -/
  | ifence
  /-- BARI (R250): Arms a barrier object with expected arrivals and bytes. -/
  | bari (a : Src) (b : Src)
  /-- BARV (R250): Releases at a scope then makes a row arrival with a byte count. -/
  | barv (a : Src) (b : Src) (s : BitVec 4)
  /-- BARW (R251): Parks until the barrier generation passes g. -/
  | barw (a : Src) (b : Src)
  /-- BARX (R250): Adds expected bytes to the current barrier phase. -/
  | barx (a : Src) (b : Src)
  /-- BARS (R252): Reads an 8-byte snapshot or straggler report of a barrier. -/
  | bars (d : Dst) (a : Src) (k : BitVec 4)
  /-- TIME (R247): Reads the die's TIME into a scalar. -/
  | time (d : Dst)
  /-- CLKC (R247): Reads the core's clock count into a scalar. -/
  | clkc (d : Dst)
  /-- QPUT (R255): Appends a 64-byte packet to a queue ring. -/
  | qput (a : Src) (b : Src) (f : BitVec 4)
  /-- TDEC (R313): Decrements a dependence counter. -/
  | tdec (a : Src)
  /-- TARM (R312): Arms a dependence counter with a count and task address. -/
  | tarm (a : Src) (b : Src)
  /-- TAKE (R315): Draws a speed-weighted chunk from a distributor object. -/
  | take (d : Dst) (a : Src)
  /-- SPAWN (R317): Submits one (entry, argument) pair per active lane to the spawn bins. -/
  | spawn (a : Src) (b : Src)
  /-- YIELD (R318): Parks the seat for one selecting clock. -/
  | yield
  /-- SLEEPT (R319): Parks the seat until TIME reaches a value. -/
  | sleept (a : Src)
  /-- SETMODE (R348): Writes MODE from an immediate after checks. -/
  | setmode (m : BitVec 16)
  /-- GETMODE (R348): Reads MODE into a scalar. -/
  | getmode (d : Dst)
  /-- CSRR (R349): Reads a CSR into a scalar. -/
  | csrr (d : Dst) (c : BitVec 7)
  /-- CSRW (R349): Writes a CSR from a scalar. -/
  | csrw (c : BitVec 7) (b : Src)
  /-- TRAP (R350): Raises trap 0x0A with code k and an operand. -/
  | trap (a : Src) (k : BitVec 4)
  /-- RETT (R350): Returns from handler level, restoring MODE and latches and resuming at TPC. -/
  | rett
  /-- CTXSV (R353): Saves the seat's user context into a 64 KiB image. -/
  | ctxsv (a : Src)
  /-- CTXLD (R353): Loads a context image into the seat. -/
  | ctxld (a : Src)
  /-- FORCED_ISSUE (R285): A seat skipped 16 times issues regardless of budget and the partition idles one clock. -/
  | forcedIssue (sid : Fin 16384)
  /-- SEAT_WAKE (R281): A parked seat wakes when its park condition clears and re-enters the scan as youngest. -/
  | seatWake (sid : Fin 16384)
  /-- SLEEPT_WAKE (R319): A sleeping seat wakes when TIME reaches its wake time. -/
  | sleeptWake (sid : Fin 16384)
  /-- MATRIX_STEP (R153): The cell performs one step of queued matrix work. -/
  | matrixStep (k : Fin 4096)
  /-- PORT_CROSSING_MOVE (R168): A filled entry moves from the producer FIFO into the die-crossing buffer when a slot frees. -/
  | portCrossingMove (k : Fin 4096)
  /-- TAIL_SINK_STORE (R172): The tail sink stores an entry into scratchpad, waiting on an absent line. -/
  | tailSinkStore (k : Fin 4096)
  /-- FADDX_CONTRIBUTION (R113): A FADDX contribution is added to an exact accumulator at its girth unit. -/
  | faddxContribution (i : Nat)
  /-- FADDX_WAIT_REPORT (R115): A FADDX waiting 100 µs for an accumulator is reported to the supervisor. -/
  | faddxWaitReport (i : Nat)
  /-- EXT_QUEUE_SUBMIT (R256): An external writer publishes a packet by writing WIDX. -/
  | extQueueSubmit (p : Fin 8) (hdr : Word) (pkt : Vector Word 8) (widx : Word)
  /-- QUEUE_REGISTER (R254): The supervisor registers a queue header with the command processor. -/
  | queueRegister (p : Fin 8) (hdr : Word)
  /-- QUEUE_HALT_CLEAR (R263): The supervisor clears HALT and the queue re-reads its slot. -/
  | queueHaltClear (p : Fin 8) (hdr : Word)
  /-- COPY (R258): Copy engine accepts and performs a COPY packet row by row. -/
  | copy (p : Fin 8) (hdr : Word)
  /-- FEED (R258): Copy engine accepts a FEED packet and binds to a head's north port. -/
  | feed (p : Fin 8) (hdr : Word)
  /-- FILL (R258): Copy engine fills a destination with an 8-byte pattern. -/
  | fill (p : Fin 8) (hdr : Word)
  /-- GATHER (R258): Copy engine copies indexed source rows to a destination. -/
  | gather (p : Fin 8) (hdr : Word)
  /-- FEED_ENTRY_PUSH (R170): The engine pushes one FEED entry into a free slot of the head's north port. -/
  | feedEntryPush (k : Fin 4096)
  /-- RELEASE (R223): A copy's RELEASE target is taken once its last source read is fixed. -/
  | release (n : Nat)
  /-- LANDED (R223): A copy's LANDED target is taken once its last write is performed and leases expire. -/
  | landed (n : Nat)
  /-- COPY_FAULT_RESUME (R260): A packet stalled on a replayable fault resumes once the page is mapped. -/
  | copyFaultResume (n : Nat)
  /-- AXPY (R262): Girth command y = y + α·x per element. -/
  | axpy (p : Fin 8) (src : GirthSrc)
  /-- SCALE (R262): Girth command y = α·y per element. -/
  | scale (p : Fin 8) (src : GirthSrc)
  /-- MOMENTUM (R262): Girth momentum optimiser update per element. -/
  | momentum (p : Fin 8) (src : GirthSrc)
  /-- ADAMW (R262): Girth AdamW optimiser update per element. -/
  | adamw (p : Fin 8) (src : GirthSrc)
  /-- GIRTH_ZERO (R262): Girth command writing +0 to each element. -/
  | girthZero (p : Fin 8) (src : GirthSrc)
  /-- XCLOSE (R114): Closes open exact accumulators in a range and writes their rounded values. -/
  | xclose (p : Fin 8) (src : GirthSrc)
  /-- LAUNCH_ACCEPT (R265): The command processor takes a launch packet and checks it. -/
  | launchAccept (p : Fin 8)
  /-- LAUNCH_PLACE (R272): The distributor places a rig and strings when room exists and releases their rows. -/
  | launchPlace (p : Fin 8)
  /-- BRIDLE_FAULT_RESUME (R394): A launch acceptance stalled on a bridle-table page resumes once mapped. -/
  | bridleFaultResume (p : Fin 8)
  /-- SPAWN_BIN_TIMER (R275): A spawn bin's timer reaches BINT and its pairs become a pending row. -/
  | spawnBinTimer (core : Fin 64) (bin : Fin 16)
  /-- PENDING_ROW_PLACE (R276): A pending spawned row is placed on its bin's core. -/
  | pendingRowPlace (core : Fin 64) (bin : Fin 16)
  /-- SEAT_RELEASE (R279): An exited row's seat and accumulators are released once its work drains. -/
  | seatRelease (sid : Fin 16384)
  /-- RESUME (R333): Supervisor command restarting a frozen master afresh. -/
  | resume (p : Fin 8)
  /-- ABORT (R333): Supervisor command dropping a frozen packet and halting its queue. -/
  | abort (p : Fin 8)
  /-- KILL (R334): Supervisor command ending a launch. -/
  | kill (p : Fin 8)
  /-- SKIP (R333): Supervisor command dropping the packet at RIDX of a halted queue. -/
  | skip (p : Fin 8)
  /-- PREEMPT (R356): Supervisor command stopping and saving a unit. -/
  | preempt (p : Fin 8)
  /-- PREEMPT_SEAT_STOP (R355): A seat of a pre-empted unit stops at its switch-out point. -/
  | preemptSeatStop (sid : Fin 16384)
  /-- PREEMPT_DEADLINE (R356): Seats not stopped by T0 + 200 µs: the command is refused and withdrawn. -/
  | preemptDeadline (p : Fin 8)
  /-- PREEMPT_DRAIN_END (R357): At T1 + 20 µs unreleased bound packets are aborted and images saved. -/
  | preemptDrainEnd (p : Fin 8)
  /-- RESTORE (R360): Supervisor command placing a pre-empted unit again and resuming it. -/
  | restore (p : Fin 8)
  /-- DIERESET (R365): Supervisor command resetting a grid die. -/
  | diereset (p : Fin 8)
  /-- DIE_FAULT (R365): A die's logic reports an uncorrectable fault and the management block resets it. -/
  | dieFault (die : Fin 8)
  /-- DIE_RESET_FORCE (R365): At T0 + 100 µs or quiescence the die's boundaries are cut, reset and rejoined. -/
  | dieResetForce (die : Fin 8)
  /-- TU_SET (R327): Table update writing TUPTE into consecutive entries. -/
  | tuSet (p : Fin 8) (cnt : BitVec 10) (level : BitVec 2)
  /-- TU_CLEAR (R327): Table update clearing consecutive entries. -/
  | tuClear (p : Fin 8) (cnt : BitVec 10) (level : BitVec 2)
  /-- TU_SETRANGE (R327): Table update writing entries with increasing addresses. -/
  | tuSetrange (p : Fin 8) (cnt : BitVec 10) (level : BitVec 2)
  /-- TU_COMPLETE (R328): BUSY clears once shootdowns and waited accesses finish: the completion report. -/
  | tuComplete (p : Fin 8)
  /-- APPLY (R197): HCFG APPLY remaps a stack's hash masks and parity. -/
  | apply (stack : Fin 24)
  /-- APPLY_DONE (R197): The APPLY finishes rewriting table regions and clears BUSY. -/
  | applyDone (stack : Fin 24)
  /-- RETIRE_GO (R364): RETCTL GO starts retiring a pseudo-channel into its parity group. -/
  | retireGo (stack : Fin 24)
  /-- RETIRE_SWITCH (R364): After migration the retired member's homes switch and RETIRE_DONE is recorded. -/
  | retireSwitch (stack : Fin 24)
  /-- PEER_RETRY_RESEND (R364): A peer access answered RETRY is resent every 1 µs. -/
  | peerRetryResend
  /-- SRAM_UE (R184): An uncorrectable SRAM error poisons a line or register part. -/
  | sramUe (place : SramPlace)
  /-- UV_TRIAL (R366): The voltage controller lowers a die rail one step on trial. -/
  | uvTrial (die : Fin 8)
  /-- UV_ABORT (R367): An error during a trial restores the rail and blacklists the VID. -/
  | uvAbort (die : Fin 8)
  /-- UV_BLACKLIST_EXPIRE (R367): A blacklisted VID becomes usable again after 24 h. -/
  | uvBlacklistExpire (die : Fin 8) (vid : BitVec 8)
  /-- PARTITION_ENABLE (R320): A PARTCFG write setting EN forms a partition, scrubbing dies as needed. -/
  | partitionEnable (p : Fin 8) (w : Word)
  /-- PARTITION_DISABLE (R320): A PARTCFG write clearing EN dissolves a partition. -/
  | partitionDisable (p : Fin 8)
  /-- PWRSHARE_WRITE (R385): Control-node write of a partition's power share, refused above MODMLIM. -/
  | pwrshareWrite (p : Fin 8) (w : Word)
  /-- COUNTER_FROZEN_CLEAR (R311): Writing 1 to FROZEN drops a counter's task unissued. -/
  | counterFrozenClear (p : Fin 8) (n : Fin 4096)
  /-- REGISTER_WRITE (R10): A write to a configuration register without behaviour of its own. -/
  | registerWrite (p : Fin 8) (r : Reg) (v : Word)
  /-- CONTROL_NODE_ACCESS (R336): A control-node access to global memory through the partition's translation. -/
  | controlNodeAccess (p : Fin 8) (va : Word) (size : Fin 4) (wr : Option Word)
  /-- PEER_ACCESS_INBOUND (R338): An inbound span frame is checked against grants and performed or refused. -/
  | peerAccessInbound (link : Fin 16) (dev : BitVec 16) (src : BitVec 3) (p : Fin 8) (va : Word) (op : PeerOp)
  /-- CONTROL_INTERVAL (R384): Every 100 µs the controller sets L, Q, BST, frequencies, BUDGET and rail, and writes records. -/
  | controlInterval
  /-- DROOP_TRIP (R387): Rail shortfall trips the droop detector: clocks stretched, budget halved. -/
  | droopTrip (core : Fin 64)
  /-- DROOP_WINDOW_END (R387): The stretch or halving window of a droop trip expires. -/
  | droopWindowEnd (core : Fin 64)
  /-- COOLANT_FAULT (R379): Inlet too hot or flow too low for 1 s sets a coolant fault. -/
  | coolantFault
  /-- COOLANT_FAULT_CLEAR (R379): The coolant fault clears after 10 s absent. -/
  | coolantFaultClear
  /-- THERMAL_TRIP (R388): A sensor at 120 °C stops and resets its die. -/
  | thermalTrip (die : Fin 8)
  /-- POWER_GOOD (R389): Power-good starts verification, self-test and measurement. -/
  | powerGood
  /-- FIRMWARE_RELOAD (R391): A firmware image reload over the control port is verified and taken. -/
  | firmwareReload (image : List Byte)
  /-- OPEN (R393): A signed session OPEN request starts a control-port session. -/
  | open (nonce : BitVec 384) (keys edSig mlSig : List Byte)
  /-- CLOSE (R393): CLOSE ends the control-port session. -/
  | close
  /-- LOSS_OF_LIGHT (R393): Loss of light on the fibre ends the session. -/
  | lossOfLight
  /-- QUOTE (R392): Answers a nonce with MV, identity and TIME signed by the identity keys. -/
  | quote (nonce : BitVec 384)
  /-- IDENTITY_QUERY (R390): Identity and status query answered in any state. -/
  | identityQuery
  /-- FLIT_CRC_ERROR (R393): A span flit failing CRC is resent; too many retries take the link down. -/
  | flitCrcError (link : Fin 16)
  /-- LINK_TRAINED (R393): A span link completes training and carries traffic. -/
  | linkTrained (link : Fin 16) (dev : BitVec 16)
  /-- UNASSIGNED_OPCODE (R68): A slot reached whose word matches no assigned encoding (an unassigned opcode, or a required-zero field set) raises ILLEGAL_OP. -/
  | unassignedOpcode (w : Half)
  /-- TRIAL_PASSED (R366): An undervolting trial ends with clean canaries, so SAFEVID takes the trial VID and TRIAL clears. -/
  | trialPassed (die : Fin 8)
  /-- DIE_REJOIN (R388): A thermally tripped die rejoins once its sensors read below 90 °C and its reset has completed, and COOLF[1] clears. -/
  | dieRejoin (die : Fin 8)
  /-- POWER_OFF (R42): Power is removed: TIME stops, the control-port session ends and all volatile state is lost. -/
  | powerOff
  /-- NEW_VALUES_APPLY (R384): Each core's new frequency and BUDGET from a control interval take effect at its first clock beginning at least 10 µs after the interval's start. -/
  | newValuesApply (core : Fin 64)
  deriving DecidableEq, Repr

end Sys2Proof
end

