-- ==== Sys2Proof/Decode.lean ====
section
/-! DEFINITION. Decoding of a 32-bit word into an instruction, total and rejecting by name, and the encoder, written
from the encoding tables of 02, 12, 14 and the instruction chapters (02 R51 to R53, R67, R68). -/
namespace Sys2Proof

/-- `k` bits of `n` from bit `lo` upward. -/
def bits (n lo k : Nat) : Nat := n / 2 ^ lo % 2 ^ k

/-- The same bits as a bit vector. -/
def fld (n lo k : Nat) : BitVec k := BitVec.ofNat k (n / 2 ^ lo)

/-- The source code that stands from bit `lo` upward (02 R53). -/
def src (n lo : Nat) : Src :=
  ⟨bits n (lo + 6) 1 == 1, bits n (lo + 5) 1 == 1, BitVec.ofNat 5 (n / 2 ^ lo)⟩

/-- The D field of a word (02 R51, R52). -/
def dst (n : Nat) : Dst := ⟨bits n 23 1 == 1, BitVec.ofNat 5 (n / 2 ^ 18)⟩

/-- The source code whose 7 bits are `c`, as MOD's SC field holds it (02 R65). -/
def Src.ofCode (c : BitVec 7) : Src := src c.toNat 0

/-- The words of opcodes 0x00 to 0x0F (02 R67, R68): `lo` is the opcode's low digit. -/
def decodeControl (lo n : Nat) : Option Instr :=
  match lo with
  | 0 => if bits n 0 24 = 0 then some (.nop) else none
  | 1 => if bits n 20 4 = 0 then some (.bra (fld n 0 20)) else none
  | 2 => some (.bz (fld n 20 4) (fld n 0 20))
  | 3 => some (.bnz (fld n 20 4) (fld n 0 20))
  | 4 => if bits n 23 1 = 0 then some (.brd (fld n 20 3) (fld n 0 20)) else
    if bits n 23 1 = 1 then some (.brdn (fld n 20 3) (fld n 0 20)) else none
  | 5 => if bits n 20 4 = 0 then some (.jset (fld n 0 20)) else none
  | 6 => if bits n 0 24 = 0 then some (.join) else none
  | 7 => if bits n 0 11 = 0 ∧ bits n 18 6 = 0 then some (.jmp (src n 11)) else none
  | 8 => if bits n 0 11 = 0 ∧ bits n 18 6 = 0 then some (.jmpv (src n 11)) else none
  | 9 => if bits n 20 4 = 0 then some (.call (fld n 0 20)) else none
  | 10 => if bits n 0 11 = 0 ∧ bits n 18 6 = 0 then some (.callr (src n 11)) else none
  | 11 => if bits n 0 11 = 0 ∧ bits n 18 6 = 0 then some (.ret (src n 11)) else none
  | 12 => if bits n 0 24 = 0 then some (.exit) else none
  | 13 => some (.loop (fld n 20 4) (fld n 0 20))
  | 14 => if bits n 4 20 = 0 then some (.brk (fld n 0 4)) else none
  | _ => none

/-- The words of opcodes 0x10 to 0x1F (02 R67, R68): `lo` is the opcode's low digit. -/
def decodeMasks (lo n : Nat) : Option Instr :=
  match lo with
  | 0 => if bits n 0 11 = 0 ∧ bits n 14 10 = 0 then some (.pushp (fld n 11 3)) else
    if bits n 0 11 = 1 ∧ bits n 14 10 = 0 then some (.pushpn (fld n 11 3)) else none
  | 1 => if bits n 0 11 = 0 ∧ bits n 14 10 = 0 then some (.pushm (fld n 11 3)) else none
  | 2 => if bits n 0 24 = 0 then some (.invp) else none
  | 3 => if bits n 0 24 = 0 then some (.popp) else none
  | 4 => if bits n 2 16 = 0 ∧ bits n 21 3 = 0 then some (.mset (fld n 18 3) (fld n 0 2)) else none
  | 5 => if bits n 7 4 = 0 ∧ bits n 14 4 = 0 ∧ bits n 21 3 = 0 then some (.mlog (fld n 18 3) (fld n 11 3) (fld n 4 3) (fld n 0 4)) else none
  | 6 => if bits n 0 11 = 0 ∧ bits n 14 4 = 0 then some (.mcnt (dst n) (fld n 11 3)) else none
  | 7 => if bits n 0 11 = 0 ∧ bits n 14 4 = 0 then some (.mfst (dst n) (fld n 11 3)) else none
  | 8 => if bits n 0 11 = 0 ∧ bits n 14 4 = 0 then some (.mtos (dst n) (fld n 11 3)) else none
  | 9 => if bits n 0 11 = 0 ∧ bits n 21 3 = 0 then some (.stom (fld n 18 3) (src n 11)) else none
  | 10 => if bits n 0 11 = 0 ∧ bits n 14 4 = 0 then some (.many (dst n) (fld n 11 3)) else none
  | 11 => if bits n 0 11 = 0 ∧ bits n 14 4 = 0 then some (.mall (dst n) (fld n 11 3)) else none
  | 12 => if bits n 0 11 = 0 ∧ bits n 18 6 = 0 then some (.mspill (src n 11)) else none
  | 13 => if bits n 4 7 = 0 ∧ bits n 18 6 = 0 then some (.mfill (src n 11) (fld n 0 4)) else none
  | _ => none

/-- The words of opcodes 0x20 to 0x2F (02 R67, R68): `lo` is the opcode's low digit. -/
def decodeIntegerA (lo n : Nat) : Option Instr :=
  match lo with
  | 0 => if bits n 0 4 = 0 then some (.add (dst n) (src n 11) (src n 4)) else none
  | 1 => if bits n 0 4 = 0 then some (.sub (dst n) (src n 11) (src n 4)) else none
  | 2 => if bits n 0 4 = 0 then some (.mul (dst n) (src n 11) (src n 4)) else none
  | 3 => if bits n 0 4 = 0 then some (.mulh (dst n) (src n 11) (src n 4)) else none
  | 4 => if bits n 0 4 = 0 then some (.min (dst n) (src n 11) (src n 4)) else none
  | 5 => if bits n 0 4 = 0 then some (.max (dst n) (src n 11) (src n 4)) else none
  | 6 => if bits n 0 11 = 0 then some (.abs (dst n) (src n 11)) else none
  | 7 => if bits n 0 11 = 0 then some (.neg (dst n) (src n 11)) else none
  | 8 => if bits n 0 4 = 0 then some (.and (dst n) (src n 11) (src n 4)) else none
  | 9 => if bits n 0 4 = 0 then some (.or (dst n) (src n 11) (src n 4)) else none
  | 10 => if bits n 0 4 = 0 then some (.xor (dst n) (src n 11) (src n 4)) else none
  | 11 => if bits n 0 4 = 0 then some (.andn (dst n) (src n 11) (src n 4)) else none
  | 12 => if bits n 0 4 = 0 then some (.shl (dst n) (src n 11) (src n 4)) else none
  | 13 => if bits n 0 4 = 0 then some (.shr (dst n) (src n 11) (src n 4)) else none
  | 14 => if bits n 0 4 = 0 then some (.sar (dst n) (src n 11) (src n 4)) else none
  | 15 => if bits n 0 4 = 0 then some (.rot (dst n) (src n 11) (src n 4)) else none
  | _ => none

/-- The words of opcodes 0x30 to 0x3F (02 R67, R68): `lo` is the opcode's low digit. -/
def decodeIntegerB (lo n : Nat) : Option Instr :=
  match lo with
  | 0 => some (.addi (dst n) (fld n 0 18))
  | 1 => some (.li (dst n) (fld n 0 18))
  | 2 => some (.lsi (dst n) (fld n 0 18))
  | 3 => some (.lea (dst n) (src n 11) (src n 4) (fld n 0 4))
  | 4 => if bits n 0 11 = 0 then some (.clz (dst n) (src n 11)) else none
  | 5 => if bits n 0 11 = 0 then some (.popc (dst n) (src n 11)) else none
  | 6 => if bits n 0 11 = 0 then some (.brev (dst n) (src n 11)) else none
  | 7 => if bits n 0 4 = 0 then some (.bfx (dst n) (src n 11) (src n 4)) else none
  | 8 => if bits n 0 4 = 0 then some (.bfi (dst n) (src n 11) (src n 4)) else none
  | 9 => if bits n 0 4 = 0 then some (.div (dst n) (src n 11) (src n 4)) else none
  | 10 => if bits n 0 4 = 0 then some (.rem (dst n) (src n 11) (src n 4)) else none
  | 11 => if bits n 0 4 = 0 then some (.mad (dst n) (src n 11) (src n 4)) else none
  | 12 => if bits n 0 4 = 0 then some (.sext (dst n) (src n 11) (src n 4)) else none
  | 13 => if bits n 0 4 = 0 then some (.zext (dst n) (src n 11) (src n 4)) else none
  | _ => none

/-- The words of opcodes 0x40 to 0x4F (02 R67, R68): `lo` is the opcode's low digit. -/
def decodeCompare (lo n : Nat) : Option Instr :=
  match lo with
  | 0 => some (.cmp (dst n) (src n 11) (src n 4) (fld n 0 4))
  | 1 => if bits n 21 3 = 0 then some (.cmpm (fld n 18 3) (src n 11) (src n 4) (fld n 0 4)) else none
  | 2 => if bits n 3 1 = 0 then some (.sel (dst n) (src n 11) (src n 4) (fld n 0 3)) else none
  | 3 => if bits n 0 4 = 0 then some (.clamp (dst n) (src n 11) (src n 4)) else none
  | _ => none

/-- The words of opcodes 0x50 to 0x5F (02 R67, R68): `lo` is the opcode's low digit. -/
def decodeFloat (lo n : Nat) : Option Instr :=
  match lo with
  | 0 => if bits n 0 4 = 0 then some (.fadd (dst n) (src n 11) (src n 4)) else none
  | 1 => if bits n 0 4 = 0 then some (.fsub (dst n) (src n 11) (src n 4)) else none
  | 2 => if bits n 0 4 = 0 then some (.fmul (dst n) (src n 11) (src n 4)) else none
  | 3 => if bits n 0 4 = 0 then some (.fma (dst n) (src n 11) (src n 4)) else none
  | 4 => if bits n 0 4 = 0 then some (.fnma (dst n) (src n 11) (src n 4)) else none
  | 5 => if bits n 0 4 = 0 then some (.fmin (dst n) (src n 11) (src n 4)) else none
  | 6 => if bits n 0 4 = 0 then some (.fmax (dst n) (src n 11) (src n 4)) else none
  | 7 => if bits n 0 11 = 0 then some (.fneg (dst n) (src n 11)) else
    if bits n 0 11 = 1 then some (.fabs (dst n) (src n 11)) else none
  | 8 => if bits n 0 4 = 0 then some (.fdiv (dst n) (src n 11) (src n 4)) else none
  | 9 => if bits n 0 11 = 0 then some (.fsqrt (dst n) (src n 11)) else none
  | 10 => if bits n 0 11 = 0 then some (.fexp2 (dst n) (src n 11)) else none
  | 11 => if bits n 0 11 = 0 then some (.flog2 (dst n) (src n 11)) else none
  | 12 => if bits n 0 11 = 0 then some (.frsq (dst n) (src n 11)) else none
  | 13 => if bits n 0 11 = 0 then some (.ftanh (dst n) (src n 11)) else none
  | 14 => if bits n 0 11 = 0 then some (.fsigm (dst n) (src n 11)) else none
  | 15 => if bits n 0 11 = 0 then some (.fclass (dst n) (src n 11)) else none
  | _ => none

/-- The words of opcodes 0x60 to 0x6F (02 R67, R68): `lo` is the opcode's low digit. -/
def decodeConversion (lo n : Nat) : Option Instr :=
  match lo with
  | 0 => some (.cvt (dst n) (src n 11) (src n 4) (fld n 0 4))
  | 1 => if bits n 2 2 = 0 then some (.qcb (dst n) (src n 11) (src n 4) (fld n 0 2)) else none
  | 2 => if bits n 2 2 = 0 then some (.dqcb (dst n) (src n 11) (src n 4) (fld n 0 2)) else none
  | 3 => some (.pack (dst n) (src n 11) (src n 4) (fld n 0 4))
  | 4 => if bits n 4 7 = 0 then some (.unpk (dst n) (src n 11) (fld n 0 4)) else none
  | 5 => if bits n 0 4 = 0 then some (.had (dst n) (src n 11) (src n 4)) else
    if bits n 0 4 = 1 then some (.hadinv (dst n) (src n 11) (src n 4)) else none
  | 6 => if bits n 0 4 = 0 then some (.rand (dst n) (src n 11) (src n 4)) else none
  | _ => none

/-- The words of opcodes 0x70 to 0x7F (02 R67, R68): `lo` is the opcode's low digit. -/
def decodeLanes (lo n : Nat) : Option Instr :=
  match lo with
  | 0 => some (.shfl (dst n) (src n 11) (src n 4) (fld n 0 4))
  | 1 => if bits n 4 7 = 0 then some (.bfly (dst n) (src n 11) (fld n 0 4)) else none
  | 2 => if bits n 0 4 = 0 then some (.bcast (dst n) (src n 11) (src n 4)) else none
  | 3 => if bits n 3 8 = 0 then some (.redw (dst n) (src n 11) (fld n 0 3)) else none
  | 4 => if bits n 4 7 = 0 then some (.scan (dst n) (src n 11) (fld n 0 4)) else none
  | 5 => if bits n 0 11 = 0 then some (.compact (dst n) (src n 11)) else none
  | 6 => if bits n 0 4 = 0 then some (.xtos (dst n) (src n 11) (src n 4)) else none
  | 7 => if bits n 0 4 = 0 then some (.stox (dst n) (src n 11) (src n 4)) else none
  | 8 => if bits n 0 11 = 0 then some (.mov (dst n) (src n 11)) else none
  | 9 => if bits n 0 4 = 0 then some (.movs (dst n) (src n 11) (src n 4)) else none
  | _ => none

/-- The words of opcodes 0x80 to 0x8F (02 R67, R68): `lo` is the opcode's low digit. -/
def decodeMatrix (lo n : Nat) : Option Instr :=
  match lo with
  | 0 => if bits n 3 1 = 0 ∧ bits n 23 1 = 0 then some (.mdot (fld n 18 5) (src n 11) (src n 4) (fld n 0 3)) else none
  | 1 => if bits n 18 6 = 31 then some (.mdotp (src n 11) (src n 4) (fld n 3 1) (fld n 0 3)) else none
  | 2 => if bits n 0 18 = 0 then some (.mbatch (dst n)) else none
  | 3 => if bits n 0 11 = 0 ∧ bits n 18 6 = 0 then some (.mwait (src n 11)) else none
  | 4 => if bits n 0 11 = 0 ∧ bits n 16 2 = 0 then some (.aget (dst n) (fld n 11 5)) else none
  | 5 => if bits n 0 11 = 0 ∧ bits n 23 1 = 0 then some (.aput (fld n 18 5) (src n 11)) else none
  | 6 => if bits n 4 14 = 0 ∧ bits n 23 1 = 0 then some (.azero (fld n 18 5) (fld n 0 4)) else none
  | 7 => if bits n 4 7 = 0 ∧ bits n 23 1 = 0 then some (.ascl (fld n 18 5) (src n 11) (fld n 0 4)) else none
  | 8 => if bits n 0 11 = 0 ∧ bits n 20 4 = 0 then some (.ldcb (fld n 18 2) (src n 11)) else none
  | _ => none

/-- The words of opcodes 0x90 to 0x9F (02 R67, R68): `lo` is the opcode's low digit. -/
def decodePorts (lo n : Nat) : Option Instr :=
  match lo with
  | 0 => if bits n 0 24 = 0 then some (.ppass) else none
  | 1 => if bits n 0 24 = 0 then some (.pdrop) else none
  | 2 => if bits n 0 18 = 0 then some (.pstat (dst n)) else none
  | 3 => if bits n 0 4 = 0 ∧ bits n 18 6 = 0 then some (.tailcfg (src n 11) (src n 4)) else none
  | _ => none

/-- The words of opcodes 0xA0 to 0xAF (02 R67, R68): `lo` is the opcode's low digit. -/
def decodeScratchpad (lo n : Nat) : Option Instr :=
  match lo with
  | 0 => some (.lds (dst n) (src n 11) (src n 4) (fld n 0 4))
  | 1 => if bits n 23 1 = 0 then some (.sts (fld n 18 5) (src n 11) (src n 4) (fld n 0 4)) else none
  | 2 => if bits n 0 4 = 0 then some (.ldsb (dst n) (src n 11) (src n 4)) else none
  | 3 => if bits n 0 4 = 0 ∧ bits n 23 1 = 0 then some (.stsb (fld n 18 5) (src n 11) (src n 4)) else none
  | 4 => if bits n 0 4 = 0 then some (.pres (dst n) (src n 11) (src n 4)) else none
  | 5 => if bits n 18 6 = 0 then some (.absent (src n 11) (src n 4) (fld n 0 4)) else none
  | 6 => some (.atoms (dst n) (src n 11) (src n 4) (fld n 0 4))
  | 7 => if bits n 0 4 = 0 then some (.cass (dst n) (src n 11) (src n 4)) else none
  | _ => none

/-- The words of opcodes 0xB0 to 0xBF (02 R67, R68): `lo` is the opcode's low digit. -/
def decodeGlobal (lo n : Nat) : Option Instr :=
  match lo with
  | 0 => some (.ldg (dst n) (src n 11) (src n 4) (fld n 0 4))
  | 1 => if bits n 2 2 = 0 ∧ bits n 23 1 = 0 then some (.stg (fld n 18 5) (src n 11) (src n 4) (fld n 0 2)) else none
  | 2 => if bits n 0 3 = 0 then some (.ldgb (dst n) (src n 11) (src n 4) (fld n 3 1)) else none
  | 3 => if bits n 0 4 = 0 ∧ bits n 23 1 = 0 then some (.stgb (fld n 18 5) (src n 11) (src n 4)) else none
  | 4 => some (.atomg (dst n) (src n 11) (src n 4) (fld n 0 4))
  | 5 => if bits n 18 6 = 0 then some (.redg (src n 11) (src n 4) (fld n 0 4)) else none
  | 6 => if bits n 0 4 = 0 then some (.casg (dst n) (src n 11) (src n 4)) else none
  | 7 => if bits n 0 4 = 0 ∧ bits n 18 6 = 0 then some (.prefg (src n 11) (src n 4)) else none
  | 8 => if bits n 0 4 = 0 ∧ bits n 9 2 = 0 ∧ bits n 16 2 = 0 ∧ bits n 23 1 = 0 then some (.isect (fld n 18 5) (fld n 11 5) (fld n 4 5)) else none
  | _ => none

/-- The words of opcodes 0xC0 to 0xCF (02 R67, R68): `lo` is the opcode's low digit. -/
def decodeFences (lo n : Nat) : Option Instr :=
  match lo with
  | 0 => if bits n 3 21 = 0 then some (.frel (fld n 0 3)) else none
  | 1 => if bits n 3 21 = 0 then some (.facq (fld n 0 3)) else none
  | 2 => if bits n 3 21 = 0 then some (.ffull (fld n 0 3)) else none
  | 3 => if bits n 0 24 = 0 then some (.ifence) else none
  | 4 => if bits n 0 4 = 0 ∧ bits n 18 6 = 0 then some (.bari (src n 11) (src n 4)) else none
  | 5 => if bits n 18 6 = 0 then some (.barv (src n 11) (src n 4) (fld n 0 4)) else none
  | 6 => if bits n 0 4 = 0 ∧ bits n 18 6 = 0 then some (.barw (src n 11) (src n 4)) else none
  | 7 => if bits n 0 4 = 0 ∧ bits n 18 6 = 0 then some (.barx (src n 11) (src n 4)) else none
  | 8 => if bits n 4 7 = 0 then some (.bars (dst n) (src n 11) (fld n 0 4)) else none
  | 9 => if bits n 0 18 = 0 then some (.time (dst n)) else none
  | 10 => if bits n 0 18 = 0 then some (.clkc (dst n)) else none
  | _ => none

/-- The words of opcodes 0xD0 to 0xDF (02 R67, R68): `lo` is the opcode's low digit. -/
def decodeTasks (lo n : Nat) : Option Instr :=
  match lo with
  | 0 => if bits n 18 6 = 0 then some (.qput (src n 11) (src n 4) (fld n 0 4)) else none
  | 1 => if bits n 0 11 = 0 ∧ bits n 18 6 = 0 then some (.tdec (src n 11)) else none
  | 2 => if bits n 0 4 = 0 ∧ bits n 18 6 = 0 then some (.tarm (src n 11) (src n 4)) else none
  | 3 => if bits n 0 11 = 0 then some (.take (dst n) (src n 11)) else none
  | 4 => if bits n 0 4 = 0 ∧ bits n 18 6 = 0 then some (.spawn (src n 11) (src n 4)) else none
  | 5 => if bits n 0 24 = 0 then some (.yield) else none
  | 6 => if bits n 0 11 = 0 ∧ bits n 18 6 = 0 then some (.sleept (src n 11)) else none
  | _ => none

/-- The words of opcodes 0xE0 to 0xEF (02 R67, R68): `lo` is the opcode's low digit. -/
def decodeSystem (lo n : Nat) : Option Instr :=
  match lo with
  | 0 => if bits n 16 8 = 0 then some (.setmode (fld n 0 16)) else none
  | 1 => if bits n 0 18 = 0 then some (.getmode (dst n)) else none
  | 2 => if bits n 0 11 = 0 then some (.csrr (dst n) (fld n 11 7)) else none
  | 3 => if bits n 0 4 = 0 ∧ bits n 18 6 = 0 then some (.csrw (fld n 11 7) (src n 4)) else none
  | 4 => if bits n 4 7 = 0 ∧ bits n 18 6 = 0 then some (.trap (src n 11) (fld n 0 4)) else none
  | 5 => if bits n 0 24 = 0 then some (.rett) else none
  | 6 => if bits n 0 11 = 0 ∧ bits n 18 6 = 0 then some (.ctxsv (src n 11)) else none
  | 7 => if bits n 0 11 = 0 ∧ bits n 18 6 = 0 then some (.ctxld (src n 11)) else none
  | _ => none

/-- The words of opcodes 0xF0 to 0xFF (02 R67, R68): `lo` is the opcode's low digit. -/
def decodePrefixes (lo n : Nat) : Option Instr :=
  match lo with
  | 0 => if bits n 0 3 = 0 then some (.mod (fld n 23 1) (fld n 16 7) (fld n 15 1) (fld n 11 4) (fld n 8 3) (fld n 6 2) (fld n 3 3)) else none
  | 8 => some (.ximm (fld n 0 24))
  | _ => none

/-- The instruction a word encodes (02 R51, R67, R68); none where no assigned encoding matches. -/
def decodeWord (w : Half) : Option Instr :=
  let n := w.toNat
  let lo := bits n 24 4
  match bits n 28 4 with
  | 0 => decodeControl lo n
  | 1 => decodeMasks lo n
  | 2 => decodeIntegerA lo n
  | 3 => decodeIntegerB lo n
  | 4 => decodeCompare lo n
  | 5 => decodeFloat lo n
  | 6 => decodeConversion lo n
  | 7 => decodeLanes lo n
  | 8 => decodeMatrix lo n
  | 9 => decodePorts lo n
  | 10 => decodeScratchpad lo n
  | 11 => decodeGlobal lo n
  | 12 => decodeFences lo n
  | 13 => decodeTasks lo n
  | 14 => decodeSystem lo n
  | 15 => decodePrefixes lo n
  | _ => none

/-- Decoding from bytes: the first four, little-endian (00 R6, 02 R43), and the bytes that follow them. -/
def decode : List Byte → Option (Instr × List Byte)
  | b0 :: b1 :: b2 :: b3 :: rest =>
    (decodeWord (b3 ++ b2 ++ b1 ++ b0)).map (fun i => (i, rest))
  | _ => none

/-- The four bytes of a word as memory holds them (00 R6). -/
def wordBytes (w : Half) : List Byte :=
  [w.extractLsb' 0 8, w.extractLsb' 8 8, w.extractLsb' 16 8, w.extractLsb' 24 8]

/-- The instruction the decoder reads from a table row's bits; a row is one 32-bit word. -/
def decodeTableWord (nbits w : Nat) : Option Instr :=
  if nbits ≤ 32 then (decode (wordBytes (BitVec.ofNat 32 w))).map (fun p => p.1) else none

/-- The word of an instruction, as a number; none for the module's own steps, which have no word. -/
def encodeNat : Instr → Option Nat
  | .nop => some (0x00000000)
  | .mod q s e t r z k => some (0xF0000000 + q.toNat * 8388608 + s.toNat * 65536 + e.toNat * 32768 + t.toNat * 2048 + r.toNat * 256 + z.toNat * 64 + k.toNat * 8)
  | .ximm i => some (0xF8000000 + i.toNat)
  | .bra o => some (0x01000000 + o.toNat)
  | .bz c o => some (0x02000000 + c.toNat * 1048576 + o.toNat)
  | .bnz c o => some (0x03000000 + c.toNat * 1048576 + o.toNat)
  | .brd m o => some (0x04000000 + m.toNat * 1048576 + o.toNat)
  | .brdn m o => some (0x04800000 + m.toNat * 1048576 + o.toNat)
  | .jset o => some (0x05000000 + o.toNat)
  | .join => some (0x06000000)
  | .jmp a => some (0x07000000 + a.code * 2048)
  | .jmpv a => some (0x08000000 + a.code * 2048)
  | .call o => some (0x09000000 + o.toNat)
  | .callr a => some (0x0A000000 + a.code * 2048)
  | .ret a => some (0x0B000000 + a.code * 2048)
  | .exit => some (0x0C000000)
  | .loop c o => some (0x0D000000 + c.toNat * 1048576 + o.toNat)
  | .brk k => some (0x0E000000 + k.toNat)
  | .pushp a => some (0x10000000 + a.toNat * 2048)
  | .pushpn a => some (0x10000001 + a.toNat * 2048)
  | .pushm a => some (0x11000000 + a.toNat * 2048)
  | .invp => some (0x12000000)
  | .popp => some (0x13000000)
  | .mset d k => some (0x14000000 + d.toNat * 262144 + k.toNat)
  | .mlog d a b f => some (0x15000000 + d.toNat * 262144 + a.toNat * 2048 + b.toNat * 16 + f.toNat)
  | .mcnt d a => some (0x16000000 + d.code * 262144 + a.toNat * 2048)
  | .mfst d a => some (0x17000000 + d.code * 262144 + a.toNat * 2048)
  | .mtos d a => some (0x18000000 + d.code * 262144 + a.toNat * 2048)
  | .stom d a => some (0x19000000 + d.toNat * 262144 + a.code * 2048)
  | .many d a => some (0x1A000000 + d.code * 262144 + a.toNat * 2048)
  | .mall d a => some (0x1B000000 + d.code * 262144 + a.toNat * 2048)
  | .mspill a => some (0x1C000000 + a.code * 2048)
  | .mfill a n => some (0x1D000000 + a.code * 2048 + n.toNat)
  | .add d a b => some (0x20000000 + d.code * 262144 + a.code * 2048 + b.code * 16)
  | .sub d a b => some (0x21000000 + d.code * 262144 + a.code * 2048 + b.code * 16)
  | .mul d a b => some (0x22000000 + d.code * 262144 + a.code * 2048 + b.code * 16)
  | .mulh d a b => some (0x23000000 + d.code * 262144 + a.code * 2048 + b.code * 16)
  | .min d a b => some (0x24000000 + d.code * 262144 + a.code * 2048 + b.code * 16)
  | .max d a b => some (0x25000000 + d.code * 262144 + a.code * 2048 + b.code * 16)
  | .abs d a => some (0x26000000 + d.code * 262144 + a.code * 2048)
  | .neg d a => some (0x27000000 + d.code * 262144 + a.code * 2048)
  | .and d a b => some (0x28000000 + d.code * 262144 + a.code * 2048 + b.code * 16)
  | .or d a b => some (0x29000000 + d.code * 262144 + a.code * 2048 + b.code * 16)
  | .xor d a b => some (0x2A000000 + d.code * 262144 + a.code * 2048 + b.code * 16)
  | .andn d a b => some (0x2B000000 + d.code * 262144 + a.code * 2048 + b.code * 16)
  | .shl d a b => some (0x2C000000 + d.code * 262144 + a.code * 2048 + b.code * 16)
  | .shr d a b => some (0x2D000000 + d.code * 262144 + a.code * 2048 + b.code * 16)
  | .sar d a b => some (0x2E000000 + d.code * 262144 + a.code * 2048 + b.code * 16)
  | .rot d a b => some (0x2F000000 + d.code * 262144 + a.code * 2048 + b.code * 16)
  | .addi d i => some (0x30000000 + d.code * 262144 + i.toNat)
  | .li d i => some (0x31000000 + d.code * 262144 + i.toNat)
  | .lsi d i => some (0x32000000 + d.code * 262144 + i.toNat)
  | .lea d a b k => some (0x33000000 + d.code * 262144 + a.code * 2048 + b.code * 16 + k.toNat)
  | .clz d a => some (0x34000000 + d.code * 262144 + a.code * 2048)
  | .popc d a => some (0x35000000 + d.code * 262144 + a.code * 2048)
  | .brev d a => some (0x36000000 + d.code * 262144 + a.code * 2048)
  | .bfx d a b => some (0x37000000 + d.code * 262144 + a.code * 2048 + b.code * 16)
  | .bfi d a b => some (0x38000000 + d.code * 262144 + a.code * 2048 + b.code * 16)
  | .div d a b => some (0x39000000 + d.code * 262144 + a.code * 2048 + b.code * 16)
  | .rem d a b => some (0x3A000000 + d.code * 262144 + a.code * 2048 + b.code * 16)
  | .mad d a b => some (0x3B000000 + d.code * 262144 + a.code * 2048 + b.code * 16)
  | .sext d a b => some (0x3C000000 + d.code * 262144 + a.code * 2048 + b.code * 16)
  | .zext d a b => some (0x3D000000 + d.code * 262144 + a.code * 2048 + b.code * 16)
  | .cmp d a b f => some (0x40000000 + d.code * 262144 + a.code * 2048 + b.code * 16 + f.toNat)
  | .cmpm d a b f => some (0x41000000 + d.toNat * 262144 + a.code * 2048 + b.code * 16 + f.toNat)
  | .sel d a b m => some (0x42000000 + d.code * 262144 + a.code * 2048 + b.code * 16 + m.toNat)
  | .clamp d a b => some (0x43000000 + d.code * 262144 + a.code * 2048 + b.code * 16)
  | .fadd d a b => some (0x50000000 + d.code * 262144 + a.code * 2048 + b.code * 16)
  | .fsub d a b => some (0x51000000 + d.code * 262144 + a.code * 2048 + b.code * 16)
  | .fmul d a b => some (0x52000000 + d.code * 262144 + a.code * 2048 + b.code * 16)
  | .fma d a b => some (0x53000000 + d.code * 262144 + a.code * 2048 + b.code * 16)
  | .fnma d a b => some (0x54000000 + d.code * 262144 + a.code * 2048 + b.code * 16)
  | .fmin d a b => some (0x55000000 + d.code * 262144 + a.code * 2048 + b.code * 16)
  | .fmax d a b => some (0x56000000 + d.code * 262144 + a.code * 2048 + b.code * 16)
  | .fneg d a => some (0x57000000 + d.code * 262144 + a.code * 2048)
  | .fabs d a => some (0x57000001 + d.code * 262144 + a.code * 2048)
  | .fdiv d a b => some (0x58000000 + d.code * 262144 + a.code * 2048 + b.code * 16)
  | .fsqrt d a => some (0x59000000 + d.code * 262144 + a.code * 2048)
  | .fexp2 d a => some (0x5A000000 + d.code * 262144 + a.code * 2048)
  | .flog2 d a => some (0x5B000000 + d.code * 262144 + a.code * 2048)
  | .frsq d a => some (0x5C000000 + d.code * 262144 + a.code * 2048)
  | .ftanh d a => some (0x5D000000 + d.code * 262144 + a.code * 2048)
  | .fsigm d a => some (0x5E000000 + d.code * 262144 + a.code * 2048)
  | .fclass d a => some (0x5F000000 + d.code * 262144 + a.code * 2048)
  | .cvt d a b s => some (0x60000000 + d.code * 262144 + a.code * 2048 + b.code * 16 + s.toNat)
  | .qcb d a b n => some (0x61000000 + d.code * 262144 + a.code * 2048 + b.code * 16 + n.toNat)
  | .dqcb d a b n => some (0x62000000 + d.code * 262144 + a.code * 2048 + b.code * 16 + n.toNat)
  | .pack d a b s => some (0x63000000 + d.code * 262144 + a.code * 2048 + b.code * 16 + s.toNat)
  | .unpk d a s => some (0x64000000 + d.code * 262144 + a.code * 2048 + s.toNat)
  | .had d a b => some (0x65000000 + d.code * 262144 + a.code * 2048 + b.code * 16)
  | .hadinv d a b => some (0x65000001 + d.code * 262144 + a.code * 2048 + b.code * 16)
  | .rand d a b => some (0x66000000 + d.code * 262144 + a.code * 2048 + b.code * 16)
  | .shfl d a b f => some (0x70000000 + d.code * 262144 + a.code * 2048 + b.code * 16 + f.toNat)
  | .bfly d a f => some (0x71000000 + d.code * 262144 + a.code * 2048 + f.toNat)
  | .bcast d a b => some (0x72000000 + d.code * 262144 + a.code * 2048 + b.code * 16)
  | .redw d a f => some (0x73000000 + d.code * 262144 + a.code * 2048 + f.toNat)
  | .scan d a f => some (0x74000000 + d.code * 262144 + a.code * 2048 + f.toNat)
  | .compact d a => some (0x75000000 + d.code * 262144 + a.code * 2048)
  | .xtos d a b => some (0x76000000 + d.code * 262144 + a.code * 2048 + b.code * 16)
  | .stox d a b => some (0x77000000 + d.code * 262144 + a.code * 2048 + b.code * 16)
  | .mov d a => some (0x78000000 + d.code * 262144 + a.code * 2048)
  | .movs d a b => some (0x79000000 + d.code * 262144 + a.code * 2048 + b.code * 16)
  | .mdot d a b k => some (0x80000000 + d.toNat * 262144 + a.code * 2048 + b.code * 16 + k.toNat)
  | .mdotp a b z k => some (0x817C0000 + a.code * 2048 + b.code * 16 + z.toNat * 8 + k.toNat)
  | .mbatch d => some (0x82000000 + d.code * 262144)
  | .mwait a => some (0x83000000 + a.code * 2048)
  | .aget d a => some (0x84000000 + d.code * 262144 + a.toNat * 2048)
  | .aput d a => some (0x85000000 + d.toNat * 262144 + a.code * 2048)
  | .azero d k => some (0x86000000 + d.toNat * 262144 + k.toNat)
  | .ascl d a k => some (0x87000000 + d.toNat * 262144 + a.code * 2048 + k.toNat)
  | .ldcb n a => some (0x88000000 + n.toNat * 262144 + a.code * 2048)
  | .ppass => some (0x90000000)
  | .pdrop => some (0x91000000)
  | .pstat d => some (0x92000000 + d.code * 262144)
  | .tailcfg a b => some (0x93000000 + a.code * 2048 + b.code * 16)
  | .lds d a b f => some (0xA0000000 + d.code * 262144 + a.code * 2048 + b.code * 16 + f.toNat)
  | .sts d a b f => some (0xA1000000 + d.toNat * 262144 + a.code * 2048 + b.code * 16 + f.toNat)
  | .ldsb d a b => some (0xA2000000 + d.code * 262144 + a.code * 2048 + b.code * 16)
  | .stsb d a b => some (0xA3000000 + d.toNat * 262144 + a.code * 2048 + b.code * 16)
  | .pres d a b => some (0xA4000000 + d.code * 262144 + a.code * 2048 + b.code * 16)
  | .absent a b n => some (0xA5000000 + a.code * 2048 + b.code * 16 + n.toNat)
  | .atoms d a b f => some (0xA6000000 + d.code * 262144 + a.code * 2048 + b.code * 16 + f.toNat)
  | .cass d a b => some (0xA7000000 + d.code * 262144 + a.code * 2048 + b.code * 16)
  | .ldg d a b f => some (0xB0000000 + d.code * 262144 + a.code * 2048 + b.code * 16 + f.toNat)
  | .stg d a b f => some (0xB1000000 + d.toNat * 262144 + a.code * 2048 + b.code * 16 + f.toNat)
  | .ldgb d a b f => some (0xB2000000 + d.code * 262144 + a.code * 2048 + b.code * 16 + f.toNat * 8)
  | .stgb d a b => some (0xB3000000 + d.toNat * 262144 + a.code * 2048 + b.code * 16)
  | .atomg d a b f => some (0xB4000000 + d.code * 262144 + a.code * 2048 + b.code * 16 + f.toNat)
  | .redg a b f => some (0xB5000000 + a.code * 2048 + b.code * 16 + f.toNat)
  | .casg d a b => some (0xB6000000 + d.code * 262144 + a.code * 2048 + b.code * 16)
  | .prefg a b => some (0xB7000000 + a.code * 2048 + b.code * 16)
  | .isect d a b => some (0xB8000000 + d.toNat * 262144 + a.toNat * 2048 + b.toNat * 16)
  | .frel s => some (0xC0000000 + s.toNat)
  | .facq s => some (0xC1000000 + s.toNat)
  | .ffull s => some (0xC2000000 + s.toNat)
  | .ifence => some (0xC3000000)
  | .bari a b => some (0xC4000000 + a.code * 2048 + b.code * 16)
  | .barv a b s => some (0xC5000000 + a.code * 2048 + b.code * 16 + s.toNat)
  | .barw a b => some (0xC6000000 + a.code * 2048 + b.code * 16)
  | .barx a b => some (0xC7000000 + a.code * 2048 + b.code * 16)
  | .bars d a k => some (0xC8000000 + d.code * 262144 + a.code * 2048 + k.toNat)
  | .time d => some (0xC9000000 + d.code * 262144)
  | .clkc d => some (0xCA000000 + d.code * 262144)
  | .qput a b f => some (0xD0000000 + a.code * 2048 + b.code * 16 + f.toNat)
  | .tdec a => some (0xD1000000 + a.code * 2048)
  | .tarm a b => some (0xD2000000 + a.code * 2048 + b.code * 16)
  | .take d a => some (0xD3000000 + d.code * 262144 + a.code * 2048)
  | .spawn a b => some (0xD4000000 + a.code * 2048 + b.code * 16)
  | .yield => some (0xD5000000)
  | .sleept a => some (0xD6000000 + a.code * 2048)
  | .setmode m => some (0xE0000000 + m.toNat)
  | .getmode d => some (0xE1000000 + d.code * 262144)
  | .csrr d c => some (0xE2000000 + d.code * 262144 + c.toNat * 2048)
  | .csrw c b => some (0xE3000000 + c.toNat * 2048 + b.code * 16)
  | .trap a k => some (0xE4000000 + a.code * 2048 + k.toNat)
  | .rett => some (0xE5000000)
  | .ctxsv a => some (0xE6000000 + a.code * 2048)
  | .ctxld a => some (0xE7000000 + a.code * 2048)
  | .forcedIssue _ => none
  | .seatWake _ => none
  | .sleeptWake _ => none
  | .matrixStep _ => none
  | .portCrossingMove _ => none
  | .tailSinkStore _ => none
  | .faddxContribution _ => none
  | .faddxWaitReport _ => none
  | .extQueueSubmit _ _ _ _ => none
  | .queueRegister _ _ => none
  | .queueHaltClear _ _ => none
  | .copy _ _ => none
  | .feed _ _ => none
  | .fill _ _ => none
  | .gather _ _ => none
  | .feedEntryPush _ => none
  | .release _ => none
  | .landed _ => none
  | .copyFaultResume _ => none
  | .axpy _ _ => none
  | .scale _ _ => none
  | .momentum _ _ => none
  | .adamw _ _ => none
  | .girthZero _ _ => none
  | .xclose _ _ => none
  | .launchAccept _ => none
  | .launchPlace _ => none
  | .bridleFaultResume _ => none
  | .spawnBinTimer _ _ => none
  | .pendingRowPlace _ _ => none
  | .seatRelease _ => none
  | .resume _ => none
  | .abort _ => none
  | .kill _ => none
  | .skip _ => none
  | .preempt _ => none
  | .preemptSeatStop _ => none
  | .preemptDeadline _ => none
  | .preemptDrainEnd _ => none
  | .restore _ => none
  | .diereset _ => none
  | .dieFault _ => none
  | .dieResetForce _ => none
  | .tuSet _ _ _ => none
  | .tuClear _ _ _ => none
  | .tuSetrange _ _ _ => none
  | .tuComplete _ => none
  | .apply _ => none
  | .applyDone _ => none
  | .retireGo _ => none
  | .retireSwitch _ => none
  | .peerRetryResend => none
  | .sramUe _ => none
  | .uvTrial _ => none
  | .uvAbort _ => none
  | .uvBlacklistExpire _ _ => none
  | .partitionEnable _ _ => none
  | .partitionDisable _ => none
  | .pwrshareWrite _ _ => none
  | .counterFrozenClear _ _ => none
  | .registerWrite _ _ _ => none
  | .controlNodeAccess _ _ _ _ => none
  | .peerAccessInbound _ _ _ _ _ _ => none
  | .controlInterval => none
  | .droopTrip _ => none
  | .droopWindowEnd _ => none
  | .coolantFault => none
  | .coolantFaultClear => none
  | .thermalTrip _ => none
  | .powerGood => none
  | .firmwareReload _ => none
  | .open _ _ _ _ => none
  | .close => none
  | .lossOfLight => none
  | .quote _ => none
  | .identityQuery => none
  | .flitCrcError _ => none
  | .linkTrained _ _ => none
  | .unassignedOpcode _ => none
  | .trialPassed _ => none
  | .dieRejoin _ => none
  | .powerOff => none
  | .newValuesApply _ => none

/-- The word of an instruction (02 R51). -/
def encode (i : Instr) : Option Half := (encodeNat i).map (BitVec.ofNat 32)

end Sys2Proof
end

