-- ==== Sys2Proof/Machine/OpMap.lean ====
section
/-! DEFINITION. The opcode map (02 R67, R68) and the charge weights (11 R283), by opcode byte. -/
namespace Sys2Proof.Machine

/-- The pipe classes (01 R19). -/
inductive Pipe where
  | v | s | m
  deriving DecidableEq, Repr

/-- What the opcode map says of an opcode: the lane form's pipe, whether a uniform slot may hold it, whether it is
value-producing or park class, the MOD groups and XIMM it accepts, and its charge weight. -/
structure OpInfo where
  pipe : Pipe
  uni : Bool := false
  value : Bool := false
  park : Bool := false
  accM : Bool := false
  accR : Bool := false
  accZ : Bool := false
  accE : Bool := false
  accQ : Bool := false
  accX : Bool := false
  weight : Nat := 0
  deriving DecidableEq, Repr

/-- The map's row for an opcode; none where the opcode is not assigned (02 R68). -/
def opInfo (op : Nat) : Option OpInfo :=
  if op = 0x00 then some { pipe := .s }
  else if op ≤ 0x0E then some { pipe := .s, park := op == 0x06 }
  else if op = 0x0F then none
  else if op ≤ 0x15 then some { pipe := .s }
  else if op ≤ 0x18 then some { pipe := .s, value := true }
  else if op = 0x19 then some { pipe := .s }
  else if op ≤ 0x1B then some { pipe := .s, value := true }
  else if op ≤ 0x1D then some { pipe := .s }
  else if op ≤ 0x1F then none
  else if op ≤ 0x2F then
    some { pipe := .v, uni := true, value := true, accM := true, accZ := true, accE := true, accX := true, weight := 1 }
  else if op ≤ 0x33 then
    some { pipe := .v, uni := true, value := true, accM := true, accZ := true, accX := true, weight := 1 }
  else if op ≤ 0x3D then
    some { pipe := .v, uni := true, value := true, accM := true, accZ := true, accE := true, accX := true, weight := 1 }
  else if op ≤ 0x3F then none
  else if op = 0x40 then
    some { pipe := .v, uni := true, value := true, accM := true, accZ := true, accE := true, accX := true, weight := 1 }
  else if op = 0x41 then some { pipe := .v, accM := true, accE := true, accX := true, weight := 1 }
  else if op = 0x42 then
    some { pipe := .v, value := true, accM := true, accZ := true, accE := true, accX := true, weight := 1 }
  else if op = 0x43 then
    some { pipe := .v, uni := true, value := true, accM := true, accZ := true, accE := true, accQ := true, accX := true,
           weight := 1 }
  else if op ≤ 0x4F then none
  else if op ≤ 0x54 then
    some { pipe := .v, uni := true, value := true, accM := true, accR := true, accZ := true, accE := true, accX := true,
           weight := 2 }
  else if op ≤ 0x57 then
    some { pipe := .v, uni := true, value := true, accM := true, accZ := true, accE := true, accX := true, weight := 2 }
  else if op ≤ 0x59 then
    some { pipe := .v, uni := true, value := true, accM := true, accR := true, accZ := true, accE := true, accX := true,
           weight := 2 }
  else if op ≤ 0x5F then
    some { pipe := .v, uni := true, value := true, accM := true, accZ := true, accE := true, accX := true, weight := 2 }
  else if op = 0x60 then
    some { pipe := .v, uni := true, value := true, accM := true, accR := true, accZ := true, accE := true, accX := true,
           weight := 2 }
  else if op ≤ 0x62 then some { pipe := .v, value := true, accM := true, accZ := true, accX := true, weight := 1 }
  else if op ≤ 0x64 then
    some { pipe := .v, value := true, accM := true, accR := true, accZ := true, accE := true, accX := true, weight := 2 }
  else if op = 0x65 then
    some { pipe := .v, value := true, accM := true, accR := true, accZ := true, accE := true, weight := 2 }
  else if op = 0x66 then
    some { pipe := .v, uni := true, value := true, accM := true, accZ := true, accE := true, accX := true, weight := 1 }
  else if op ≤ 0x6F then none
  else if op ≤ 0x74 then
    some { pipe := .v, value := true, accM := true, accR := true, accZ := true, accE := true, accQ := true,
           accX := true, weight := 1 }
  else if op ≤ 0x79 then
    some { pipe := .v, value := true, accM := true, accZ := true, accE := true, accX := true, weight := 1 }
  else if op ≤ 0x7F then none
  else if op ≤ 0x81 then some { pipe := .m, accM := true, accE := true, weight := 3 }
  else if op = 0x82 then some { pipe := .m, value := true }
  else if op = 0x83 then some { pipe := .m, park := true }
  else if op = 0x84 then some { pipe := .m, value := true, accM := true, accZ := true, weight := 1 }
  else if op ≤ 0x86 then some { pipe := .m, accM := true, weight := 1 }
  else if op = 0x87 then some { pipe := .m, accM := true, weight := 2 }
  else if op = 0x88 then some { pipe := .m }
  else if op ≤ 0x8F then none
  else if op ≤ 0x91 then some { pipe := .v, accM := true, weight := 1 }
  else if op = 0x92 then some { pipe := .v, value := true }
  else if op = 0x93 then some { pipe := .s }
  else if op ≤ 0x9F then none
  else if op = 0xA0 then
    some { pipe := .s, uni := true, park := true, accM := true, accZ := true, accE := true, accX := true, weight := 1 }
  else if op = 0xA1 then
    some { pipe := .s, uni := true, accM := true, accE := true, accX := true, weight := 1 }
  else if op = 0xA2 then some { pipe := .s, park := true, accM := true, accX := true, weight := 1 }
  else if op = 0xA3 then some { pipe := .s, accM := true, accX := true, weight := 1 }
  else if op = 0xA4 then some { pipe := .s, uni := true, value := true, accM := true, accX := true }
  else if op = 0xA5 then some { pipe := .s, uni := true, accX := true }
  else if op ≤ 0xA7 then
    some { pipe := .s, uni := true, park := true, accM := true, accE := true, accX := true, weight := 1 }
  else if op ≤ 0xAF then none
  else if op = 0xB0 then
    some { pipe := .s, uni := true, park := true, accM := true, accZ := true, accE := true, accX := true, weight := 1 }
  else if op = 0xB1 then
    some { pipe := .s, uni := true, accM := true, accE := true, accX := true, weight := 1 }
  else if op = 0xB2 then some { pipe := .s, park := true, accM := true, accX := true, weight := 1 }
  else if op = 0xB3 then some { pipe := .s, accM := true, accX := true, weight := 1 }
  else if op ≤ 0xB6 then
    some { pipe := .s, uni := true, park := true, accM := true, accE := true, accX := true, weight := 1 }
  else if op = 0xB7 then some { pipe := .s, uni := true, accM := true, accX := true }
  else if op = 0xB8 then some { pipe := .s, park := true, accM := true, weight := 1 }
  else if op ≤ 0xBF then none
  else if op ≤ 0xC4 then some { pipe := .s }
  else if op ≤ 0xC7 then some { pipe := .s, park := op == 0xC6, accX := true }
  else if op ≤ 0xCA then some { pipe := .s, value := true }
  else if op ≤ 0xCF then none
  else if op ≤ 0xD6 then
    some { pipe := .s, park := op == 0xD0 || op == 0xD3 || op == 0xD5 || op == 0xD6, accM := op == 0xD4 }
  else if op ≤ 0xDF then none
  else if op ≤ 0xE7 then some { pipe := .s, value := op == 0xE1 || op == 0xE2 }
  else if op = 0xF0 || op = 0xF8 then some { pipe := .s }
  else none

end Sys2Proof.Machine
end

