-- ==== Sys2Proof/Machine/State.lean ====
section
/-! DEFINITION. The machine's state as plain data: everything the spec gives the module, the seats, the cores, the
memories, the partitions and their engines, and the machine right after power-good. -/
namespace Sys2Proof.Machine

/-- Why a step stops the machine. -/
inductive Fault where
  /-- Raised by `step` and by every word when the agenda names a seat that holds no row (log 2). Safe: the spec gives
  no such act, and no claim about a run of the module is lost. -/
  | noSeat (sid : Nat)
  deriving DecidableEq, Repr

/-- Why an instruction is refused. -/
inductive Refusal where
  /-- The instruction has no meaning yet. Safe. -/
  | notModelled (mnemonic : String)
  deriving DecidableEq, Repr

/-- A bypass latch (02 R58): invalid, a lane entry, or a scalar entry. -/
inductive Latch where
  | invalid
  | lane (v : Lanes Word)
  | scalar (v : Word)
  deriving DecidableEq, Repr

/-- The kinds of mask-stack entry (12 R296). -/
inductive MaskKind where
  | base | join | div | pred
  deriving DecidableEq, Repr

/-- A mask-stack entry (12 R296). -/
structure MaskEntry where
  kind : MaskKind
  mask : Word
  alt : Word := 0
  tgt : Word := 0
  deriving DecidableEq, Repr

/-- What a parked seat waits for (11 R281). -/
inductive Park where
  /-- Absent scratchpad lines, by line number over all slices (07 R186). -/
  | lines (ls : List Nat)
  /-- A barrier's generation to differ from the one named (09 R251): the object's key, and the generation. -/
  | barrier (addr : Nat) (gen : Word)
  /-- A batch to retire (06 R160). -/
  | batch (n : Nat)
  /-- Ring space for a QPUT: the queue header's address (09 R255). -/
  | ring (hdr : Word)
  /-- One selecting clock of the issue partition (12 R318): the core's clock count at the park. -/
  | yield (clk : Nat)
  /-- TIME to reach a value (12 R319). -/
  | sleep (t : Word)
  /-- The bundle that a JOIN has led to to be fetched (12 R301). -/
  | fetch
  deriving DecidableEq, Repr

/-- How a seat stands (11 R281, 13 R331, 14 R356). -/
inductive Status where
  /-- No row is resident. -/
  | blank
  | ready
  | parked (p : Park)
  /-- Frozen by a violation or a nested trap. -/
  | frozen
  /-- Every lane has exited; the seat waits for its release (10 R279). -/
  | exited
  /-- Stopped at a switch-out point for a pre-emption (14 R356), with what it was parked on. -/
  | stopped (p : Option Park)
  deriving DecidableEq, Repr

/-- What binds a row to its work (10 R270, R273, R276). -/
structure Binding where
  part : Nat := 0
  lid : Word := 0
  string : Nat := 0
  srow : Nat := 0
  slen : Nat := 1
  role : Nat := 0
  spawned : Bool := false
  ports : Bool := false
  deriving DecidableEq, Repr

/-- The tail sink of a row (06 R172, R173): the operands of its last TAILCFG, the entry index, and the enable. -/
structure TailSink where
  a : Word := 0
  b : Word := 0
  i : BitVec 32 := 0
  on : Bool := false
  deriving DecidableEq, Repr

/-- A seat: one resident row thread (01 R22). -/
structure Seat where
  status : Status
  bind : Binding
  /-- The first bundle's address, and the slot that runs next (02 R43, R45). -/
  pc : Word
  slot : Nat
  /-- The bundle in hand: its control word and three slots; none before it is fetched. -/
  bundle : Option (Vector Half 4)
  /-- The prefixes that wait for their target, and the slot of the first (02 R65, R66). -/
  pmod : Option (BitVec 24)
  pximm : Option (BitVec 24)
  pslot : Nat
  /-- BRKB is suppressed once; the bundle in hand has passed its BRKB check (02 R47). -/
  brkbSkip : Bool
  brkbPassed : Bool
  x : Vector (Lanes Word) 31
  s : Vector Word 31
  /-- The accumulators of the allocation, its first block and its number of blocks (10 R269). -/
  acc : Vector (Lanes Half) 128
  ablk : Nat
  nblk : Nat
  m : Vector Word 8
  cb : Vector (Vector (BitVec 16) 16) 4
  lat : Vector Latch 4
  shadow : Vector Latch 4
  /-- The mask stack, top first (12 R296). -/
  stack : List MaskEntry
  exited : Word
  mode : BitVec 16
  fstat : BitVec 6
  /-- Pending matrix flags by batch (04 R103). -/
  mflags : List (Nat × BitVec 6)
  /-- The batch counter (06 R159). -/
  batch : BitVec 32
  /-- Dead registers: the lanes in which xn is dead, and the dead sn (02 R61). -/
  xdead : Vector Word 31
  sdead : BitVec 31
  /-- Parts with an uncorrectable error (14 R346). -/
  xpois : Vector Word 31
  spois : BitVec 31
  mpois : BitVec 8
  cbpois : BitVec 4
  latpois : Vector Word 4
  accpois : Vector Word 128
  shpois : Vector Word 4
  tail : TailSink
  /-- The trap CSRs (14 R342). TLAT is read off the shadow. -/
  tvec : Word
  tpc : Word
  tcause : Word
  tinfol : Word
  tinfod : Word
  taddr : Word
  tmode : BitVec 16
  hl : Bool
  hs : Vector Word 4
  /-- The latest write completion time received (08 R213). -/
  gwct : Option Nat
  /-- Age stamp, skip counter and first clock in which the seat may issue, none until its head has issued (11 R282,
  R285; 10 R274). -/
  stamp : Nat
  skip : Nat
  startClk : Option Nat
  /-- The slot a QPUT has claimed and not yet published (09 R255). -/
  qput : Option Nat
  /-- The latches and their errors as a parked instruction found them, for when it is tried again (07 R186). -/
  held : Option (Vector Latch 4 × Vector Word 4)
  /-- The lanes whose pairs a SPAWN that still runs has submitted (12 R317). -/
  spawned : Word
  /-- A pre-emption has found that the next slot stalls (11 R281; log 51). -/
  waits : Bool
  deriving DecidableEq, Repr

/-- A seat that holds no row. -/
def Seat.blank : Seat where
  status := .blank
  bind := {}
  pc := 0
  slot := 1
  bundle := none
  pmod := none
  pximm := none
  pslot := 0
  brkbSkip := false
  brkbPassed := false
  x := vrep 31 (vrep 64 0)
  s := vrep 31 0
  acc := vrep 128 (vrep 64 0)
  ablk := 0
  nblk := 0
  m := vrep 8 0
  cb := vrep 4 (vrep 16 0)
  lat := vrep 4 .invalid
  shadow := vrep 4 .invalid
  stack := [{ kind := .base, mask := 0 }]
  exited := 0
  mode := 9
  fstat := 0
  mflags := []
  batch := 0
  xdead := vrep 31 0
  sdead := 0
  xpois := vrep 31 0
  spois := 0
  mpois := 0
  cbpois := 0
  latpois := vrep 4 0
  accpois := vrep 128 0
  shpois := vrep 4 0
  tail := {}
  tvec := 0
  tpc := 0
  tcause := 0
  tinfol := 0
  tinfod := 0
  taddr := 0
  tmode := 0
  hl := false
  hs := vrep 4 0
  gwct := none
  stamp := 0
  skip := 0
  startClk := some 0
  qput := none
  held := none
  spawned := 0
  waits := false

/-- An entry of a port path (06 R168): a value for each lane, the lanes active for the write, the lanes with an
uncorrectable error, the reader's clock from which it is readable (01 R25), and, in a tail with its sink enabled, the
lanes stored and the key of each one's first byte (06 R172). -/
structure PortEntry where
  v : Lanes Word
  act : Word
  pois : Word := 0
  ready : Nat
  sink : Option (List (Nat × Nat)) := none
  /-- The matrix item that filled it, if one did (06 R157). -/
  item : Option Nat := none
  deriving DecidableEq, Repr

/-- A taken slot of a south-port FIFO: reserved by an MDOTP (its item's number and its sink keys) or filled (06 R168). -/
inductive PortSlot where
  | reserved (item : Nat) (sink : Option (List (Nat × Nat)))
  | filled (e : PortEntry)
  deriving DecidableEq, Repr

/-- An operand group of an MDOT or MDOTP (06 R155): registers read as the steps run, or values sampled at issue. -/
inductive OpGroup where
  | xregs (n : Nat)
  | sregs (n : Nat)
  | vals (vs : List (Lanes Word))
  deriving DecidableEq, Repr

/-- The kinds of matrix work (06 R153). -/
inductive MatKind where
  | mdot | mdotp | aput | azero | ascl
  deriving DecidableEq, Repr

/-- An item of matrix work: what it sampled at issue, and how far it has come (06 R153, R156, R161). It stays listed
after it is done until an MWAIT has waited for its batch, since its window stays open until then. -/
structure MatItem where
  id : Nat
  seat : Nat
  kind : MatKind
  ty : BitVec 4
  mask : Word
  /-- First accumulator, counted from the start of the seat's allocation, and how many are written. -/
  acc : Nat
  count : Nat
  steps : Nat
  done : Nat
  a : OpGroup
  b : OpGroup
  ngroup : Nat
  cb0 : Vector (BitVec 16) 16
  cb1 : Vector (BitVec 16) 16
  /-- The running sum, or the value of APUT and ASCL. -/
  cur : Lanes Word
  /-- Lanes whose sources had an uncorrectable error. -/
  pois : Word
  batch : BitVec 32
  flags : BitVec 6
  /-- The lanes in which the result is undefined: an operand was read dead there, or written inside the window (02 R62,
  06 R161). -/
  undef : Word
  deriving DecidableEq, Repr

/-- A physical row's ports and matrix queue (06 R153, R168 to R171, R176). -/
structure RowUnit where
  /-- The south-port FIFO, oldest first, at most 8. -/
  south : List PortSlot
  /-- The crossing buffer or FEED buffer at the row's north edge, oldest first, at most 16. -/
  north : List PortEntry
  /-- A FEED packet is bound to this head: its number. -/
  feed : Option Nat
  /-- The matrix items, oldest first: those queued, and those done whose window is open. -/
  mat : List MatItem
  nextItem : Nat
  severedN : Bool
  severedS : Bool
  prodExited : Bool
  consExited : Bool
  /-- The neighbour's seat has been released (10 R279): what stands there now is another string's. -/
  prodGone : Bool
  consGone : Bool
  deriving DecidableEq, Repr

/-- A row with empty ports and an empty queue. -/
def RowUnit.empty : RowUnit where
  south := []
  north := []
  feed := none
  mat := []
  nextItem := 0
  severedN := false
  severedS := false
  prodExited := false
  consExited := false
  prodGone := false
  consGone := false

/-- A valid line-cache sector: its bytes and the TIME at which its lease ends (07 R192). -/
structure Sector where
  data : Vector Byte 32
  expiry : Nat
  deriving DecidableEq, Repr

/-- A spawn bin (10 R275): the launch's key and entry address of the pairs held, the arguments in order, the TIME at
which the timer fires, and the pending row's arguments. -/
structure SpawnBin where
  launch : Nat := 0
  entry : Word := 0
  args : List Word := []
  fire : Nat := 0
  pending : Option (Nat × Word × List Word) := none
  deriving DecidableEq, Repr

/-- A core: its clock, its power settings, its caches and its spawn bins (01 R18, R41; 11 R284; 21 R384, R387). -/
structure CoreUnit where
  /-- CLKC (09 R247). -/
  clkc : Nat
  /-- Thousandths of a clock gathered since the last clock began. -/
  phase : Nat
  /-- The present clock in MHz, and the values that take effect at a TIME (21 R384). -/
  freq : Nat
  next : Option (Nat × Nat × Nat)
  budget : Nat
  droopTh : Nat
  droopEn : Bool
  droopCnt : BitVec 32
  /-- The clocks stretched and halved: from the first on, before the second (21 R387). -/
  stretchFrom : Nat
  stretchUntil : Nat
  halveFrom : Nat
  halveUntil : Nat
  /-- The rail's shortfall at the core in this clock, in mV, which the detector compares (21 R387; log 8). -/
  shortfall : Nat
  /-- The issue partitions that issue nothing in the next clock (11 R285). -/
  idleNext : BitVec 8
  lcache : List (Nat × Option Sector)
  icache : List (Nat × Option (Vector Half 32))
  bins : Vector SpawnBin 16
  /-- Spawn serial numbers by launch key (10 R276). -/
  serial : List (Nat × Nat)
  /-- The latest write completion time that a row of the core has received (08 R211, R213). -/
  gwct : Option Nat
  deriving DecidableEq, Repr

/-- A core at power-good; its clock is its speed-table frequency. -/
def CoreUnit.reset : CoreUnit where
  clkc := 0
  phase := 0
  freq := 4000
  next := none
  budget := 384
  droopTh := 6
  droopEn := true
  droopCnt := 0
  stretchFrom := 0
  stretchUntil := 0
  halveFrom := 0
  halveUntil := 0
  shortfall := 0
  idleNext := 0
  lcache := []
  icache := []
  bins := vrep 16 {}
  serial := []
  gwct := none

/-- A violation record (13 R332). -/
structure VioRec where
  code : Nat
  mkind : Nat
  codes : BitVec 16
  mid : BitVec 32
  owner : Word
  pc : Word
  addr : Word
  lanes : Word
  time : Word
  slot : Nat
  lvl : Bool
  deriving DecidableEq, Repr

/-- A record of the event ring (14 R361). -/
structure EvRec where
  type : Nat
  die : Nat := 0xFF
  stack : Nat := 0xFF
  pch : Nat := 0
  count : Nat := 1
  addr : Word := 0
  time : Word := 0
  detail : Word := 0
  deriving DecidableEq, Repr

/-- The master that issued a FADDX contribution: a row by its seat and LID, or a peer by its link, its module, its
partition and the address it named (04 R115; 13 R337). -/
inductive Master where
  | row (sid : Nat) (lid : Word)
  | peer (link : Nat) (dev : BitVec 16) (src : BitVec 3) (va : Word)
  deriving DecidableEq, Repr

/-- What the supervisor is told besides the two rings. -/
inductive Report where
  /-- A replayable fault of an engine, an acceptance or a placement: the queue header and slot, and the address (09 R260,
  10 R394, 12 R314). -/
  | fault (hdr : Word) (slot : Nat) (va : Word)
  /-- A queue has halted at a slot with a CODE (09 R263). -/
  | halt (hdr : Word) (slot code : Nat)
  /-- A FADDX contribution has waited 100 µs: its girth unit, its physical address and its issuing master (04 R115). -/
  | faddx (unit addr : Nat) (who : Master)
  /-- A counter refused a TARM, a decrement or its task, with the task's cause code or 0 (12 R312 to R314). -/
  | counter (n cause : Nat)
  deriving DecidableEq, Repr

/-- A dependence counter (12 R311); `pend`: the packets of tasks issued and not yet taken, oldest first; `hold`: the
oldest is a launch that waits for a page of its bridle table (10 R394); `told`: the page that it waits for, as reported;
`atTask`: the counter is frozen at its oldest task, not only at a later bridle write of a launch (12 R314). -/
structure Counter where
  task : Word := 0
  count : Nat := 0
  frozen : Bool := false
  err : Bool := false
  issued : Bool := false
  armed : Bool := false
  pend : List Word := []
  hold : Bool := false
  told : Option Word := none
  atTask : Bool := false
  deriving DecidableEq, Repr

/-- A girth command that runs (09 R261): performed, and waiting for its completion time (08 R227). -/
structure GirthRun where
  done : Half
  waitE : Nat
  deriving DecidableEq, Repr

/-- A registered queue (09 R254): its header's address, virtual and physical, the ring's pages as registration
translated them, and what the command processor holds of it. -/
structure Queue where
  hdr : Word
  pa : Nat
  base : Word
  log2n : Nat
  pages : List Nat
  kind : BitVec 8
  engine : BitVec 8
  /-- A violation has frozen the queue (13 R331): at the packet at RIDX or an accepted one, or at a later bridle write of a
  launch of it; and, in a launch queue, whether the packet at RIDX is frozen at its acceptance (10 R394). -/
  frozen : Bool := false
  atAccept : Bool := false
  /-- The packet at RIDX waits for a page, and the one last reported (09 R260, 10 R394). -/
  stalled : Bool := false
  told : Option Word := none
  /-- RIDX as it stood before it went back to an accepted packet that has frozen (13 R331). -/
  back : Option Nat := none
  run : Option GirthRun := none
  /-- The launch of the row that submitted each slot not yet accepted, and its string, none of a spawned row (14 R356). -/
  subs : List (Nat × Word × Option Nat) := []
  deriving DecidableEq, Repr

/-- A stack's task stream of girth packets (12 R314). -/
structure TaskRun where
  stack : Nat
  counter : Nat
  /-- The packet's address. -/
  task : Word
  pkt : Vector Word 8
  run : Option GirthRun := none
  /-- The page that it waits for, as reported. -/
  told : Option Word := none
  deriving DecidableEq, Repr

/-- An accepted copy packet that has not completed (09 R257, R258; 08 R223). -/
structure Packet where
  part : Nat
  hdr : Word
  slot : Nat
  pkt : Vector Word 8
  /-- The engine's core; none for a keel engine. -/
  core : Option Nat
  /-- The next row; for a FEED, the next entry to push. -/
  row : Nat := 0
  /-- The physical row a FEED is bound to. -/
  head : Option Nat := none
  released : Bool := false
  landed : Bool := false
  /-- A row waits for a page, and the one last reported (09 R260). -/
  fault : Bool := false
  told : Option Word := none
  frozen : Bool := false
  /-- The latest lease expiry of the sectors it has written. -/
  waitE : Nat := 0
  /-- The lines and sectors it has fed with poisoned bytes, by the address of their first byte. -/
  pois : List Int := []
  sub : Option (Word × Option Nat) := none
  /-- The index of its next row, as a peer has answered it, and whether it is poisoned (09 R259, R260; log 87). -/
  gidx : Option (Nat × Bool) := none
  /-- The latest write completion time that its engine acquired with it (08 R209 to R211). -/
  acq : Option Nat := none
  deriving DecidableEq, Repr

/-- A pre-emption in progress (14 R356): the unit, the save area, T0, and T1 once the last seat has stopped. -/
structure Preempt where
  lid : Word
  str : Half
  area : Word
  t0 : Nat
  t1 : Option Nat := none
  /-- The packets aborted for it (14 R357). -/
  pkts : List Packet := []
  deriving DecidableEq, Repr

/-- A row of a pre-empted unit: its binding and place, and what the image does not hold: the lanes that have exited, the
pending matrix flags by batch, its earliest start, whether the row has exited, and of its physical row the open windows of
its matrix items and, for a port seat, the paths as they stood (06 R161; 14 R352, R358, R360). -/
structure SavedRow where
  bind : Binding
  /-- The row's seat as it stopped, from which a row frozen at handler level has its level and trap CSRs back. -/
  seat : Seat
  sid : Nat
  ablk : Nat
  nblk : Nat
  exited : Word
  mflags : List (Nat × BitVec 6)
  startClk : Option Nat
  gone : Bool
  unit : RowUnit
  deriving DecidableEq, Repr

/-- A pre-empted unit: its rows in image order and the packets to reissue (14 R359). -/
structure SavedUnit where
  lid : Word
  str : Half
  area : Word
  rows : List SavedRow
  pkts : List Packet
  tstop : Nat
  deriving DecidableEq, Repr

/-- A partition (13 R320 to R338; 07 R193; 10 R277; 14 R342). -/
structure Part where
  en : Bool := false
  err : Bool := false
  span : BitVec 16 := 0
  keel : BitVec 16 := 0
  dies : BitVec 8 := 0
  leaseLen : BitVec 8 := 8
  bint : Nat := 2000
  tvecdef : Word := 0
  /-- TREGION by die (13 R326). -/
  tregion : Vector Word 8 := vrep 8 0
  tuva : Word := 0
  tupte : Word := 0
  tuctl : Half := 0
  ogrant : Vector Word 128 := vrep 128 0
  igrant : Vector Word 128 := vrep 128 0
  /-- The violation ring's unread records and those read, oldest first, and its counts (13 R332). -/
  vring : List VioRec := []
  vold : List VioRec := []
  vhead : Nat := 0
  vtail : Nat := 0
  vlost : Nat := 0
  /-- The event ring's records, unread and read, and counts, and what else the supervisor has been told (14 R361). -/
  ering : List EvRec := []
  eold : List EvRec := []
  ehead : Nat := 0
  etail : Nat := 0
  elost : Nat := 0
  reports : List Report := []
  /-- SUPARG, SUPARG2 and SUPARG3, and SUPSTAT (13 R333, 14 R354). -/
  suparg : Vector Word 3 := vrep 3 0
  supReason : BitVec 8 := 0
  supRefused : Bool := false
  supDone : Bool := false
  pre : Option Preempt := none
  /-- A RESTORE that waits for room (14 R360), with the LID, string and save area it was given. -/
  restoring : Option (Word × Half × Word) := none
  saved : List SavedUnit := []
  /-- The registered queues in order, and the place of the launch queue looked at next (10 R265). -/
  queues : List Queue := []
  rot : Nat := 0
  counters : List (Nat × Counter) := []
  tasks : List TaskRun := []
  /-- Peer devices, by link and device, whose inbound flow is frozen (13 R331). -/
  spanFrozen : List (Nat × Nat) := []
  pwrshare : BitVec 40 := 0
  pwrErr : Bool := false
  /-- What the supervisor's reads of its configuration space have answered, none where one was refused. -/
  answers : List (Option (Vector Word 8)) := []
  order : Nat := 0
  deriving DecidableEq, Repr

/-- A launch that has been accepted and has not finished (10 R264 to R280): its packet's fields, and how far its
placement has come. -/
structure Launch where
  part : Nat
  lid : Word
  cls : Nat
  ports : Bool
  pin : Bool
  onedie : Bool
  skew : Nat
  acc : Nat
  lanes : Nat
  seats : BitVec 4
  slen : Nat
  nstr : Nat
  rigw : Nat
  righ : Nat
  entry : Word
  arg : Word
  spad : Nat
  done : Half
  bridle : Word
  /-- The queue it came from (its header's address), if any, and the slot of its packet there. -/
  queue : Option Word
  slot : Nat := 0
  /-- Its place in the placement order (10 R265). -/
  order : Nat
  /-- The physical cores of its roles, in order; empty before the rig is placed. -/
  roles : List Nat
  /-- The next string to place, and the entries of a pinned table. -/
  nextString : Nat
  pinned : List Half
  /-- A die reset has ended it; it is gone when its last row is (14 R365). -/
  killed : Bool
  /-- Its rig is placed (10 R271). -/
  placed : Bool
  /-- The counter whose task it is, where it came from no queue (12 R314). -/
  counter : Nat := 0
  /-- Its completion has come to its last step, the write of this STATE (10 R280, 13 R334). -/
  closing : Nat := 0
  /-- A step of it waits for a page of its bridle table, the one reported, or for a violation to be resumed (10 R394). -/
  bstall : Option Word := none
  bfrozen : Bool := false
  /-- The dies whose reset has taken its rows and reservations there (14 R365). -/
  lost : BitVec 8 := 0
  deriving DecidableEq, Repr

/-- An open exact accumulator (04 R112). -/
structure Accum where
  q : BitVec 320 := 0
  pinf : Bool := false
  ninf : Bool := false
  nan : Bool := false
  negz : Bool := true
  n : Nat := 0
  deriving DecidableEq, Repr

/-- A FADDX contribution that waits for an accumulator (04 R115): its physical address, its value, its seat (none for a
peer's), since when, and whether it has been reported. -/
structure Contrib where
  addr : Nat
  v : Half
  /-- The seat whose row waits for it; none for a peer's, and where that row is gone. -/
  sid : Option Nat
  who : Master
  part : Nat
  since : Nat
  /-- Its page is uncached (08 R217). -/
  nc : Bool := false
  reported : Bool := false
  deriving DecidableEq, Repr

/-- A stack (07 R196; 14 R361, R363): the registers as written and the values in force. -/
structure Stack where
  hmaskW : Vector (BitVec 28) 8 := tab 8 (fun k => 1#28 <<< k)
  hmask : Vector (BitVec 28) 8 := tab 8 (fun k => 1#28 <<< k)
  parW : Bool := true
  par : Bool := true
  hErr : Bool := false
  hBusy : Bool := false
  pch : BitVec 8 := 0
  retErr : Bool := false
  retBusy : Bool := false
  /-- The pseudo-channel being retired, as PCH named it at GO (14 R363). -/
  retiring : BitVec 8 := 0
  retgrp : Vector (BitVec 8) 16 := vrep 16 0
  health : Nat := 0
  deriving DecidableEq, Repr

/-- A grid die (21 R380 to R386; 14 R361, R365 to R367). -/
structure Die where
  owner : Option Nat := none
  boosten : Bool := true
  mlim : BitVec 40 := BitVec.allOnes 40
  l : Nat := 0
  q : Nat := 0
  bst : Nat := 0
  cappedPrev : Bool := true
  first : Bool := true
  charges : Nat := 0
  credits : Nat := 0
  vid : Nat := 0
  /-- The interval's VID, where it is lower and the clocks have still to change (21 R383). -/
  vidNext : Option Nat := none
  trialVid : BitVec 8 := 0
  safeVid : BitVec 8 := 0x5E
  trial : Bool := false
  /-- Blacklisted VIDs and the TIME at which each becomes usable again. -/
  black : List (Nat × Nat) := []
  edie : Nat := 0
  /-- Junction readings in 1/64 °C, the highest and the average of the interval, and its rail energy in mJ. -/
  junction : Vector (BitVec 16) 8 := vrep 8 0
  tmax : BitVec 16 := 0
  tavg : BitVec 16 := 0
  /-- The readings of the interval so far: their sum and their number, of which TAVG is the average. -/
  tsum : Int := 0
  tcnt : Nat := 0
  erail : Nat := 0
  droops : Nat := 0
  record : Vector Word 8 := vrep 8 0
  /-- T0 of the reset in progress and whether it is a thermal trip; and whether it waits only for the rejoin. -/
  reset : Option (Nat × Bool) := none
  resetDone : Bool := false
  tripped : Bool := false
  health : Nat := 0
  deriving DecidableEq, Repr

/-- The module's phase (21 R389, R390). -/
inductive Phase where
  | off | starting | testing | ready | grounded
  deriving DecidableEq, Repr

/-- A span link (21 R393). -/
structure Link where
  peerdev : BitVec 16 := 0
  retry : Nat := 0
  downs : Nat := 0
  train : Bool := false
  up : Bool := false
  /-- The millisecond counted and the flits resent in it. -/
  ms : Nat := 0
  inMs : Nat := 0
  deriving DecidableEq, Repr

/-- An answer of the control port (13 R336; 21 R390, R392). -/
inductive Answer where
  | data (v : Word)
  | words (v : Vector Word 8)
  | certificates (c : List Byte)
  | done
  | refused
  | status (phase : Phase) (dev : BitVec 16)
  | report (r : Vector Word 8)
  | quote (nonce mv : BitVec 384) (dev : BitVec 16) (time : Word) (edSig mlSig : List Byte)
  deriving DecidableEq, Repr

/-- What a peer answers to an access (07 R191, 13 R338, 14 R364, R365). -/
inductive PeerReply where
  | data (v : Word)
  | pageFault
  | violation (code : Nat)
  | refused
  | fenced (die : Nat)
  | poison
  | retry
  deriving DecidableEq, Repr

/-- An access to a peer as it leaves on a span link, with the answer it was given: the source's module and partition,
stamped by the keel die; the target's as the grant names them; the address and what is asked (13 R337, R338). -/
structure SpanFrame where
  dev : BitVec 16
  part : Nat
  link : Nat
  toDev : BitVec 16
  toPart : BitVec 3
  va : Word
  op : PeerOp
  reply : PeerReply
  deriving DecidableEq, Repr

/-- A peer's write that has been performed and is acknowledged at a TIME (08 R217). -/
structure PeerAck where
  part : Nat
  va : Word
  reply : PeerReply
  due : Nat
  deriving DecidableEq, Repr

/-- What the control port and a supervisor can read (13 R311, R320, R336; 11 R288; 14 R354, R361 to R363; 21 R381, R385,
R387, R390, R392, R393). -/
inductive Readable where
  | reg (r : Reg)
  | task (n : Fin 4096)
  | speed (core : Fin 64)
  | droopcnt (core : Fin 64)
  | retgrp (stack : Fin 24) (k : Fin 16)
  | health (stack : Fin 24)
  | dieHealth (die : Fin 8)
  | uvstat (die : Fin 8)
  | vring (i : Fin 64)
  | vheads
  | ering (i : Fin 64)
  | eheads
  | dieRecord (die : Fin 8)
  | moduleRecord
  | linkstat (link : Fin 16)
  | selftest
  | certificates
  deriving DecidableEq, Repr

/-- The management block and the security root (21 R379 to R382, R389 to R393). -/
structure Module where
  phase : Phase := .starting
  /-- The firmware has been verified (21 R389, step 1). -/
  firmOk : Bool := false
  flash : List Byte := Config.flash
  arb : Nat := Config.fusedArb
  mv : BitVec 384 := 0
  /-- What the self-test will find of RESULT [4:0], and FIRST (21 R389; log 5); and its last report. -/
  defects : BitVec 5 := 0
  defectAt : Half := 0
  selftest : Vector Word 8 := vrep 8 0
  session : Bool := false
  nonces : Nat := 0
  links : Vector Link 16 := vrep 16 {}
  out : List Answer := []
  /-- The keel die's two junction sensors, in 1/64 °C (21 R380). -/
  keelTemp : Vector (BitVec 16) 2 := vrep 2 0
  /-- Inlet and outlet in 1/64 °C, flow in mL/min, the interval's input energy and heat in mJ. -/
  tin : BitVec 16 := 55 * 64
  tout : BitVec 16 := 65 * 64
  flow : BitVec 16 := 7000
  pin : Nat := 0
  pheat : Nat := 0
  ein : Nat := 0
  eheat : Nat := 0
  coolant : Bool := false
  /-- Since when the inlet is above 62 °C and the flow below 3.0 L/min, and when the last fault ended (21 R379). -/
  hotSince : Option Nat := none
  lowSince : Option Nat := none
  okSince : Option Nat := none
  record : Vector Word 8 := vrep 8 0
  /-- Frames dropped on links a target does not grant (13 R338). -/
  dropped : Nat := 0
  deriving DecidableEq, Repr

/-- What the surroundings bring (log 8, log 9). -/
inductive Env where
  | junction (die core : Nat) (t : BitVec 16)
  | coolant (tin tout flow : BitVec 16)
  | power (pin pheat : Nat)
  | keelJunction (i : Nat) (t : BitVec 16)
  | rail (die : Nat) (mj : Nat)
  /-- Beats sent inverted (21 R386). -/
  | credit (die n : Nat)
  /-- The rail's shortfall at a core, in mV (21 R387). -/
  | shortfall (core mv : Nat)
  /-- A supervisor, and the control node through its port, read a register or a record. -/
  | supRead (p : Nat) (what : Readable)
  | portRead (p : Nat) (what : Readable)
  | peer (r : PeerReply)
  /-- What the self-test will find: RESULT [4:0] and FIRST. -/
  | defect (result : BitVec 5) (first : Half)
  /-- A sector, by stack, pseudo-channel and raw index, has an uncorrectable error. -/
  | sectorUE (raw : Nat)
  /-- A single-bit error has been corrected on a die or a stack. -/
  | corrected (die : Option Nat) (stack : Nat)
  deriving DecidableEq, Repr

/-- What moves next (log 2). -/
inductive Act where
  /-- The seat's next slot runs, fetched first where it is not in hand. -/
  | issue (sid : Nat)
  /-- A step of the module. -/
  | event (i : Instr)
  /-- One clock of a core begins: what its cells and parks do by themselves (11 R281). -/
  | clock (core : Nat)
  /-- A slot that has its pipe and row to itself, tried: it moves if it comes to stall (11 R283; log 51). -/
  | prepare (sid : Nat)
  /-- Whether the next slot of each seat of a core that is being pre-empted stalls (11 R281, 14 R355). -/
  | gauge (core : Nat)
  /-- The core's issue partitions select (11 R285). -/
  | select (core : Nat)
  | env (e : Env)
  deriving DecidableEq, Repr

/-- The machine. -/
structure State where
  /-- TIME, in ns (01 R42). -/
  time : Word
  /-- What moves next, and the seat whose slot `exec` runs (log 2). -/
  agenda : List Act
  cur : Nat
  /-- The slot last run had to wait: nothing of it took effect (11 R281). -/
  stalled : Bool
  /-- The counter each free value advances (log 1). -/
  freeCtr : Nat
  /-- Seats by core * 256 + row * 4 + seat; an unlisted one holds no row. -/
  seats : List (Nat × Seat)
  /-- Physical rows by core * 64 + row. -/
  rows : List (Nat × RowUnit)
  cores : Vector CoreUnit 64
  /-- Scratchpad bytes by core * 2^24 + offset (07 R178). -/
  spad : Memory
  /-- Absent and poisoned scratchpad lines, by line number (07 R184). -/
  absent : List (Nat × Bool)
  spois : List (Nat × Bool)
  /-- HBM bytes by physical address, as the difference from what the stack was filled with (07 R190, R197). -/
  hbm : Memory
  /-- What each stack was filled with: 0 for zeros, else the number of a hash change; and the ranges (first byte, end,
  filling) that kept an earlier filling (07 R197). -/
  epoch : Vector Nat 24
  kept : List (Nat × Nat × Nat)
  /-- Poisoned sectors, sectors with an uncorrectable error not yet met (by stack, pseudo-channel and raw index),
  and the latest lease expiry granted, by physical address / 32 (07 R199, R192; 14 R362). -/
  hpois : List (Nat × Bool)
  hue : List (Nat × Bool)
  leases : List (Nat × Nat)
  /-- The speed table's STEP codes, and the unusable physical rows and seats (11 R288, 01 R28). -/
  steps : Vector (BitVec 6) 64
  badRows : List (Nat × Bool)
  badSeats : List (Nat × Bool)
  parts : Vector Part 8
  /-- Launches by partition * 2^32 + LID[31:0]. -/
  launches : List (Nat × Option Launch)
  /-- The dies fenced by a reset (14 R365). -/
  fenced : BitVec 8
  dies : Vector Die 8
  hbmStacks : Vector Stack 24
  /-- Open accumulators by physical address, and contributions that wait, oldest first (04 R112, R115). -/
  accums : List (Nat × Option Accum)
  contribs : List Contrib
  /-- Copy packets accepted and not completed, by number, and the next number (09 R258). -/
  packets : List (Nat × Option Packet)
  nextPacket : Nat
  module : Module
  /-- What peers will answer, and the accesses sent to them with the answers given (log 9). -/
  peerReplies : List PeerReply
  spanOut : List SpanFrame
  /-- Peers' accesses by partition and address, with the answers given to them (13 R338), and the acknowledgements of
  peers' writes that are not yet due (08 R217). -/
  spanIn : List (Nat × Word × PeerReply)
  acks : List PeerAck
  /-- The sectors of each die's stacks read or written as zeros in the interval (21 R386). -/
  elided : Vector Nat 8
  deriving DecidableEq, Repr

/-- The machine at power-good. -/
def State.reset : State where
  time := 0
  agenda := [.event .powerGood]
  cur := 0
  stalled := false
  freeCtr := 0
  seats := []
  rows := []
  cores := vrep 64 CoreUnit.reset
  spad := []
  absent := []
  spois := []
  hbm := []
  epoch := vrep 24 0
  kept := []
  hpois := []
  hue := []
  leases := []
  steps := vrep 64 16
  badRows := []
  badSeats := []
  parts := vrep 8 {}
  launches := []
  fenced := 0
  dies := vrep 8 {}
  hbmStacks := vrep 24 {}
  accums := []
  contribs := []
  packets := []
  nextPacket := 0
  module := {}
  peerReplies := []
  spanOut := []
  spanIn := []
  acks := []
  elided := vrep 8 0

end Sys2Proof.Machine
end

