-- ==== Sys2Proof/Machine/Ops.lean ====
section
/-! DEFINITION. The named operations over seats, registers, masks and the trap registers: reading and writing each of
them, taking a trap (14 R340), freezing (13 R331), returning (14 R350), and how a slot ends. -/
namespace Sys2Proof.Machine

/-! ### Seats, rows and cores -/

/-- The core of a seat's key. -/
def sidCore (sid : Nat) : Nat := sid / 256
/-- The physical row of a seat's key within its core. -/
def sidRow (sid : Nat) : Nat := sid / 4 % 64
/-- The seat's number on its row. -/
def sidSeat (sid : Nat) : Nat := sid % 4

/-- The seat at a key. -/
def State.seat (s : State) (sid : Nat) : Seat := Sparse.get Seat.blank s.seats sid
/-- The seat at a key replaced. -/
def State.setSeat (s : State) (sid : Nat) (t : Seat) : State :=
  { s with seats := Sparse.set Seat.blank s.seats sid t }

/-- The physical row at a key (core * 64 + row). -/
def State.row (s : State) (k : Nat) : RowUnit := Sparse.get RowUnit.empty s.rows k
/-- The physical row at a key replaced. -/
def State.setRow (s : State) (k : Nat) (r : RowUnit) : State :=
  { s with rows := Sparse.set RowUnit.empty s.rows k r }

/-- A core. -/
def State.core (s : State) (c : Nat) : CoreUnit := vget CoreUnit.reset s.cores c
/-- A core replaced. -/
def State.setCore (s : State) (c : Nat) (u : CoreUnit) : State := { s with cores := vset s.cores c u }

/-- A partition. -/
def State.part (s : State) (p : Nat) : Part := vget {} s.parts p
/-- A partition replaced. -/
def State.setPart (s : State) (p : Nat) (u : Part) : State := { s with parts := vset s.parts p u }

/-- The seat holds a row (11 R281). -/
def Seat.resident (t : Seat) : Bool := !decide (t.status = .blank)

/-- The key of a launch: its partition and LID[31:0] (10 R265). -/
def launchKey (part : Nat) (lid : Word) : Nat := part * 2 ^ 32 + lid.toNat % 2 ^ 32

/-- The launch a seat's row belongs to. -/
def State.launchOf (s : State) (t : Seat) : Option Launch :=
  Sparse.get none s.launches (launchKey t.bind.part t.bind.lid)

/-- The value of a free value (00 R1, log 1), `k` uses ahead. -/
def State.free (s : State) (k : Nat) : Word := Config.freeWord (s.freeCtr + k)
/-- `n` free values have been used. -/
def State.useFree (s : State) (n : Nat) : State := { s with freeCtr := s.freeCtr + n }

/-! ### Masks -/

/-- The lanes launched that have not exited (12 R295). -/
def Seat.live (t : Seat) : Word := vget 0 t.m 0 &&& ~~~t.exited
/-- The top entry of the mask stack. -/
def Seat.top (t : Seat) : MaskEntry := t.stack.headD { kind := .base, mask := 0 }
/-- The path lanes (12 R295). -/
def Seat.path (t : Seat) : Word := t.top.mask &&& t.live

/-! ### MODE (02 R63) and the prefixes (02 R65, R66) -/

/-- MODE.ETYPE. -/
def Seat.etype (t : Seat) : BitVec 4 := t.mode.extractLsb' 0 4
/-- MODE.RND. -/
def Seat.rnd (t : Seat) : Nat := (t.mode.extractLsb' 4 3).toNat
/-- MODE.SATINF. -/
def Seat.satInf (t : Seat) : Bool := t.mode.getLsbD 7
/-- MODE.GUARD. -/
def Seat.guard (t : Seat) : Nat := (t.mode.extractLsb' 8 3).toNat
/-- MODE.ZERO. -/
def Seat.zeroBit (t : Seat) : Bool := t.mode.getLsbD 11
/-- MODE.ABASE. -/
def Seat.abase (t : Seat) : Nat := (t.mode.extractLsb' 12 2).toNat
/-- MODE.DEADTRAP. -/
def Seat.deadTrap (t : Seat) : Bool := t.mode.getLsbD 14
/-- MODE.INTSAT. -/
def Seat.intSat (t : Seat) : Bool := t.mode.getLsbD 15

/-- The fields of the MOD that waits for its target; all zero where there is none. -/
def Seat.modw (t : Seat) : BitVec 24 := t.pmod.getD 0
/-- The slot is a uniform slot (02 R44): bit UFk of the bundle's control word. -/
def Seat.uniform (t : Seat) : Bool :=
  match t.bundle with
  | none => false
  | some b => (vget 0 b 0).getLsbD (23 + t.slot)

/-- The effective element type: MOD.ET where MOD.ETE is set, else MODE.ETYPE (02 R65). -/
def Seat.ety (t : Seat) : BitVec 4 :=
  if t.modw.getLsbD 15 then t.modw.extractLsb' 11 4 else t.etype
/-- The effective rounding mode (02 R65). -/
def Seat.ernd (t : Seat) : Nat :=
  let rm := (t.modw.extractLsb' 8 3).toNat
  if rm = 0 then t.rnd else rm - 1
/-- Inactive lanes are zeroed (02 R65: ZM 1 merges, 2 zeroes, 0 takes MODE.ZERO). -/
def Seat.ezero (t : Seat) : Bool :=
  let zm := (t.modw.extractLsb' 6 2).toNat
  if zm = 0 then t.zeroBit else zm == 2
/-- The governing mask (12 R295): the path lanes, and the mask that MOD.MK or else MODE.GUARD names. -/
def Seat.gov (t : Seat) : Word :=
  let mk := (t.modw.extractLsb' 3 3).toNat
  let g := if mk = 0 then t.guard else mk
  if g = 0 then t.path else t.path &&& vget 0 t.m g
/-- MOD's reserved values, and fields that must be zero while their enable is clear (02 R65): ILLEGAL_OP. -/
def Seat.modIllegal (t : Seat) : Bool :=
  let w := t.modw
  decide ((w.extractLsb' 0 3).toNat ≠ 0) || decide ((w.extractLsb' 8 3).toNat ≥ 6) ||
  decide ((w.extractLsb' 6 2).toNat = 3) ||
  (!w.getLsbD 23 && decide ((w.extractLsb' 16 7).toNat ≠ 0)) ||
  (!w.getLsbD 15 && decide ((w.extractLsb' 11 4).toNat ≠ 0))
/-- The fourth operand's source code, where MOD.Q is set (02 R65). -/
def Seat.qsrc (t : Seat) : Option (BitVec 7) :=
  if t.modw.getLsbD 23 then some (t.modw.extractLsb' 16 7) else none

/-! ### Registers -/

/-- Register xn of a lane; x31 reads 0 (00 R9). -/
def Seat.xr (t : Seat) (n l : Nat) : Word := vget 0 (vget (vrep 64 0) t.x n) l
/-- Scalar sn; s31 reads 0 (00 R9). -/
def Seat.sr (t : Seat) (n : Nat) : Word := vget 0 t.s n
/-- Mask mn. -/
def Seat.mr (t : Seat) (n : Nat) : Word := vget 0 t.m n
/-- Accumulator `i` of the allocation in a lane. -/
def Seat.ar (t : Seat) (i l : Nat) : Half := vget 0 (vget (vrep 64 0) t.acc i) l

/-- Lane values merged under a mask: the new value where the mask's bit is set, else the old. -/
def merge {α : Type} (mask : Word) (new old : Nat → α) : Lanes α :=
  tab 64 (fun l => if mask.getLsbD l then new l else old l)

/-- Register xn written in the lanes of `mask`: it is live there, and its error marks clear (02 R62, 14 R346).
x31 discards the write. -/
def Seat.putX (t : Seat) (n : Nat) (mask : Word) (v : Nat → Word) : Seat :=
  if n < 31 then
    { t with
      x := vset t.x n (merge mask v (t.xr n))
      xdead := vset t.xdead n (vget 0 t.xdead n &&& ~~~mask)
      xpois := vset t.xpois n (vget 0 t.xpois n &&& ~~~mask) }
  else t

/-- Scalar sn written; s31 discards the write (00 R9). -/
def Seat.putS (t : Seat) (n : Nat) (v : Word) : Seat :=
  if n < 31 then
    { t with
      s := vset t.s n v
      sdead := t.sdead &&& ~~~(1#31 <<< n)
      spois := t.spois &&& ~~~(1#31 <<< n) }
  else t

/-- Mask mn written, m0 excepted, which is read-only (12 R293). -/
def Seat.putM (t : Seat) (n : Nat) (v : Word) : Seat :=
  if 0 < n ∧ n < 8 then { t with m := vset t.m n v, mpois := t.mpois &&& ~~~(1#8 <<< n) } else t

/-- The latches shifted, `e` entering y0 (02 R58). -/
def Seat.shift (t : Seat) (e : Latch) (pois : Word := 0) : Seat :=
  { t with
    lat := tab 4 (fun i => if i = 0 then e else vget .invalid t.lat (i - 1))
    latpois := tab 4 (fun i => if i = 0 then pois else vget 0 t.latpois (i - 1)) }

/-- All four latches invalid (02 R58). -/
def Seat.dropLatches (t : Seat) : Seat := { t with lat := vrep 4 .invalid, latpois := vrep 4 0 }

/-! ### How a slot ends -/

/-- What a trap records (14 R344, R345); the slot and resume point default to the seat's own. -/
structure Trap where
  code : Nat
  lanes : Word := 0
  slot : Option Nat := none
  aux : Nat := 0
  k : Nat := 0
  south : Bool := false
  nottail : Bool := false
  write : Bool := false
  peer : Bool := false
  sreg : Bool := false
  reg : Nat := 0
  addr : Word := 0
  /-- TRAP alone resumes elsewhere: at this bundle and slot. -/
  resume : Option (Word × Nat) := none
  deriving DecidableEq, Repr

/-- A violation by a seat (13 R329, R332). -/
structure Vio where
  code : Nat
  codes : BitVec 16
  addr : Word := 0
  lanes : Word := 0
  atFetch : Bool := false
  deriving DecidableEq, Repr

/-- Why a slot did not take its effect. -/
inductive Stop where
  | trap (t : Trap)
  | freeze (v : Vio)
  | stall
  /-- The seat parks; a park-class instruction has also invalidated the latches (02 R58). -/
  | park (p : Park) (cls : Bool)
  /-- The machine has come to another state before the slot stopped: an error met and handled, an answer taken. -/
  | after (s : State) (e : Stop)
  deriving DecidableEq, Repr

/-- The trap codes (14 R345). -/
def cILLEGAL_OP : Nat := 0x01
def cILLEGAL_BUNDLE : Nat := 0x02
def cILLEGAL_TYPE : Nat := 0x03
def cLANDING : Nat := 0x04
def cSTALE_LATCH : Nat := 0x05
def cDEAD_REG : Nat := 0x06
def cMSTACK_OVF : Nat := 0x07
def cMSTACK_UNF : Nat := 0x08
def cBRK : Nat := 0x09
def cTRAP : Nat := 0x0A
def cPAGE_FAULT : Nat := 0x10
def cFETCH_FAULT : Nat := 0x11
def cMISALIGN_DATA : Nat := 0x12
def cJMPV_TARGET : Nat := 0x13
def cPOISON : Nat := 0x18
def cDIE_FENCED : Nat := 0x1A
def cPORT_BROKEN : Nat := 0x1B
def cPORT_UNBOUND : Nat := 0x1C

/-- The violation codes (13 R329). -/
def vNESTED : Nat := 0x3F
def vPROT_WRITE : Nat := 0x40
def vPROT_EXEC : Nat := 0x41
def vSPAD_HOLE : Nat := 0x42
def vPRIV_INSTR : Nat := 0x43
def vPARTITION_BOUND : Nat := 0x44
def vQUEUE_FOREIGN : Nat := 0x45
def vPHYS_ADDR : Nat := 0x46

/-- Bit `code - 0x40` of CODES (13 R332). -/
def codeBit (code : Nat) : BitVec 16 := if code < 0x40 then 0 else 1#16 <<< (code - 0x40)

/-- A trap with a code alone. -/
def trapC {α : Type} (code : Nat) : Except Stop α := .error (.trap { code := code })

/-- A freeze with one code and address (13 R331). -/
def freezeC {α : Type} (code : Nat) (addr : Word := 0) (lanes : Word := 0) : Except Stop α :=
  .error (.freeze { code := code, codes := codeBit code, addr := addr, lanes := lanes })

/-- The check fails with a trap when the condition holds. -/
def trapIf (c : Bool) (t : Trap) : Except Stop Unit := if c then .error (.trap t) else .ok ()

/-- What has not yet come to pass stalls the seat (08 R216). -/
def fenceWait (done : Bool) : Except Stop Unit := if done then .ok () else .error .stall

/-- The slot at which a resumption starts: the first prefix's, or the slot itself (02 R50). -/
def Seat.firstSlot (t : Seat) : Nat := if t.pslot = 0 then t.slot else t.pslot

/-- The prefixes leave, and the bundle in hand with them (a fetch follows). -/
def Seat.leave (t : Seat) : Seat :=
  { t with bundle := none, pmod := none, pximm := none, pslot := 0, brkbSkip := false, brkbPassed := false }

/-- The next slot of the row (02 R45): the next of the bundle, or slot 1 of the next bundle. -/
def Seat.advance (t : Seat) : Seat :=
  if t.slot < 3 then { t with slot := t.slot + 1, pmod := none, pximm := none, pslot := 0 }
  else { t.leave with pc := t.pc + 16, slot := 1 }

/-- The latches as a control transfer to a bundle leaves them: kept where that bundle is the next one (02 R58). -/
def Seat.moveLatches (t : Seat) (bun : Word) : Seat := if bun = t.pc + 16 then t else t.dropLatches

/-- The row moves to another bundle (02 R45, R58): the later slots are discarded. A program counter names a bundle, so
its bits [3:0] are zero (02 R43). -/
def Seat.jump (t : Seat) (target : Word) : Seat :=
  { (t.moveLatches (target &&& ~~~15#64)).leave with pc := target &&& ~~~15#64, slot := 1 }

/-- The control word of the bundle in hand sets BRKB (02 R44). -/
def Seat.brkb (t : Seat) : Bool :=
  match t.bundle with
  | none => false
  | some b => (vget 0 b 0).getLsbD 17

/-- TINFOD (14 R344). -/
def Trap.detail (r : Trap) (slot : Nat) : Word :=
  BitVec.ofNat 64 (r.aux % 256 * 2 ^ 16 + r.k % 16 * 2 ^ 12 + r.south.toNat * 2 ^ 11 + r.nottail.toNat * 2 ^ 10 +
    r.write.toNat * 2 ^ 9 + r.peer.toNat * 2 ^ 8 + r.sreg.toNat * 2 ^ 7 + r.reg % 32 * 4 + slot % 4)

/-- A trap taken by a seat at user level, in the order of 14 R340. -/
def Seat.takeTrap (t : Seat) (r : Trap) : Seat :=
  let (bun, slot) := r.resume.getD (t.pc, t.firstSlot)
  let bp := t.brkbPassed && t.brkb && bun == t.pc
  { t.leave.dropLatches with
    tpc := (bun &&& ~~~15#64) ||| BitVec.ofNat 64 (bp.toNat * 4 + slot)
    tcause := BitVec.ofNat 64 r.code
    tinfol := r.lanes
    tinfod := r.detail (r.slot.getD t.slot)
    taddr := r.addr
    shadow := t.lat
    shpois := t.latpois
    tmode := t.mode
    mode := 9#16 ||| (t.mode &&& 0x3000#16)
    hl := true
    pc := t.tvec &&& ~~~15#64
    slot := 1
    status := .ready }

/-- MID of a seat's record (13 R332). -/
def seatMid (sid : Nat) : BitVec 32 :=
  BitVec.ofNat 32 (sidSeat sid * 2 ^ 12 + sidRow sid * 2 ^ 6 + sidCore sid)

/-- A record goes to the partition's violation ring, or LOST counts it when 64 are unread (13 R332). -/
def State.addVio (s : State) (p : Nat) (r : VioRec) : State :=
  let u := s.part p
  if u.vring.length < 64 then s.setPart p { u with vring := u.vring ++ [r], vhead := u.vhead + 1 }
  else s.setPart p { u with vlost := u.vlost + 1 }

/-- A seat frozen by a violation (13 R331, R332); one frozen at a fetch takes the bundle's BRKB as on a first reach (02
R47). -/
def State.freezeSeat (s : State) (sid : Nat) (v : Vio) : State :=
  let t := s.seat sid
  (s.setSeat sid { t with status := .frozen, brkbSkip := false }).addVio t.bind.part
    { code := v.code, mkind := 0, codes := v.codes, mid := seatMid sid, owner := t.bind.lid, pc := t.pc, addr := v.addr
      lanes := v.lanes, time := s.time, slot := if v.atFetch then 0 else t.slot, lvl := t.hl }

/-- A seat that raises a trap: taken at user level (14 R340), a freeze with CODE 0x3F at handler level (14 R341), whose
record holds the slot beside the bundle as TPC does (log 34). -/
def State.raise (s : State) (sid : Nat) (r : Trap) : State :=
  let t := s.seat sid
  if t.hl then
    (s.setSeat sid { t with status := .frozen, brkbSkip := false }).addVio t.bind.part
      { code := vNESTED, mkind := 0, codes := 0, mid := seatMid sid, owner := t.bind.lid
        pc := t.pc ||| BitVec.ofNat 64 (r.slot.getD t.slot)
        addr := BitVec.ofNat 64 r.code, lanes := r.lanes, time := s.time, slot := r.slot.getD t.slot, lvl := true }
  else s.setSeat sid (t.takeTrap r)

/-- RETT (14 R350): MODE and the latches come back, HL clears, and the row resumes at TPC. -/
def Seat.rett (t : Seat) : Seat :=
  let slot := (t.tpc.extractLsb' 0 2).toNat
  { t.leave with
    mode := t.tmode
    lat := t.shadow
    latpois := t.shpois
    hl := false
    pc := t.tpc &&& ~~~15#64
    slot := if slot = 0 then 1 else slot
    brkbSkip := (slot ≤ 1) && t.tpc.getLsbD 2 }

/-- The latches as the instruction that parked the seat found them: it is tried again with the operands that it read
(07 R186; 02 R58). -/
def Seat.unhold (t : Seat) : Seat :=
  match t.held with
  | some h => { t with lat := h.1, latpois := h.2, held := none }
  | none => t

/-- What a slot's stop does to the machine: a trap is taken, a violation freezes, a stall leaves all as it was, and a
park takes the seat out of the scan (11 R281) and clears its skip counter (11 R285). -/
def State.stop (s : State) (sid : Nat) (e : Stop) : State :=
  match e with
  | .trap r => s.raise sid r
  | .freeze v => s.freezeSeat sid v
  | .stall => { s with stalled := true }
  | .park p cls =>
    let u := s.seat sid
    let t := if cls then { u.dropLatches with held := some (u.lat, u.latpois) } else u
    s.setSeat sid { t with status := .parked p, skip := 0 }
  | .after s1 e => s1.stop sid e

/-- The outcome of a slot's run: the state it leads to, or what its stop leads to. -/
def State.close (s : State) (sid : Nat) : Except Stop State → Host.Outcome State Fault Refusal
  | .ok s' => .next s'
  | .error e => .next (s.stop sid e)

/-- Runs a slot's body on the seat whose slot moves (log 2). -/
def State.run (s : State) (body : Nat → Seat → Except Stop State) : Host.Outcome State Fault Refusal :=
  let t := s.seat s.cur
  if t.resident then s.close s.cur (body s.cur t) else .fault (.noSeat s.cur)

end Sys2Proof.Machine
end

