-- ==== Sys2Proof/Machine/Packet.lean ====
section
/-! DEFINITION. Packets of 64 bytes and their fields (09 R257, R261; 10 R264), the table of accepted copy packets, and
the spawn bins of a core (10 R275). -/
namespace Sys2Proof.Machine

/-! ### Fields -/

/-- The `n` bytes at an offset of a packet, little-endian; no field crosses an 8-byte word but those read as words. -/
def pktField (p : Vector Word 8) (o n : Nat) : Nat := (vget 0 p (o / 8)).toNat / 2 ^ (8 * (o % 8)) % 2 ^ (8 * n)
/-- The 8-byte word at an offset. -/
def pktWord (p : Vector Word 8) (o : Nat) : Word := vget 0 p (o / 8)
/-- A 4-byte signed field. -/
def pktInt (p : Vector Word 8) (o : Nat) : Int := (BitVec.ofNat 32 (pktField p o 4)).toInt

/-- KIND or CMD. -/
def pktKind (p : Vector Word 8) : Nat := pktField p 0 1
/-- FLAGS.SSP and FLAGS.DSP (09 R257). -/
def pktSsp (p : Vector Word 8) : Bool := pktField p 1 1 % 2 == 1
def pktDsp (p : Vector Word 8) : Bool := pktField p 1 1 / 2 % 2 == 1
/-- LEN and ROWS (09 R257). -/
def pktLen (p : Vector Word 8) : Nat := pktField p 4 4
def pktRows (p : Vector Word 8) : Nat := pktField p 0x18 4

/-! ### The table of accepted packets (09 R258) -/

/-- The packet with a number. -/
def State.packet (s : State) (n : Nat) : Option Packet := Sparse.get none s.packets n
/-- A packet put, or taken from the table. -/
def State.setPacket (s : State) (n : Nat) (k : Option Packet) : State :=
  { s with packets := Sparse.set none s.packets n k }

/-- The FEED bound to a head is unbound when the head exits: what it has not pushed is never read (09 R258). -/
def State.unbind (s : State) (k : Nat) : State :=
  let r := s.row k
  match r.feed with
  | none => s
  | some n =>
    let s1 := s.setRow k { r with feed := none, north := [] }
    match s1.packet n with
    | none => s1
    | some p => s1.setPacket n (some { p with row := pktRows p.pkt, head := none })

/-! ### Spawn bins (10 R275) -/

/-- A bin of a core, and a bin replaced. -/
def State.bin (s : State) (core b : Nat) : SpawnBin := vget {} (s.core core).bins b
def State.setBin (s : State) (core b : Nat) (x : SpawnBin) : State :=
  let u := s.core core
  s.setCore core { u with bins := vset u.bins b x }

/-- The pairs held become the pending row; none where one waits already. -/
def SpawnBin.flush (x : SpawnBin) : Option SpawnBin :=
  if x.args = [] then some x
  else if x.pending.isSome then none
  else some { x with args := [], pending := some (x.launch, x.entry, x.args) }

/-- A pair put into a bin at a TIME with a timer length; none where a row must be made and one waits already. -/
def SpawnBin.add (x : SpawnBin) (now bint launch : Nat) (entry arg : Word) : Option SpawnBin := do
  let y ← if x.launch = launch ∧ x.entry = entry then some x else x.flush
  let z : SpawnBin := if y.args = [] then { y with launch := launch, entry := entry, args := [arg], fire := now + bint }
    else { y with args := y.args ++ [arg] }
  if z.args.length < 64 then some z else z.flush

/-- A row of a launch on a core has not exited. -/
def State.launchOnCore (s : State) (core launch : Nat) : Bool :=
  s.seats.any (fun e => sidCore e.1 == core && launchKey e.2.bind.part e.2.bind.lid == launch &&
    e.2.resident && !decide (e.2.status = .exited))

/-- Bins of launches with no unexited row left on a core turn their pairs into pending rows (10 R275). -/
def State.flushEnded (s : State) (core : Nat) : State :=
  (List.range 16).foldl (fun s b =>
    let x := s.bin core b
    if x.args = [] ∨ s.launchOnCore core x.launch then s
    else match x.flush with
      | some y => s.setBin core b y
      | none => s) s

end Sys2Proof.Machine
end

