-- ==== Sys2Proof/Machine/Spad.lean ====
section
/-! DEFINITION. Scratchpad addresses and their checks (07 R178 to R187), and reading and writing the slices. -/
namespace Sys2Proof.Machine

/-- A core is usable: the speed table does not mark it (11 R288, 01 R28). -/
def State.usable (s : State) (core : Nat) : Bool := !decide ((vget 0 s.steps core).toNat = 0x3F)

/-- The partition owns the grid die of a core (01 R15, 13 R320). -/
def State.owns (s : State) (p core : Nat) : Bool := (s.part p).dies.getLsbD (core / 8)

/-- The key of a scratchpad byte: its core and offset. -/
def spadKey (core off : Nat) : Nat := core * 2 ^ 24 + off

/-- Decodes an effective address for a seat, or the violation's code, by the cases of 07 R178, R179 in order. -/
def State.spadDecode (s : State) (core : Nat) (t : Seat) (ea : Int) : Except Nat Nat :=
  if ea < 0 ∨ ea ≥ 2 ^ 32 then .error vSPAD_HOLE
  else
    let a := ea.toNat
    let off := a % 2 ^ 24
    let hole (c : Nat) : Except Nat Nat := if off ≥ 0xC00000 then .error vSPAD_HOLE else .ok (spadKey c off)
    match a / 2 ^ 30 with
    | 2 => if a / 2 ^ 24 % 64 ≠ 0 then .error vSPAD_HOLE else hole core
    | 1 =>
      if a / 2 ^ 28 % 4 ≠ 0 then .error vSPAD_HOLE
      else
        match (s.launchOf t).bind (fun l => l.roles[a / 2 ^ 24 % 16]?) with
        | none => .error vSPAD_HOLE
        | some c => hole c
    | 0 =>
      let c := a / 2 ^ 24 % 64
      if !t.hl then .error vPHYS_ADDR
      else if !s.owns t.bind.part c then .error vPARTITION_BOUND
      else if !s.usable c then .error vSPAD_HOLE
      else hole c
    | _ => .error vSPAD_HOLE

/-- The lines that `n` bytes from a key touch. -/
def linesOf (k n : Nat) : List Nat :=
  (List.range ((k + n - 1) / 128 + 1 - k / 128)).map (fun i => k / 128 + i)

/-- A line is absent, or poisoned (07 R184). -/
def State.isAbsent (s : State) (line : Nat) : Bool := Sparse.get false s.absent line
def State.isPois (s : State) (line : Nat) : Bool := Sparse.get false s.spois line

/-- The mask of the lanes in a list. -/
def laneMask (ls : List Nat) : Word := ls.foldl (fun m l => m ||| (1#64 <<< l)) 0

/-- One access of a lane: the lane, its effective address. -/
abbrev LaneAddr := Nat × Int

/-- The violations of a list of lane addresses: the failing lanes with their codes and addresses, lowest first. -/
def State.spadVios (s : State) (core : Nat) (t : Seat) (as : List LaneAddr) : List (Nat × Nat × Int) :=
  as.filterMap (fun (l, ea) => match s.spadDecode core t ea with
    | .error c => some (l, c, ea)
    | .ok _ => none)

/-- The keys of lane addresses that have no violation. -/
def State.spadKeys (s : State) (core : Nat) (t : Seat) (as : List LaneAddr) : List (Nat × Nat) :=
  as.filterMap (fun (l, ea) => match s.spadDecode core t ea with
    | .error _ => none
    | .ok k => some (l, k))

/-- The freeze that a nonempty list of violations makes: the lowest lane's code and address, every distinct code, and
the mask of the failing lanes, those of `more` among them (07 R180, 13 R332). -/
def vioFreezeWith (vs : List (Nat × Nat × Int)) (more : Word) : Except Stop Unit :=
  match vs with
  | [] => .ok ()
  | (_, c, ea) :: _ =>
    .error (.freeze
      { code := c, codes := vs.foldl (fun m v => m ||| codeBit v.2.1) 0, addr := BitVec.ofInt 64 ea
        lanes := more ||| laneMask (vs.map (fun v => v.1)) })

/-- The same where only the violating lanes fail. -/
def vioFreeze (vs : List (Nat × Nat × Int)) : Except Stop Unit := vioFreezeWith vs 0

/-- A trap over failing lanes, with the lowest one's address (14 R345). -/
def laneTrap (code : Nat) (write : Bool) (bad : List LaneAddr) : Except Stop Unit :=
  match bad with
  | [] => .ok ()
  | (_, ea) :: _ =>
    .error (.trap { code := code, lanes := laneMask (bad.map (fun v => v.1)), addr := BitVec.ofInt 64 ea, write := write })

/-- DIE_FENCED for accesses to the scratchpad of a fenced die (14 R365). -/
def State.spadFenced (s : State) (as : List LaneAddr) (keys : List (Nat × Nat)) (write : Bool) : Except Stop Unit :=
  let fen := (as.zip keys).filter (fun p => s.fenced.getLsbD (p.2.2 / 2 ^ 24 / 8))
  match fen with
  | [] => .ok ()
  | ((_, ea), (_, k)) :: _ =>
    .error (.trap { code := cDIE_FENCED, lanes := laneMask (fen.map (fun p => p.1.1)), addr := BitVec.ofInt 64 ea
                    write := write, aux := k / 2 ^ 24 / 8 })

/-- The stores that a row's tail sink has still to make, oldest first: each one's lanes and the keys of their first bytes
(06 R172). -/
def PortSlot.sinkKeys : PortSlot → List (Nat × Nat)
  | .reserved _ k => k.getD []
  | .filled e => e.sink.getD []
def RowUnit.sinkLeft (r : RowUnit) : List (Nat × Nat) := r.south.flatMap PortSlot.sinkKeys

/-- The seat is its string's tail, whose port writes its sink stores; the stores it has still to make. -/
def State.sinkLeft (s : State) (sid : Nat) (t : Seat) : List (Nat × Nat) :=
  if t.bind.ports && t.bind.srow + 1 == t.bind.slen then (s.row (sid / 4)).sinkLeft else []

/-- An access of the seat overlaps a store that its row's tail sink has still to make (08 R205). -/
def State.behindSink (s : State) (sid : Nat) (t : Seat) (keys : List (Nat × Nat)) (n : Nat) : Bool :=
  (s.sinkLeft sid t).any (fun x => keys.any (fun k => decide (x.2 < k.2 + n) && decide (k.2 < x.2 + 8)))

/-- The checks of 07 R180 in order, up to presence, over the addresses of a seat's active lanes, each of `n` bytes that
must be aligned to `align`: violations, alignment, a fenced die (14 R365), absence. Answers each lane's key. -/
def State.spadReach (s : State) (sid : Nat) (t : Seat) (as : List LaneAddr) (n align : Nat) (write cls : Bool) :
    Except Stop (List (Nat × Nat)) := do
  vioFreeze (s.spadVios (sidCore sid) t as)
  laneTrap cMISALIGN_DATA write (as.filter (fun a => a.2.toNat % align ≠ 0))
  let keys := s.spadKeys (sidCore sid) t as
  s.spadFenced as keys write
  let abs := (keys.flatMap (fun k => linesOf k.2 n)).filter s.isAbsent
  if abs ≠ [] then .error (.park (.lines abs.eraseDups) cls)
  return keys

/-- The last check of 07 R180: a poisoned line under a lane. -/
def State.spadPois (s : State) (as : List LaneAddr) (keys : List (Nat × Nat)) (n : Nat) : Except Stop Unit :=
  laneTrap cPOISON false (((as.zip keys).filter (fun p => (linesOf p.2.2 n).any s.isPois)).map (fun p => p.1))

/-- The checks of 07 R180, with the row's own stores that are still queued before the last (08 R205). -/
def State.spadCheck (s : State) (sid : Nat) (t : Seat) (as : List LaneAddr) (n align : Nat) (write poison : Bool)
    (cls : Bool) : Except Stop (List (Nat × Nat)) := do
  let keys ← s.spadReach sid t as n align write cls
  if s.behindSink sid t keys n then .error .stall
  if poison then s.spadPois as keys n
  return keys

/-- The ranges (first byte, length) cover every byte of a line. -/
def covers (rs : List (Nat × Nat)) (line : Nat) : Bool :=
  (List.range 128).all (fun i => rs.any (fun r => r.1 ≤ line * 128 + i && line * 128 + i < r.1 + r.2))

/-- Stores by one instruction or one sink entry: each the key, the bytes, the value. A line all of whose bytes they
write loses its poison mark (07 R187). -/
def State.spadStore (s : State) (ws : List (Nat × Nat × Nat)) : State :=
  let rs := ws.map (fun w => (w.1, w.2.1))
  let full := ((ws.flatMap (fun w => linesOf w.1 w.2.1)).eraseDups).filter (fun l => s.isPois l && covers rs l)
  { s with
    spad := ws.foldl (fun m w => m.write w.1 w.2.1 w.2.2) s.spad
    spois := full.foldl (fun m l => Sparse.set false m l false) s.spois }

/-- A line's presence bit set or cleared (07 R185). -/
def State.setAbsent (s : State) (line : Nat) (b : Bool) : State :=
  { s with absent := Sparse.set false s.absent line b }

/-- A line's poison bit set or cleared (07 R187). -/
def State.setPois (s : State) (line : Nat) (b : Bool) : State :=
  { s with spois := Sparse.set false s.spois line b }

end Sys2Proof.Machine
end

