-- ==== Sys2Proof/Machine/Operands.lean ====
section
/-! DEFINITION. Operands: every source code of a lane slot and of a uniform slot (02 R53), latches (02 R59), dead
registers (02 R61, R62), poisoned parts (14 R346), the ports as operands (06 R168 to R172, R176), immediates
(02 R55, R66), and writing a result (02 R52, R58). -/
namespace Sys2Proof

/-! ### Source codes and destinations (02 R52, R53) -/

/-- A source code that raises ILLEGAL_OP in a slot of the kind (02 R53). -/
def Src.illegal (uni : Bool) (a : Src) : Bool :=
  let n := a.n.toNat
  if a.l then a.lu || (decide (7 ≤ n) && decide (n ≤ 15)) || (uni && decide (4 ≤ n) && decide (n ≤ 6))
  else a.lu && decide (n = 31)

/-- The source is np or npk. -/
def Src.isNp (a : Src) : Bool := a.l && a.n == 4
def Src.isNpk (a : Src) : Bool := a.l && a.n == 5
def Src.isPort (a : Src) : Bool := a.isNp || a.isNpk
/-- The source is a latch: its number. -/
def Src.latch (a : Src) : Option Nat := if a.l && decide (a.n.toNat < 4) then some a.n.toNat else none
/-- The scalar register a source reads in a slot of the kind (02 R53). -/
def Src.sreg (uni : Bool) (a : Src) : Option Nat :=
  let n := a.n.toNat
  if a.l then (if 16 ≤ n then some (n - 16) else none)
  else if uni && decide (n < 31) then some n else none
/-- The lane register a source reads in a lane slot (02 R53). -/
def Src.xreg (uni : Bool) (a : Src) : Option Nat :=
  let n := a.n.toNat
  if !a.l && !uni && decide (n < 31) then some n else none

/-- The register number of a source, for TINFOD.REG, and whether it is a scalar. -/
def Src.regInfo (uni : Bool) (a : Src) : Nat × Bool :=
  match a.sreg uni with
  | some n => (n, true)
  | none => (a.n.toNat, false)

/-- The destination is the south port (02 R52): DR = 31 in a lane slot. -/
def Dst.isSp (d : Dst) (uni : Bool) : Bool := !uni && d.dr == 31

end Sys2Proof

namespace Sys2Proof.Machine

/-! ### The checks of a slot (02 R50) -/

/-- Reading the latch raises STALE_LATCH (02 R59). -/
def Seat.latchBad (t : Seat) (uni : Bool) (k : Nat) : Bool :=
  match vget .invalid t.lat k with
  | .invalid => true
  | .lane _ => uni
  | .scalar _ => false

/-- The first source whose latch cannot be read: STALE_LATCH with its number (02 R59). -/
def staleCheck (t : Seat) (uni : Bool) (srcs : List Src) : Except Stop Unit :=
  match (srcs.filterMap Src.latch).find? (t.latchBad uni) with
  | some k => .error (.trap { code := cSTALE_LATCH, reg := k })
  | none => .ok ()

/-- The lanes of `mask` in which a register part carries a mark; the whole mask for a marked scalar. -/
def srcMarks (uni : Bool) (xm : Nat → Word) (sm : Nat → Bool) (mask : Word) (a : Src) : Word :=
  match a.sreg uni, a.xreg uni with
  | some n, _ => if sm n then mask else 0
  | none, some n => xm n &&& mask
  | none, none => 0

/-- The lanes that read a source dead (02 R62). -/
def Seat.deadIn (t : Seat) (uni : Bool) (mask : Word) (a : Src) : Word :=
  srcMarks uni (fun n => vget 0 t.xdead n) (fun n => t.sdead.getLsbD n) mask a

/-- The lanes that read a poisoned part of a register or latch (14 R346). -/
def Seat.poisIn (t : Seat) (uni : Bool) (mask : Word) (a : Src) : Word :=
  match a.latch with
  | some k => vget 0 t.latpois k &&& mask
  | none => srcMarks uni (fun n => vget 0 t.xpois n) (fun n => t.spois.getLsbD n) mask a

/-- DEAD_REG for the first source read dead, while MODE.DEADTRAP is set (02 R62); each source comes with the lanes whose
part is read. -/
def deadCheck (t : Seat) (uni : Bool) (srcs : List (Src × Word)) : Except Stop Unit :=
  if !t.deadTrap then .ok ()
  else
    match srcs.find? (fun a => !decide (t.deadIn uni a.2 a.1 = 0)) with
    | some (a, m) =>
      .error (.trap { code := cDEAD_REG, lanes := t.deadIn uni m a, reg := (a.regInfo uni).1, sreg := (a.regInfo uni).2 })
    | none => .ok ()

/-- POISON for the first source with a poisoned part (14 R346). -/
def poisCheck (t : Seat) (uni : Bool) (srcs : List (Src × Word)) : Except Stop Unit :=
  match srcs.find? (fun a => !decide (t.poisIn uni a.2 a.1 = 0)) with
  | some (a, m) =>
    .error (.trap { code := cPOISON, lanes := t.poisIn uni m a, reg := (a.regInfo uni).1, sreg := (a.regInfo uni).2 })
  | none => .ok ()

/-- POISON for a mask register with an uncorrectable error (14 R346). -/
def maskPois (t : Seat) (ms : List Nat) : Except Stop Unit :=
  match ms.find? (fun n => t.mpois.getLsbD n) with
  | some n => .error (.trap { code := cPOISON, reg := n })
  | none => .ok ()

/-- The mask registers that govern the slot: m0, which launched its lanes, and the guard if there is one (12 R295;
log 41). -/
def Seat.guardMask (t : Seat) : List Nat :=
  let mk := (t.modw.extractLsb' 3 3).toNat
  let g := if mk = 0 then t.guard else mk
  if g = 0 then [0] else [0, g]

/-- The checks of 02 R50 that every instruction makes, in order: ILLEGAL_OP (the instruction's own cause, MOD's, a
source code's), ILLEGAL_TYPE, STALE_LATCH, DEAD_REG, PORT_UNBOUND; then what the instruction's own description puts
beside these rows (`mid`: 14 R347, 06 R173); then poisoned registers (14 R346).
Each source comes with the lanes whose part is read; `also` are registers read beside them, each with the kind of slot
whose code it is, and `masks` the mask registers. -/
def Seat.check (t : Seat) (sid : Nat) (uni illegal badType port : Bool) (srcs : List (Src × Word))
    (also : List (Bool × Src × Word) := []) (mid : Except Stop Unit := .ok ())
    (masks : List Nat := if uni then [] else t.guardMask) : Except Stop Unit := do
  let ss := srcs.map (fun p => p.1)
  trapIf (illegal || t.modIllegal || ss.any (Src.illegal uni)) { code := cILLEGAL_OP }
  trapIf (badType || decide ((t.ety).toNat ≥ 14)) { code := cILLEGAL_TYPE }
  staleCheck t uni ss
  deadCheck t uni srcs
  also.forM (fun a => deadCheck t a.1 [a.2])
  trapIf ((port || ss.any Src.isPort) && (decide (sidSeat sid ≠ 0) || !t.bind.ports)) { code := cPORT_UNBOUND }
  mid
  poisCheck t uni srcs
  also.forM (fun a => poisCheck t a.1 [a.2])
  maskPois t masks

/-! ### Source values -/

/-- A source's value in a lane, `np` being the port entry read, and a dead register's value a free one (02 R62):
`k` tells this operand's free values from another's. -/
def State.srcLane (s : State) (t : Seat) (uni : Bool) (np : Lanes Word) (k : Nat) (a : Src) (l : Nat) : Word :=
  let n := a.n.toNat
  match a.sreg uni, a.xreg uni with
  | some r, _ => if t.sdead.getLsbD r then s.free (64 * k) else t.sr r
  | none, some r => if (vget 0 t.xdead r).getLsbD l then s.free (64 * k + l) else t.xr r l
  | none, none =>
    if !a.l then 0
    else if n < 4 then
      match vget Latch.invalid t.lat n with
      | .invalid => 0
      | .lane v => vget 0 v l
      | .scalar w => w
    else if n = 6 then BitVec.ofNat 64 l
    else vget 0 np l

/-- A source's values in all lanes. -/
def State.srcVal (s : State) (t : Seat) (uni : Bool) (np : Lanes Word) (k : Nat) (a : Src) : Lanes Word :=
  tab 64 (s.srcLane t uni np k a)

/-- A scalar operand's value (12 R293); `k` tells this operand's free value from another's. -/
def State.scalar (s : State) (t : Seat) (a : Src) (k : Nat := 0) : Word := s.srcLane t true (vrep 64 0) k a 0

/-- The registers whose source codes carry LU become dead in the lanes that read (02 R61). -/
def Seat.lastUse (t : Seat) (uni : Bool) (mask : Word) (srcs : List Src) : Seat :=
  srcs.foldl (fun t a =>
    if !a.lu then t
    else match a.sreg uni, a.xreg uni with
      | some n, _ => { t with sdead := t.sdead ||| (1#31 <<< n) }
      | none, some n => { t with xdead := vset t.xdead n (vget 0 t.xdead n ||| mask) }
      | none, none => t) t

/-- How many free values a slot's operands have used: none where no register was read dead. -/
def Seat.freeUsed (t : Seat) (uni : Bool) (srcs : List (Src × Word)) : Nat :=
  if srcs.any (fun a => !decide (t.deadIn uni a.2 a.1 = 0)) then 64 * 5 else 0

/-! ### Matrix windows (06 R161) -/

/-- An item's operand groups hold xn (`x`) or sn. -/
def MatItem.reads (i : MatItem) (x : Bool) (n : Nat) : Bool :=
  let has (g : OpGroup) : Bool := match g with
    | .xregs r => x && decide (r ≤ n) && decide (n < r + i.ngroup)
    | .sregs r => !x && decide (r ≤ n) && decide (n < r + i.ngroup)
    | .vals _ => false
  has i.a || has i.b

/-- The item writes accumulator `n` of the allocation. -/
def MatItem.writes (i : MatItem) (n : Nat) : Bool :=
  !decide (i.kind = .mdotp) && decide (i.acc ≤ n) && decide (n < i.acc + i.count)

/-- The physical row below: over a die edge, row 0 of the core to the south (01 R16). -/
def rowBelow (k : Nat) : Nat := if k % 64 = 63 then (k / 64 + 8) * 64 else k + 1
/-- The physical row above (01 R25): over a die edge, row 63 of the core to the north. -/
def rowAbove (k : Nat) : Nat := if k % 64 = 0 then (k / 64 - 8) * 64 + 63 else k - 1

/-- The lanes of an accumulator that the items of a list, done in this order, leave undefined, `hit` being those whose
operands were touched: what AZERO or APUT writes over it is defined again (06 R161, R164, R165). -/
def blurred (hit : MatItem → Bool) (a : Nat) (is : List MatItem) : Word :=
  is.foldl (fun m i =>
    if !i.writes a then m
    else if hit i then m ||| i.mask
    else match i.kind with
      | .azero | .aput => m &&& ~~~i.mask
      | _ => m) 0

/-- The lanes in which an item's result is undefined once its operands are touched: in every lane of its entry, or of the
accumulator that it writes (06 R156, R161). -/
def MatItem.allLanes (i : MatItem) : Word := if i.kind = .mdotp then BitVec.allOnes 64 else i.mask

/-- A port entry made undefined where it came from one of the items (06 R161), with free values of its own. -/
def PortEntry.blur (s : State) (ids : List Nat) (e : PortEntry) : PortEntry :=
  match e.item.bind (fun i => ids.idxOf? i) with
  | some j => { e with v := tab 64 (fun l => s.free (64 * (128 + j) + l)) }
  | none => e

/-- A write to an operand register touches the seat's items (06 R161): those not yet done end with an undefined
result, and the accumulators and unread port entries of those done become undefined at once, unless later matrix work
has written over them; an item that is adding to such an accumulator ends undefined there. -/
def State.touch (s : State) (sid : Nat) (x : Bool) (n : Nat) : State :=
  let k := sid / 4
  let r := s.row k
  let hit (i : MatItem) : Bool := i.seat == sidSeat sid && i.reads x n
  if !r.mat.any hit then s
  else
    let t := s.seat sid
    let mine := r.mat.filter (fun i => i.seat == sidSeat sid && decide (i.steps ≤ i.done))
    let ids := (mine.filter (fun i => hit i && decide (i.kind = .mdotp))).map (fun i => i.id)
    let lost (a : Nat) : Word := blurred hit a mine
    let acc := tab 128 (fun a =>
      let m := lost a
      if m = 0 then vget (vrep 64 0) t.acc a
      else tab 64 (fun l => if m.getLsbD l then (s.free (64 * a + l)).truncate 32 else t.ar a l))
    let s1 := s.setSeat sid { t with acc := acc }
    let running (i : MatItem) : Bool :=
      i.seat == sidSeat sid && decide (i.kind = .mdot) && decide (0 < i.done) && decide (i.done < i.steps)
    let s2 := s1.setRow k
      { r with
        mat := r.mat.map (fun i =>
          if hit i then { i with undef := i.allLanes }
          else if running i then { i with undef := i.undef ||| (lost i.acc &&& i.mask) }
          else i)
        south := r.south.map (fun x => match x with
          | .filled e => .filled (e.blur s ids)
          | x => x) }
    let s3 := if k % 64 = 63 ∧ ids ≠ [] then
        let b := s2.row (rowBelow k)
        s2.setRow (rowBelow k) { b with north := b.north.map (fun e => e.blur s ids) }
      else s2
    s3.useFree (64 * (128 + ids.length))

/-- xn written in the lanes of `mask`, with the windows it touches (02 R62, 06 R161). -/
def State.writeX (s : State) (sid n : Nat) (mask : Word) (v : Nat → Word) : State :=
  (s.setSeat sid ((s.seat sid).putX n mask v)).touch sid true n

/-- sn written, with the windows it touches (06 R161). -/
def State.writeS (s : State) (sid n : Nat) (v : Word) : State :=
  (s.setSeat sid ((s.seat sid).putS n v)).touch sid false n

/-! ### Ports -/

/-- The row is its string's head, or its tail (01 R27). -/
def Seat.isHead (t : Seat) : Bool := t.bind.srow == 0
def Seat.isTail (t : Seat) : Bool := t.bind.srow + 1 == t.bind.slen

/-- What the north port offers: zeros without blocking, an entry, or nothing yet (06 R168 to R171). -/
inductive NorthView where
  | zeros
  | entry (e : PortEntry)
  | none
  deriving DecidableEq, Repr

/-- The entries of the port's own buffer stand at this row's north edge: a head (FEED) or a row below a die edge. -/
def northOwn (t : Seat) (k : Nat) : Bool := t.isHead || decide (k % 64 = 0)

/-- The slots that wait for this row, oldest first, with those not yet filled as none. -/
def State.northSlots (s : State) (t : Seat) (k : Nat) : List (Option PortEntry) :=
  if northOwn t k then ((s.row k).north).map some
  else if (s.row k).prodGone then []
  else ((s.row (rowAbove k)).south).map (fun x => match x with
    | .reserved _ _ => none
    | .filled e => some e)

/-- The producer of a row below a die edge still holds entries that have not crossed. -/
def State.crossingLeft (s : State) (t : Seat) (k : Nat) : Bool :=
  !t.isHead && decide (k % 64 = 0) && !(s.row k).prodGone && !(s.row (rowAbove k)).south.isEmpty

/-- What a read of the north port sees (06 R169 to R171, R176): on a severed path, a read that would block raises
PORT_BROKEN. -/
def State.north (s : State) (sid : Nat) (t : Seat) : Except Stop NorthView :=
  let k := sid / 4
  let r := s.row k
  let block : Except Stop NorthView := if r.severedN then .error (.trap { code := cPORT_BROKEN }) else .ok .none
  if t.isHead && r.feed.isNone && r.north.isEmpty then .ok .zeros
  else
    match s.northSlots t k with
    | some e :: _ =>
      if e.ready ≤ (s.core (sidCore sid)).clkc then .ok (.entry e)
      else block
    | none :: _ => block
    | [] => if r.prodExited && !s.crossingLeft t k then .ok .zeros else block

/-- Every entry of a FEED has been pushed (09 R258). -/
def State.feedDone (s : State) (n : Nat) : Bool :=
  match s.packet n with
  | some k => decide (pktRows k.pkt ≤ k.row)
  | none => false

/-- The FEED of a head's path once an entry has been popped: bound until its last one is (06 R170). -/
def State.feedLeft (s : State) (r : RowUnit) : Option Nat :=
  match r.feed with
  | some n => if r.north.tail.isEmpty && s.feedDone n then none else some n
  | none => none

/-- The oldest north entry leaves the path; a FEED whose last entry it was is no longer bound (06 R170). -/
def State.popNorth (s : State) (sid : Nat) (t : Seat) : State :=
  let k := sid / 4
  if northOwn t k then let r := s.row k; s.setRow k { r with north := r.north.tail, feed := s.feedLeft r }
  else let r := s.row (rowAbove k); s.setRow (rowAbove k) { r with south := r.south.tail }

/-- Reads the port for an instruction that names np or npk: the value, its error marks, and the state with the entry
popped where `pop` (06 R169); a stall while nothing is readable. -/
def State.readNorth (s : State) (sid : Nat) (t : Seat) (pop : Bool) : Except Stop (PortEntry × State) := do
  match ← s.north sid t with
  | .zeros => return ({ v := vrep 64 0, act := 0, ready := 0 }, s)
  | .entry e => return (e, if pop then s.popNorth sid t else s)
  | .none => .error .stall

/-- The effective address of lane `l` of the sink's next entry (06 R172). -/
def TailSink.addr (k : TailSink) (l : Nat) : Int :=
  ((k.a.extractLsb' 0 32).toNat : Int) + (k.i.toNat : Int) * (k.b.extractLsb' 0 32).toInt + 8 * (l : Int)

/-- The sink's index after an entry (06 R172: modulo COUNT when COUNT is not 0). -/
def TailSink.step (k : TailSink) : TailSink :=
  let cnt := (k.b.extractLsb' 32 16).toNat
  { k with i := if cnt = 0 then k.i + 1 else BitVec.ofNat 32 ((k.i.toNat + 1) % cnt) }

/-- The lanes set in a mask, lowest first. -/
def lanesOf (m : Word) : List Nat := (List.range 64).filter (fun l => m.getLsbD l)

/-- Where a tail's next entry goes: its lanes' keys, after the checks of 06 R172; none while the sink is disabled. -/
def State.sinkKeys (s : State) (sid : Nat) (t : Seat) (act : Word) : Except Stop (Option (List (Nat × Nat))) :=
  if t.tail.on then do
    let as := (lanesOf act).map (fun l => (l, t.tail.addr l))
    vioFreeze (s.spadVios (sidCore sid) t as)
    return some (s.spadKeys (sidCore sid) t as)
  else return none

/-- The lines that an entry's poisoned parts are stored to (14 R346, 07 R187). -/
def PortEntry.poisLines (e : PortEntry) (ks : List (Nat × Nat)) : List Nat :=
  (ks.filter (fun x => e.pois.getLsbD x.1)).flatMap (fun x => linesOf x.2 8)

/-- Stores the oldest entry of a tail's FIFO where it is filled, its lines are present and its seat is not frozen (06
R172, 08 R233): the state with the entry gone, or none. A poisoned part leaves its line poisoned. -/
def State.sinkStore (s : State) (k : Nat) : Option State :=
  let r := s.row k
  if !(s.seat (4 * k)).isTail || decide ((s.seat (4 * k)).status = .frozen) then none
  else match r.south with
  | .filled e :: rest =>
    match e.sink with
    | some ks =>
      if (ks.flatMap (fun x => linesOf x.2 8)).any s.isAbsent then none
      else
        let s1 := s.spadStore (ks.map (fun x => (x.2, 8, (vget 0 e.v x.1).toNat)))
        some (((e.poisLines ks).foldl (fun (s : State) l => s.setPois l true) s1).setRow k { r with south := rest })
    | none => some (s.setRow k { r with south := rest })
  | _ => none

/-- Where a write to the south port goes. -/
inductive SouthView where
  | discard
  | tail
  | push
  deriving DecidableEq, Repr

/-- The fate of a south-port write (06 R169, R171, R172, R176): PORT_BROKEN, a stall on a full FIFO, or where it goes. -/
def State.south (s : State) (sid : Nat) (t : Seat) : Except Stop SouthView :=
  let r := s.row (sid / 4)
  if t.isTail then
    if !t.tail.on then .ok .discard
    else if r.south.length ≥ 8 then .error .stall else .ok .tail
  else if r.consExited then .ok .discard
  else if r.severedS then .error (.trap { code := cPORT_BROKEN, south := true })
  else if r.south.length ≥ 8 then .error .stall
  else .ok .push

/-- Writes one entry to the south port (06 R169, R172): `act` are the lanes active for the write, and the others hold
zero. A tail's entry is stored at once where nothing waits before it and its lines are present. -/
def State.writeSouth (s : State) (sid : Nat) (t : Seat) (act : Word) (v : Nat → Word) (pois : Word := 0) :
    Except Stop State := do
  let k := sid / 4
  let keys ← if t.isTail then s.sinkKeys sid t act else .ok none
  let e : PortEntry := { v := merge act v (fun _ => 0), act := act, pois := pois &&& act
                         ready := (s.core (sidCore sid)).clkc + 2, sink := keys }
  match ← s.south sid t with
  | .discard => return s
  | .tail =>
    let s := s.setSeat sid { s.seat sid with tail := (s.seat sid).tail.step }
    let r := s.row k
    let s := s.setRow k { r with south := r.south ++ [.filled e] }
    return if r.south.isEmpty then (s.sinkStore k).getD s else s
  | .push =>
    let r := s.row k
    return s.setRow k { r with south := r.south ++ [.filled e] }

/-! ### Immediates -/

/-- The immediate of an I-form instruction (02 R55). -/
def Seat.imm (t : Seat) (i : BitVec 18) : Word :=
  match t.pximm with
  | none => i.signExtend 64
  | some x => (x ++ i).signExtend 64

/-- The operand that XIMM gives in place of SB where SB is a whole register (02 R66). -/
def immWhole (x : BitVec 24) : Word := x.signExtend 64

/-- The width in bits of an element type (02 R64). -/
def tyBits (ty : BitVec 4) : Nat :=
  match ty.toNat with
  | 0 | 4 | 10 => 8
  | 1 | 5 | 8 | 11 => 16
  | 2 | 6 | 9 | 12 => 32
  | 13 => 4
  | _ => 64

/-- `64 / w` copies of the low `w` bits of a value. -/
def spread (w : Nat) (v : Nat) : Word :=
  BitVec.ofNat 64 ((List.range (64 / w)).foldl (fun acc i => acc + v % 2 ^ w * 2 ^ (w * i)) 0)

/-- The operand that XIMM gives in place of SB where SB is elements of a type (02 R66). -/
def immElems (ty : BitVec 4) (x : BitVec 24) : Word :=
  match ty.toNat with
  | 9 | 12 => spread 32 (x.toNat * 256)
  | 2 | 6 => spread 32 (x.signExtend 32).toNat
  | 3 | 7 => x.signExtend 64
  | _ => spread (tyBits ty) x.toNat

/-! ### Results -/

/-- A lane result's latch entry and register value: the result in the lanes of `act`; elsewhere the previous value, a
free value where that register is dead (02 R58, R62), or zero. -/
def State.laneEntry (s : State) (t : Seat) (n : Nat) (zero : Bool) (act : Word) (v : Nat → Word) : Lanes Word :=
  merge act v (fun l =>
    if zero ∨ n = 31 then 0
    else if (vget 0 t.xdead n).getLsbD l then s.free (64 * 4 + l) else t.xr n l)

/-- A value-producing lane slot's result goes to its destination and enters the latches (02 R52, R58); `zero` tells
whether the other lanes are zeroed. `t` is the seat as the slot found it; `s` already holds the effects of its reads. -/
def State.putLaneZ (s : State) (sid : Nat) (t : Seat) (d : Dst) (zero : Bool) (act : Word) (v : Nat → Word) :
    Except Stop State := do
  let n := d.dr.toNat
  let e := s.laneEntry t n zero act v
  let s ←
    if n = 31 then (if d.nw then .ok s else s.writeSouth sid t act v)
    else if d.nw then .ok s
    else .ok (s.writeX sid n (if zero then BitVec.allOnes 64 else act) (fun l => vget 0 e l))
  return s.setSeat sid ((s.seat sid).shift (.lane e))

/-- The same, under the effective merge or zero (02 R65). -/
def State.putLane (s : State) (sid : Nat) (t : Seat) (d : Dst) (act : Word) (v : Nat → Word) : Except Stop State :=
  s.putLaneZ sid t d t.ezero act v

/-- A value-producing uniform slot's result, or a scalar destination's (02 R52, R58; 12 R293). -/
def State.putScalar (s : State) (sid : Nat) (d : Dst) (v : Word) : State :=
  let s := if d.nw then s else s.writeS sid d.dr.toNat v
  s.setSeat sid ((s.seat sid).shift (.scalar v))

/-- The slot is done and the row goes to its next. -/
def State.next (s : State) (sid : Nat) : State := s.setSeat sid (s.seat sid).advance

/-- Reads the north port where a source names it; otherwise zeros (02 R53: popped once however often it is named). -/
def State.readPorts (s : State) (sid : Nat) (t : Seat) (srcs : List Src) : Except Stop (PortEntry × State) :=
  if srcs.any Src.isPort then s.readNorth sid t (srcs.any Src.isNp)
  else .ok ({ v := vrep 64 0, act := 0, ready := 0 }, s)

/-- A poisoned port entry read in an active lane raises POISON (14 R346). -/
def portPois (e : PortEntry) (mask : Word) : Except Stop Unit :=
  trapIf (!decide (e.pois &&& mask = 0)) { code := cPOISON, lanes := e.pois &&& mask }

end Sys2Proof.Machine
end

