-- ==== Sys2Proof/Machine/Control.lean ====
section
/-! DEFINITION. Control and divergence (12 R293 to R310, R318, R319): branches, the mask stack, transfers through
registers, EXIT, mask registers, YIELD and SLEEPT; and the slots that take no issue (02 R46, R65, R66). -/
namespace Sys2Proof.Machine

/-- The state once an instruction has read its scalar operands (02 R61; free values used). -/
def State.readScalars (s : State) (sid : Nat) (t : Seat) (srcs : List Src) : State :=
  (s.setSeat sid ((s.seat sid).lastUse true 1 srcs)).useFree (t.freeUsed true (srcs.map (fun a => (a, 1))))

/-- The run of an instruction that executes once per row on scalars and masks (12 R293): its checks, `guard` where it reads the
governing mask, then its body on the seat as it was found and the state once it has read. -/
def State.ctl (s : State) (illegal : Bool) (srcs : List Src) (masks : List Nat)
    (body : Nat → Seat → State → Except Stop State) (mid : Nat → Seat → Except Stop Unit := fun _ _ => .ok ())
    (guard : Bool := false) : Host.Outcome State Fault Refusal :=
  s.run fun sid t => do
    t.check sid true illegal false false (srcs.map (fun a => (a, 1))) (mid := mid sid t)
      (masks := (if guard then t.guardMask else []) ++ masks)
    body sid t (s.readScalars sid t srcs)

/-- An instruction without operands whose effect is one on its seat; the body says how the slot ends. -/
def State.ctlSeat (s : State) (illegal : Bool) (srcs : List Src) (masks : List Nat) (f : Seat → Except Stop Seat)
    (guard : Bool := false) : Host.Outcome State Fault Refusal :=
  s.ctl illegal srcs masks (guard := guard) fun sid _ s1 => do
    let t ← f (s1.seat sid)
    return s1.setSeat sid t

/-- The target of a J-form branch (02 R45). -/
def Seat.target (t : Seat) (o : BitVec 20) : Word := t.pc + (o.signExtend 64) * 16

/-- The scalar that the C field names (12 R293). -/
def cReg (c : BitVec 4) : Src := ⟨false, false, c.setWidth 5⟩

/-! ### Slots that take no issue -/

/-- NOP (02 R46). -/
def execNop (s : State) : Host.Outcome State Fault Refusal := s.run fun sid _ => .ok (s.next sid)

/-- A prefix waits for its target (02 R65, R66). -/
def State.prefixed (s : State) (sid : Nat) (t : Seat) (f : Seat → Seat) : State :=
  s.setSeat sid { f t with slot := t.slot + 1, pslot := if t.pslot = 0 then t.slot else t.pslot }

/-- MOD (02 R65). -/
def execMod (q : BitVec 1) (sc : BitVec 7) (e : BitVec 1) (et : BitVec 4) (r : BitVec 3) (z : BitVec 2) (k : BitVec 3)
    (s : State) : Host.Outcome State Fault Refusal :=
  s.run fun sid t => .ok (s.prefixed sid t (fun t =>
    { t with pmod := some (BitVec.ofNat 24 (q.toNat * 2 ^ 23 + sc.toNat * 2 ^ 16 + e.toNat * 2 ^ 15 + et.toNat * 2 ^ 11 +
        r.toNat * 2 ^ 8 + z.toNat * 2 ^ 6 + k.toNat * 2 ^ 3)) }))

/-- XIMM (02 R66). -/
def execXimm (i : BitVec 24) (s : State) : Host.Outcome State Fault Refusal :=
  s.run fun sid t => .ok (s.prefixed sid t (fun t => { t with pximm := some i }))

/-! ### Uniform branches (12 R298) -/

/-- The row branches, or its next slot runs. -/
def Seat.branch (t : Seat) (taken : Bool) (target : Word) : Seat := if taken then t.jump target else t.advance

/-- BRA (12 R298). -/
def execBra (o : BitVec 20) (s : State) : Host.Outcome State Fault Refusal :=
  s.ctlSeat false [] [] fun t => .ok (t.jump (t.target o))
/-- BZ and BNZ (12 R298). -/
def execBz (c : BitVec 4) (o : BitVec 20) (s : State) : Host.Outcome State Fault Refusal :=
  s.ctl false [cReg c] [] fun sid t s1 =>
    .ok (s1.setSeat sid ((s1.seat sid).branch (s.scalar t (cReg c) == 0) (t.target o)))
def execBnz (c : BitVec 4) (o : BitVec 20) (s : State) : Host.Outcome State Fault Refusal :=
  s.ctl false [cReg c] [] fun sid t s1 =>
    .ok (s1.setSeat sid ((s1.seat sid).branch (s.scalar t (cReg c) != 0) (t.target o)))
/-- LOOP (12 R298). -/
def execLoop (c : BitVec 4) (o : BitVec 20) (s : State) : Host.Outcome State Fault Refusal :=
  s.ctl false [cReg c] [] fun sid t s1 =>
    let v := s.scalar t (cReg c) - 1
    let s2 := s1.writeS sid c.toNat v
    .ok (s2.setSeat sid ((s2.seat sid).branch (v != 0) (t.target o)))

/-! ### Divergence (12 R299 to R302) -/

/-- MSTACK_OVF (12 R297), with the entries needed (12 R304). -/
def ovf {α : Type} (aux : Nat := 0) : Except Stop α := .error (.trap { code := cMSTACK_OVF, aux := aux })

/-- An entry pushed; the stack holds at most 16 (12 R297). -/
def Seat.push (t : Seat) (e : MaskEntry) : Except Stop Seat :=
  if 16 ≤ t.stack.length then ovf else .ok { t with stack := e :: t.stack }

/-- BRD and BRDN (12 R299): `cond` are the lanes that take the branch. -/
def Seat.diverge (t : Seat) (cond target : Word) : Except Stop Seat :=
  let taken := t.path &&& cond
  let rest := t.path &&& ~~~cond
  if taken = 0 then .ok t.advance
  else if rest = 0 then .ok (t.jump target)
  else do
    let t ← t.push { kind := .div, mask := taken, alt := rest, tgt := t.pc + 16 }
    return t.dropLatches.jump target

/-- BRD (12 R299). -/
def execBrd (m : BitVec 3) (o : BitVec 20) (s : State) : Host.Outcome State Fault Refusal :=
  s.ctlSeat false [] [0, m.toNat] fun t => t.diverge (t.mr m.toNat) (t.target o)
/-- BRDN (12 R299). -/
def execBrdn (m : BitVec 3) (o : BitVec 20) (s : State) : Host.Outcome State Fault Refusal :=
  s.ctlSeat false [] [0, m.toNat] fun t => t.diverge (~~~t.mr m.toNat) (t.target o)

/-- JSET (12 R300). The path and live lanes are read from m0 as well (12 R295; log 41). -/
def execJset (o : BitVec 20) (s : State) : Host.Outcome State Fault Refusal :=
  s.ctlSeat false [] [0] fun t => do
    let t' ← t.push { kind := .join, mask := t.path, tgt := t.target o }
    return t'.advance

/-- The unwind of 12 R302: the stack left, and where the row goes if it moves: to a join, or to a sibling path. -/
def unwind (live : Word) : List MaskEntry → List MaskEntry × Option Word
  | [] => ([], none)
  | e :: rest =>
    if e.mask &&& live ≠ 0 then (e :: rest, none)
    else
      match e.kind with
      | .join => (e :: rest, some e.tgt)
      | .div => if e.alt &&& live ≠ 0 then ({ e with mask := e.alt &&& live, alt := 0 } :: rest, some e.tgt)
                else unwind live rest
      | _ => (e :: rest, none)

/-- JOIN's walk (12 R301): the stack left and the sibling's start, or the next slot; none where it meets BASE or PRED. -/
def joinWalk (live : Word) : List MaskEntry → Option (List MaskEntry × Option Word)
  | [] => none
  | e :: rest =>
    match e.kind with
    | .join => some (rest, none)
    | .div => if e.alt &&& live ≠ 0 then some ({ e with mask := e.alt &&& live, alt := 0 } :: rest, some e.tgt)
              else joinWalk live rest
    | _ => none

/-- The row goes on at a target, or at its next slot. -/
def Seat.go (t : Seat) : Option Word → Seat
  | some a => t.jump a
  | none => t.advance

/-- The stack unwound, and the row moved where that moves it (12 R302); a switch to a sibling path, whose entry then
stands on top, invalidates the latches even where that path starts at the next bundle (02 R58). -/
def Seat.settle (t : Seat) : Seat :=
  let r := unwind t.live t.stack
  let sibling : Bool := match r.1, r.2 with
    | e :: _, some _ => decide (e.kind = .div)
    | _, _ => false
  { (if sibling then t.dropLatches else t) with stack := r.1 }.go r.2

/-- JOIN (12 R301, R302). -/
def execJoin (s : State) : Host.Outcome State Fault Refusal :=
  s.ctlSeat false [] [0] fun t =>
    match joinWalk t.live t.stack with
    | none => trapC cMSTACK_UNF
    | some (st, some a) => .ok (({ t.dropLatches with stack := st }).jump a)
    | some (st, none) => .ok ({ t.dropLatches with stack := st }.settle)

/-! ### Transfers through registers (12 R303, R304) -/

/-- LANDING for a target that names no bundle (02 R45). -/
def landing (a : Word) : Except Stop Unit := trapIf (a &&& 15 != 0) { code := cLANDING, addr := a }

/-- JMP and RET (12 R303). -/
def State.jmp (s : State) (a : Src) : Host.Outcome State Fault Refusal :=
  s.ctl false [a] [] fun sid t s1 => do
    let v := s.scalar t a
    landing v
    return s1.setSeat sid ((s1.seat sid).jump v)

/-- JMP (12 R303). -/
def execJmp (a : Src) (s : State) : Host.Outcome State Fault Refusal := s.jmp a
/-- RET (12 R303). -/
def execRet (a : Src) (s : State) : Host.Outcome State Fault Refusal := s.jmp a

/-- The link written to s30, and the row moved (12 R303). -/
def State.link (s : State) (sid : Nat) (t : Seat) (target : Word) : State :=
  let s1 := s.writeS sid 30 (t.pc + 16)
  s1.setSeat sid ((s1.seat sid).jump target)

/-- CALL (12 R303). -/
def execCall (o : BitVec 20) (s : State) : Host.Outcome State Fault Refusal :=
  s.ctl false [] [] fun sid t s1 => .ok (s1.link sid t (t.target o))
/-- CALLR (12 R303). -/
def execCallr (a : Src) (s : State) : Host.Outcome State Fault Refusal :=
  s.ctl false [a] [] fun sid t s1 => do
    let v := s.scalar t a
    landing v
    return s1.link sid t v

/-- A target put into a rising list without repeats. -/
def insertTarget (v : Nat) : List Nat → List Nat
  | [] => [v]
  | u :: us => if v < u then v :: u :: us else if v = u then u :: us else u :: insertTarget v us

/-- The entries of 12 R304 for groups above the lowest: `g` are the lanes of the group below. -/
def jmpvPush (g : Word) : List (Nat × Word) → List MaskEntry
  | [] => []
  | (u, h) :: more => { kind := .div, mask := g, alt := h, tgt := BitVec.ofNat 64 u } :: jmpvPush h more

/-- JMPV (12 R304): the groups run in rising order of their targets. It ignores the guard (12 R295), but its last use
makes the register dead in the active lanes (02 R61). -/
def execJmpv (a : Src) (s : State) : Host.Outcome State Fault Refusal :=
  s.run fun sid t => do
    let p := t.path
    t.check sid false (a.isPort || (a.l && a.n == 6)) false false [(a, p)] (masks := [0])
    let v := s.srcVal t false (vrep 64 0) 0 a
    let ls := lanesOf p
    let bad := ls.filter (fun l => (vget 0 v l) &&& 15 != 0 || (vget 0 v l) >>> 52 != 0)
    match bad with
    | [] => .ok ()
    | l :: _ => .error (.trap { code := cJMPV_TARGET, lanes := laneMask bad, addr := vget 0 v l })
    let us := ls.foldl (fun us l => insertTarget (vget 0 v l).toNat us) []
    let s1 := (s.setSeat sid (t.lastUse false t.gov [a])).useFree (t.freeUsed false [(a, p)])
    let t1 := s1.seat sid
    let grp (u : Nat) : Word := laneMask (ls.filter (fun l => (vget 0 v l).toNat == u))
    match us with
    | [] => return s1.setSeat sid t1.advance
    | [u] => return s1.setSeat sid (t1.jump (BitVec.ofNat 64 u))
    | u :: more =>
      if 16 < t.stack.length + more.length then ovf us.length
      else
        return s1.setSeat sid (({ t1.dropLatches with stack := jmpvPush (grp u) (more.map (fun u => (u, grp u))) ++ t1.stack }).jump
          (BitVec.ofNat 64 u))

/-! ### EXIT and BRK (12 R305, R306) -/

/-- A matrix item of the seat has steps left. -/
def State.matBusy (s : State) (sid : Nat) : Bool :=
  (s.row (sid / 4)).mat.any (fun i => i.seat == sidSeat sid && decide (i.done < i.steps))

/-- The row has exited: its neighbours' ports follow 06 R171, a FEED bound to it unbinds (09 R258), and bins of its
launch may end (10 R275). -/
def State.rowExit (s : State) (sid : Nat) : State :=
  let t := s.seat sid
  let k := sid / 4
  let s0 := (s.setSeat sid { t.leave.dropLatches with status := .exited }).flushEnded (sidCore sid)
  let s1 := if t.bind.ports && t.isHead then s0.unbind k else s0
  if !t.bind.ports then s1
  else
    let s2 := if t.isTail || (s1.row k).consGone then s1
      else let b := s1.row (rowBelow k); s1.setRow (rowBelow k) { b with prodExited := true }
    if t.isHead || (s2.row k).prodGone then s2
    else
      let u := s2.row (rowAbove k)
      let s3 := s2.setRow (rowAbove k)
        { u with consExited := true
                 south := u.south.filter (fun x => match x with
                   | .filled _ => false
                   | .reserved _ _ => true) }
      let r := s3.row k
      s3.setRow k { r with north := [] }

/-- EXIT (12 R305; 06 R162: the row counts as exited when its batches have retired). With no active lane it has no effect at
all, and does not unwind (log 107). -/
def execExit (s : State) : Host.Outcome State Fault Refusal :=
  s.ctl false [] [] (guard := true) fun sid t s1 =>
    let t1 := { t with exited := t.exited ||| t.gov }
    if t.gov = 0 then .ok (s1.next sid)
    else if t1.live = 0 then
      if s.matBusy sid then .error .stall else .ok ((s1.setSeat sid t1).rowExit sid)
    else .ok (s1.setSeat sid t1.settle)

/-- BRK (12 R306). -/
def execBrk (k : BitVec 4) (s : State) : Host.Outcome State Fault Refusal :=
  s.ctl false [] [] fun _ _ _ => .error (.trap { code := cBRK, k := k.toNat })

/-! ### Predication (12 R308) -/

/-- PUSHP (12 R308). -/
def execPushp (a : BitVec 3) (s : State) : Host.Outcome State Fault Refusal :=
  s.ctlSeat false [] [0, a.toNat] fun t => do
    let t' ← t.push { kind := .pred, mask := t.path &&& t.mr a.toNat }
    return t'.advance
/-- PUSHPN (12 R308). -/
def execPushpn (a : BitVec 3) (s : State) : Host.Outcome State Fault Refusal :=
  s.ctlSeat false [] [0, a.toNat] fun t => do
    let t' ← t.push { kind := .pred, mask := t.path &&& ~~~t.mr a.toNat }
    return t'.advance
/-- PUSHM (12 R308). -/
def execPushm (a : BitVec 3) (s : State) : Host.Outcome State Fault Refusal :=
  s.ctlSeat false [] [0, a.toNat] fun t => do
    let t' ← t.push { kind := .pred, mask := t.live &&& t.mr a.toNat }
    return t'.advance
/-- INVP (12 R308). -/
def execInvp (s : State) : Host.Outcome State Fault Refusal :=
  s.ctlSeat false [] [0] fun t =>
    match t.stack with
    | e :: b :: rest =>
      if e.kind = .pred then
        .ok ({ t with stack := { e with mask := b.mask &&& t.live &&& ~~~e.mask } :: b :: rest }).advance
      else trapC cMSTACK_UNF
    | _ => trapC cMSTACK_UNF
/-- POPP (12 R308, R302). -/
def execPopp (s : State) : Host.Outcome State Fault Refusal :=
  s.ctlSeat false [] [0] fun t =>
    match t.stack with
    | e :: rest => if e.kind = .pred then .ok ({ t with stack := rest }.settle) else trapC cMSTACK_UNF
    | [] => trapC cMSTACK_UNF

/-! ### Mask registers and scalars (12 R309, R310) -/

/-- MSET (12 R309). -/
def execMset (d : BitVec 3) (k : BitVec 2) (s : State) : Host.Outcome State Fault Refusal :=
  s.ctlSeat (d == 0) [] (if k = 2 then [] else [0]) (guard := k == 0) fun t =>
    let v := match k.toNat with
      | 0 => t.gov
      | 1 => t.path
      | 2 => 0
      | _ => t.live
    .ok (t.putM d.toNat v).advance

/-- MLOG (12 R309). -/
def execMlog (d a b : BitVec 3) (f : BitVec 4) (s : State) : Host.Outcome State Fault Refusal :=
  s.ctlSeat (d == 0 || decide (5 ≤ f.toNat) || (f == 4 && b != 0)) []
    (if f.toNat = 4 then [a.toNat] else [a.toNat, b.toNat]) fun t =>
    let x := t.mr a.toNat
    let y := t.mr b.toNat
    let v := match f.toNat with
      | 0 => x &&& y
      | 1 => x ||| y
      | 2 => x ^^^ y
      | 3 => x &&& ~~~y
      | _ => ~~~x
    .ok (t.putM d.toNat v).advance

/-- STOM (12 R309). -/
def execStom (d : BitVec 3) (a : Src) (s : State) : Host.Outcome State Fault Refusal :=
  s.ctl (d == 0) [a] [] fun sid t s1 =>
    .ok (s1.setSeat sid ((s1.seat sid).putM d.toNat (s.scalar t a)).advance)

/-- A scalar computed from a mask, written and latched (12 R310). -/
def State.maskScalar (s : State) (d : Dst) (a : BitVec 3) (f : Seat → Word → Word) (guard : Bool := false) :
    Host.Outcome State Fault Refusal :=
  s.ctl false [] [a.toNat] (guard := guard) fun sid t s1 => .ok ((s1.putScalar sid d (f t (t.mr a.toNat))).next sid)

/-- MCNT (12 R310). -/
def execMcnt (d : Dst) (a : BitVec 3) (s : State) : Host.Outcome State Fault Refusal :=
  s.maskScalar d a fun _ m => BitVec.ofNat 64 (lanesOf m).length
/-- MFST (12 R310). -/
def execMfst (d : Dst) (a : BitVec 3) (s : State) : Host.Outcome State Fault Refusal :=
  s.maskScalar d a fun _ m => BitVec.ofNat 64 ((lanesOf m).headD 64)
/-- MTOS (12 R310). -/
def execMtos (d : Dst) (a : BitVec 3) (s : State) : Host.Outcome State Fault Refusal := s.maskScalar d a fun _ m => m
/-- MANY (12 R310). -/
def execMany (d : Dst) (a : BitVec 3) (s : State) : Host.Outcome State Fault Refusal :=
  s.maskScalar d a (guard := true) fun t m => if m &&& t.gov = 0 then 0 else 1
/-- MALL (12 R310). -/
def execMall (d : Dst) (a : BitVec 3) (s : State) : Host.Outcome State Fault Refusal :=
  s.maskScalar d a (guard := true) fun t m => if t.gov &&& ~~~m = 0 then 1 else 0

/-! ### Yielding and sleeping (12 R318, R319) -/

/-- YIELD (12 R318): the seat parks for one selecting clock, its slot done. -/
def execYield (s : State) : Host.Outcome State Fault Refusal :=
  s.ctl false [] [] fun sid t s1 =>
    .ok (s1.setSeat sid { t.dropLatches.advance with status := .parked (.yield (s.core (sidCore sid)).clkc), skip := 0 })

/-- SLEEPT (12 R319). -/
def execSleept (a : Src) (s : State) : Host.Outcome State Fault Refusal :=
  s.ctl false [a] [] fun sid t s1 =>
    let v := s.scalar t a
    if v.toNat ≤ s.time.toNat then .ok (s1.setSeat sid (s1.seat sid).dropLatches.advance)
    else .error (.park (.sleep v) true)

end Sys2Proof.Machine
end

