-- ==== Sys2Proof/Machine/Flags.lean ====
section
/-! DEFINITION. The FSTAT flags (04 R102) and how a slot gathers them (04 R103). -/
namespace Sys2Proof.Machine

/-- Invalid. -/
def fNV : BitVec 6 := 1
/-- Divide-by-zero. -/
def fDZ : BitVec 6 := 2
/-- Overflow. -/
def fOF : BitVec 6 := 4
/-- Saturate. -/
def fSA : BitVec 6 := 8
/-- Inexact. -/
def fIX : BitVec 6 := 16
/-- Nonreal-produced. -/
def fNR : BitVec 6 := 32

/-- A flag raised on a condition. -/
def flagIf (c : Bool) (f : BitVec 6) : BitVec 6 := if c then f else 0

/-- FSTAT with a slot's flags ORed in (04 R103). -/
def Seat.orFlags (t : Seat) (f : BitVec 6) : Seat := { t with fstat := t.fstat ||| f }

/-- The flags that the lanes of a mask raise, ORed (04 R103). -/
def gatherFlags (mask : Word) (f : Nat → BitVec 6) : BitVec 6 :=
  (List.range 64).foldl (fun acc l => if mask.getLsbD l then acc ||| f l else acc) 0

end Sys2Proof.Machine
end

