-- ==== Sys2Proof/Machine/Lane.lean ====
section
/-! DEFINITION. The shared run of a value-producing slot that computes within the lanes of a row (05 R118 to R121): its
checks, its operands, its result, its flags and its latch entry; lane and uniform slots alike. -/
namespace Sys2Proof.Machine

/-- What a slot of the lane chapter names and accepts (05 R117). -/
structure LaneOp where
  d : Dst
  a : Option Src := none
  b : Option Src := none
  /-- It takes MOD's fourth operand. -/
  q : Bool := false
  /-- It reads its destination's previous value (for a fourth operand's absence, too). -/
  readsD : Bool := false
  /-- XIMM in place of SB gives elements (02 R66), of this type where it is not the effective one. -/
  elems : Bool := true
  bty : Option (BitVec 4) := none
  /-- An ILLEGAL_OP of its own; the types it does not accept. -/
  illegal : Bool := false
  badType : Bool := false
  /-- The immediate of an I-form, which XIMM widens. -/
  i : Option (BitVec 18) := none
  /-- The mask registers it reads. -/
  masks : List Nat := []
  /-- The lanes whose part of SA it reads, where they are not those that act (05 R145); SB is read once for the row. -/
  rd : Option Word := none
  once : Bool := false
  /-- A store's data register, read in the acting lanes, and a scalar that the row reads once beside its operands. -/
  data : Option Src := none
  second : Option Nat := none
  deriving DecidableEq, Repr

/-- The operands of a slot, in every lane. -/
structure LaneIn where
  a : Lanes Word
  b : Lanes Word
  q : Option (Lanes Word)
  d : Lanes Word
  /-- The lanes that act: the governing mask, or lane 0 alone in a uniform slot. -/
  act : Word

/-- The lanes that act (02 R57: a uniform slot ignores the mask). -/
def Seat.act (t : Seat) : Word := if t.uniform then 1 else t.gov

/-- The explicit sources of the slot: SA, SB where no XIMM stands for it, and MOD's fourth operand. -/
def LaneOp.srcs (o : LaneOp) (t : Seat) : List Src :=
  o.a.toList ++ (if t.pximm.isSome then [] else o.b.toList) ++
    (if o.q then (t.qsrc.map Src.ofCode).toList else [])

/-- Every source read, the destination where it is one (02 R62), with the lanes whose part is read. -/
def LaneOp.reads (o : LaneOp) (t : Seat) : List (Src × Word) :=
  o.a.toList.map (fun a => (a, o.rd.getD t.act)) ++
  (if t.pximm.isSome then [] else o.b.toList.map (fun b => (b, if o.once then 1 else t.act))) ++
  (if o.q then (t.qsrc.map Src.ofCode).toList.map (fun c => (c, t.act)) else []) ++
  (if o.readsD then [(⟨false, false, o.d.dr⟩, t.act)] else []) ++
  o.data.toList.map (fun c => (c, t.act))

/-- The slot's own ILLEGAL_OP causes: the instruction's; XIMM over a nonzero SB (02 R66) or on an instruction with no SB
(05 R117); a fourth operand where there is none (05 R117). -/
def LaneOp.bad (o : LaneOp) (t : Seat) : Bool :=
  o.illegal ||
  (t.pximm.isSome && o.i.isNone && (match o.b with
    | none => true
    | some b => !decide (b.code = 0))) ||
  (t.qsrc.isSome && !o.q)

/-- SB's values: XIMM's operand (02 R66), or the source's. -/
def State.sbVal (s : State) (t : Seat) (o : LaneOp) (np : Lanes Word) : Lanes Word :=
  match t.pximm, o.b with
  | some x, _ => vrep 64 (if o.elems then immElems (o.bty.getD t.ety) x else immWhole x)
  | none, some b => s.srcVal t t.uniform np 1 b
  | none, none => vrep 64 0

/-- The checks of the slot (02 R50). -/
def State.laneCheck (_s : State) (sid : Nat) (t : Seat) (o : LaneOp) : Except Stop Unit := do
  t.check sid t.uniform (o.bad t) o.badType (o.d.isSp t.uniform) (o.reads t)
    (also := o.second.toList.map (fun n => (true, ⟨false, false, BitVec.ofNat 5 n⟩, 1)))
  maskPois t o.masks

/-- The operands of the slot, read before anything is written (00 R8). -/
def State.laneIn (s : State) (t : Seat) (o : LaneOp) (np : Lanes Word) : LaneIn where
  a := match o.a with
    | some a => s.srcVal t t.uniform np 0 a
    | none => vrep 64 0
  b := s.sbVal t o np
  q := if o.q then t.qsrc.map (fun c => s.srcVal t t.uniform np 2 (Src.ofCode c)) else none
  d := if o.readsD then s.srcVal t t.uniform np 3 ⟨false, false, o.d.dr⟩ else vrep 64 0
  act := t.act

/-- The state once the slot has read: the port entry popped, last uses dead, flags gathered, free values used. -/
def State.afterReads (s : State) (sid : Nat) (t : Seat) (srcs : List Src) (all : List (Src × Word)) (fl : BitVec 6) (dn : Nat) : State :=
  let t' := ((s.seat sid).lastUse t.uniform t.act srcs).orFlags fl
  (s.setSeat sid t').useFree
    (t.freeUsed t.uniform all + if !t.uniform && !decide (vget 0 t.xdead dn = 0) then 64 * 5 else 0)

/-- The run of a slot whose result is one register: `f` gives each lane's value and the slot's flags. -/
def State.lane (s : State) (o : Seat → LaneOp) (f : Seat → LaneIn → (Nat → Word) × BitVec 6) :
    Host.Outcome State Fault Refusal :=
  s.run fun sid t => do
    let o := o t
    s.laneCheck sid t o
    let (e, s1) ← s.readPorts sid t (o.srcs t)
    portPois e t.act
    let (v, fl) := f t (s.laneIn t o e.v)
    let s2 := s1.afterReads sid t (o.srcs t) (o.reads t) fl o.d.dr.toNat
    if t.uniform then return (s2.putScalar sid o.d (v 0)).next sid
    else
      let s3 ← s2.putLane sid t o.d t.gov v
      return s3.next sid

/-- A lane-by-lane function as the `f` of `State.lane`: each lane's value from its own operands. -/
def lanewise (g : Seat → (a b q d : Word) → Word × BitVec 6) (t : Seat) (i : LaneIn) : (Nat → Word) × BitVec 6 :=
  let r : Lanes (Word × BitVec 6) := tab 64 (fun l =>
    if i.act.getLsbD l then
      g t (vget 0 i.a l) (vget 0 i.b l) (match i.q with
        | some q => vget 0 q l
        | none => vget 0 i.d l) (vget 0 i.d l)
    else (0, 0))
  (fun l => (vget (0, 0) r l).1, gatherFlags i.act (fun l => (vget (0, 0) r l).2))

/-! ### Elements (00 R6, 02 R64) -/

/-- The number of elements of a width in a lane. -/
def perLane (w : Nat) : Nat := 64 / w

/-- Element `i` of width `w`. -/
def elem (w : Nat) (v : Word) (i : Nat) : Nat := v.toNat / 2 ^ (w * i) % 2 ^ w

/-- A lane value from its elements. -/
def ofElems (w : Nat) (f : Nat → Nat) : Word :=
  BitVec.ofNat 64 ((List.range (perLane w)).foldl (fun acc i => acc + f i % 2 ^ w * 2 ^ (w * i)) 0)

/-- An element-wise operation on one lane (05 R118): values and flags. -/
def elemwise (w : Nat) (g : (a b q d : Nat) → Nat × BitVec 6) (a b q d : Word) : Word × BitVec 6 :=
  let rs := (List.range (perLane w)).map (fun i => g (elem w a i) (elem w b i) (elem w q i) (elem w d i))
  (BitVec.ofNat 64 ((rs.map (fun r => r.1 % 2 ^ w)).foldr (fun x acc => x + 2 ^ w * acc) 0),
   rs.foldl (fun acc r => acc ||| r.2) 0)

/-- Types I8 to I64, and N8 to N64 (05 R117). -/
def isInt (ty : BitVec 4) : Bool := decide (ty.toNat < 8)
def isSigned (ty : BitVec 4) : Bool := decide (ty.toNat < 4)
/-- TAP8, TAP16 and TAP32. -/
def isTap (ty : BitVec 4) : Bool := decide (10 ≤ ty.toNat) && decide (ty.toNat ≤ 12)
/-- BF16 and F32. -/
def isIeee (ty : BitVec 4) : Bool := ty == 8 || ty == 9
/-- F or T′: the types of floating arithmetic. -/
def isFloat (ty : BitVec 4) : Bool := isIeee ty || ty == 11 || ty == 12

end Sys2Proof.Machine
end

