-- ==== Sys2Proof/Machine/IntLane.lean ====
section
/-! DEFINITION. The integer, immediate and bit instructions (05 R122 to R129), and compare, select and clamp
(05 R130 to R133) but for the IEEE comparisons they share with Formats. -/
namespace Sys2Proof.Machine

/-- An element's value under its type's signedness (03 R76). -/
def ival (sg : Bool) (w : Nat) (v : Nat) : Int :=
  if sg ∧ 2 ^ (w - 1) ≤ v % 2 ^ w then (v % 2 ^ w : Nat) - (2 ^ w : Nat) else (v % 2 ^ w : Nat)

/-- The least and greatest value of an integer type (03 R76). -/
def imin (sg : Bool) (w : Nat) : Int := if sg then -(2 ^ (w - 1) : Nat) else 0
def imax (sg : Bool) (w : Nat) : Int := if sg then (2 ^ (w - 1) : Nat) - 1 else (2 ^ w : Nat) - 1

/-- The low `w` bits of an integer. -/
def truncI (w : Nat) (x : Int) : Nat := (x % (2 ^ w : Nat)).toNat

/-- The narrowing of 05 R122: the value where it fits, else saturated under INTSAT, else its low bits. -/
def narrow (sat sg : Bool) (w : Nat) (x : Int) : Nat :=
  if imin sg w ≤ x ∧ x ≤ imax sg w then truncI w x
  else if sat then truncI w (if x < imin sg w then imin sg w else imax sg w)
  else truncI w x

/-- An integer operation on the elements of the effective type: the exact result, narrowed (05 R122). -/
def intOp (g : Int → Int → Int → Int) (t : Seat) (a b _q d : Word) : Word × BitVec 6 :=
  let sg := isSigned t.ety
  let w := tyBits t.ety
  elemwise w (fun a b _ d => (narrow t.intSat sg w (g (ival sg w a) (ival sg w b) (ival sg w d)), 0)) a b 0 d

/-- An element-wise operation without flags, given the type's signedness and width. -/
def natOp (g : (sg : Bool) → (w : Nat) → (a b q d : Nat) → Nat) (t : Seat) (a b q d : Word) : Word × BitVec 6 :=
  elemwise (tyBits t.ety) (fun a b q d => (g (isSigned t.ety) (tyBits t.ety) a b q d, 0)) a b q d

/-- Integer types alone are accepted. -/
def intTy (t : Seat) : Bool := !isInt t.ety

/-- ADD (05 R122). -/
def execAdd (d : Dst) (a b : Src) (s : State) : Host.Outcome State Fault Refusal :=
  s.lane (fun t => { d := d, a := some a, b := some b, badType := intTy t }) (lanewise (intOp (fun a b _ => a + b)))
/-- SUB (05 R122). -/
def execSub (d : Dst) (a b : Src) (s : State) : Host.Outcome State Fault Refusal :=
  s.lane (fun t => { d := d, a := some a, b := some b, badType := intTy t }) (lanewise (intOp (fun a b _ => a - b)))
/-- MUL (05 R122). -/
def execMul (d : Dst) (a b : Src) (s : State) : Host.Outcome State Fault Refusal :=
  s.lane (fun t => { d := d, a := some a, b := some b, badType := intTy t }) (lanewise (intOp (fun a b _ => a * b)))
/-- The upper half of the exact product (05 R123). -/
def mulh (sg : Bool) (w a b : Nat) : Nat := truncI w ((ival sg w a * ival sg w b) / (2 ^ w : Nat))
/-- MULH (05 R123). -/
def execMulh (d : Dst) (a b : Src) (s : State) : Host.Outcome State Fault Refusal :=
  s.lane (fun t => { d := d, a := some a, b := some b, badType := intTy t })
    (lanewise (natOp (fun sg w a b _ _ => mulh sg w a b)))

/-- The order of MIN, MAX and CLAMP (05 R124): I and T elements as signed integers, N elements as unsigned. -/
def ordLe (ty : BitVec 4) (w a b : Nat) : Bool :=
  let sg := isSigned ty || isTap ty
  decide (ival sg w a ≤ ival sg w b)
/-- The lesser and greater element (05 R124). -/
def emin (ty : BitVec 4) (w a b : Nat) : Nat := if ordLe ty w a b then a else b
def emax (ty : BitVec 4) (w a b : Nat) : Nat := if ordLe ty w a b then b else a
/-- I, N and T types are accepted. -/
def ordTy (t : Seat) : Bool := !(isInt t.ety || isTap t.ety)
/-- MIN (05 R124). -/
def execMin (d : Dst) (a b : Src) (s : State) : Host.Outcome State Fault Refusal :=
  s.lane (fun t => { d := d, a := some a, b := some b, badType := ordTy t })
    (lanewise (fun t => natOp (fun _ w a b _ _ => emin t.ety w a b) t))
/-- MAX (05 R124). -/
def execMax (d : Dst) (a b : Src) (s : State) : Host.Outcome State Fault Refusal :=
  s.lane (fun t => { d := d, a := some a, b := some b, badType := ordTy t })
    (lanewise (fun t => natOp (fun _ w a b _ _ => emax t.ety w a b) t))
/-- ABS (05 R122). -/
def execAbs (d : Dst) (a : Src) (s : State) : Host.Outcome State Fault Refusal :=
  s.lane (fun t => { d := d, a := some a, badType := intTy t }) (lanewise (intOp (fun a _ _ => if a < 0 then -a else a)))
/-- NEG (05 R122). -/
def execNeg (d : Dst) (a : Src) (s : State) : Host.Outcome State Fault Refusal :=
  s.lane (fun t => { d := d, a := some a, badType := intTy t }) (lanewise (intOp (fun a _ _ => -a)))

/-- A bitwise operation on all 64 bits (05 R118). -/
def bitOp (g : Word → Word → Word) (_t : Seat) (a b _q _d : Word) : Word × BitVec 6 := (g a b, 0)
/-- AND (05 R118). -/
def execAnd (d : Dst) (a b : Src) (s : State) : Host.Outcome State Fault Refusal :=
  s.lane (fun _ => { d := d, a := some a, b := some b }) (lanewise (bitOp (fun a b => a &&& b)))
/-- OR (05 R118). -/
def execOr (d : Dst) (a b : Src) (s : State) : Host.Outcome State Fault Refusal :=
  s.lane (fun _ => { d := d, a := some a, b := some b }) (lanewise (bitOp (fun a b => a ||| b)))
/-- XOR (05 R118). -/
def execXor (d : Dst) (a b : Src) (s : State) : Host.Outcome State Fault Refusal :=
  s.lane (fun _ => { d := d, a := some a, b := some b }) (lanewise (bitOp (fun a b => a ^^^ b)))
/-- ANDN (05 R118). -/
def execAndn (d : Dst) (a b : Src) (s : State) : Host.Outcome State Fault Refusal :=
  s.lane (fun _ => { d := d, a := some a, b := some b }) (lanewise (bitOp (fun a b => a &&& ~~~b)))

/-- The shifts and the rotate on a `w`-bit element by an unsigned count (05 R125). -/
def eshl (w a n : Nat) : Nat := if w ≤ n then 0 else a * 2 ^ n % 2 ^ w
def eshr (w a n : Nat) : Nat := if w ≤ n then 0 else a / 2 ^ n
def esar (w a n : Nat) : Nat := truncI w (ival true w a / (2 ^ (if w ≤ n then w else n) : Nat))
def erot (w a n : Nat) : Nat := let k := n % w; (a * 2 ^ k + a / 2 ^ (w - k)) % 2 ^ w
/-- SHL (05 R125). -/
def execShl (d : Dst) (a b : Src) (s : State) : Host.Outcome State Fault Refusal :=
  s.lane (fun t => { d := d, a := some a, b := some b, badType := intTy t })
    (lanewise (natOp (fun _ w a b _ _ => eshl w a b)))
/-- SHR (05 R125). -/
def execShr (d : Dst) (a b : Src) (s : State) : Host.Outcome State Fault Refusal :=
  s.lane (fun t => { d := d, a := some a, b := some b, badType := intTy t })
    (lanewise (natOp (fun _ w a b _ _ => eshr w a b)))
/-- SAR (05 R125). -/
def execSar (d : Dst) (a b : Src) (s : State) : Host.Outcome State Fault Refusal :=
  s.lane (fun t => { d := d, a := some a, b := some b, badType := intTy t })
    (lanewise (natOp (fun _ w a b _ _ => esar w a b)))
/-- ROT (05 R125). -/
def execRot (d : Dst) (a b : Src) (s : State) : Host.Outcome State Fault Refusal :=
  s.lane (fun t => { d := d, a := some a, b := some b, badType := intTy t })
    (lanewise (natOp (fun _ w a b _ _ => erot w a b)))

/-- ADDI (05 R122, R126): the exact sum of two I64 values, narrowed. -/
def execAddi (d : Dst) (i : BitVec 18) (s : State) : Host.Outcome State Fault Refusal :=
  s.lane (fun _ => { d := d, i := some i, readsD := true })
    (lanewise (fun t _ _ _ dv => (BitVec.ofNat 64 (narrow t.intSat true 64 (dv.toInt + (t.imm i).toInt)), 0)))
/-- LI (05 R126). -/
def execLi (d : Dst) (i : BitVec 18) (s : State) : Host.Outcome State Fault Refusal :=
  s.lane (fun _ => { d := d, i := some i }) (lanewise (fun t _ _ _ _ => (t.imm i, 0)))
/-- LSI (05 R126, 02 R55). -/
def execLsi (d : Dst) (i : BitVec 18) (s : State) : Host.Outcome State Fault Refusal :=
  s.lane (fun _ => { d := d, i := some i, readsD := true })
    (lanewise (fun t _ _ _ dv => (match t.pximm with
      | none => (dv <<< 18) ||| i.zeroExtend 64
      | some x => (dv <<< 42) ||| (x ++ i).zeroExtend 64, 0)))
/-- LEA (05 R126). -/
def execLea (d : Dst) (a b : Src) (k : BitVec 4) (s : State) : Host.Outcome State Fault Refusal :=
  s.lane (fun _ => { d := d, a := some a, b := some b, elems := false })
    (lanewise (fun _ a b _ _ => (a + (b <<< k.toNat), 0)))

/-- Leading zeros, set bits and reversed bits of a `w`-bit element (05 R127). -/
def eclz (w a : Nat) : Nat := w - (if a = 0 then 0 else Nat.log2 a + 1)
def epopc (w a : Nat) : Nat := (List.range w).foldl (fun acc i => acc + a / 2 ^ i % 2) 0
def ebrev (w a : Nat) : Nat := (List.range w).foldl (fun acc i => acc * 2 + a / 2 ^ i % 2) 0
/-- CLZ (05 R127). -/
def execClz (d : Dst) (a : Src) (s : State) : Host.Outcome State Fault Refusal :=
  s.lane (fun t => { d := d, a := some a, badType := intTy t }) (lanewise (natOp (fun _ w a _ _ _ => eclz w a)))
/-- POPC (05 R127). -/
def execPopc (d : Dst) (a : Src) (s : State) : Host.Outcome State Fault Refusal :=
  s.lane (fun t => { d := d, a := some a, badType := intTy t }) (lanewise (natOp (fun _ w a _ _ _ => epopc w a)))
/-- BREV (05 R127). -/
def execBrev (d : Dst) (a : Src) (s : State) : Host.Outcome State Fault Refusal :=
  s.lane (fun t => { d := d, a := some a, badType := intTy t }) (lanewise (natOp (fun _ w a _ _ _ => ebrev w a)))

/-- The field of BFX and BFI (05 R128): its first bit and its width, none where it is empty. -/
def field (w : Nat) (b : Word) : Option (Nat × Nat) :=
  let p := b.toNat % 256
  let n := b.toNat / 256 % 256
  if n = 0 ∨ w ≤ p then none else some (p, min n (w - p))
/-- Sign extension of the low `k` bits to `w` bits. -/
def esext (w k a : Nat) : Nat := truncI w (ival true k a)
/-- BFX (05 R128). -/
def execBfx (d : Dst) (a b : Src) (s : State) : Host.Outcome State Fault Refusal :=
  s.lane (fun t => { d := d, a := some a, b := some b, elems := false, badType := intTy t })
    (lanewise (fun t a b _ _ => natOp (fun sg w a _ _ _ => match field w b with
      | none => 0
      | some (p, m) => if sg then esext w m (a / 2 ^ p) else a / 2 ^ p % 2 ^ m) t a 0 0 0))
/-- BFI (05 R128). -/
def execBfi (d : Dst) (a b : Src) (s : State) : Host.Outcome State Fault Refusal :=
  s.lane (fun t => { d := d, a := some a, b := some b, elems := false, readsD := true, badType := intTy t })
    (lanewise (fun t a b _ dv => natOp (fun _ w a _ _ d => match field w b with
      | none => d
      | some (p, m) => d - d / 2 ^ p % 2 ^ m * 2 ^ p + a % 2 ^ m * 2 ^ p) t a 0 0 dv))

/-- DIV and REM of one element (05 R129): value and DZ. -/
def ediv (sat sg : Bool) (w a b : Nat) : Nat × BitVec 6 :=
  if b % 2 ^ w = 0 then (2 ^ w - 1, fDZ) else (narrow sat sg w (Int.tdiv (ival sg w a) (ival sg w b)), 0)
def erem (sg : Bool) (w a b : Nat) : Nat × BitVec 6 :=
  if b % 2 ^ w = 0 then (a, fDZ) else (truncI w (Int.tmod (ival sg w a) (ival sg w b)), 0)
/-- DIV (05 R129). -/
def execDiv (d : Dst) (a b : Src) (s : State) : Host.Outcome State Fault Refusal :=
  s.lane (fun t => { d := d, a := some a, b := some b, badType := intTy t })
    (lanewise (fun t a b _ _ =>
      elemwise (tyBits t.ety) (fun a b _ _ => ediv t.intSat (isSigned t.ety) (tyBits t.ety) a b) a b 0 0))
/-- REM (05 R129). -/
def execRem (d : Dst) (a b : Src) (s : State) : Host.Outcome State Fault Refusal :=
  s.lane (fun t => { d := d, a := some a, b := some b, badType := intTy t })
    (lanewise (fun t a b _ _ =>
      elemwise (tyBits t.ety) (fun a b _ _ => erem (isSigned t.ety) (tyBits t.ety) a b) a b 0 0))
/-- MAD (05 R122): d + a × b, narrowed once. -/
def execMad (d : Dst) (a b : Src) (s : State) : Host.Outcome State Fault Refusal :=
  s.lane (fun t => { d := d, a := some a, b := some b, readsD := true, badType := intTy t })
    (lanewise (intOp (fun a b d => d + a * b)))
/-- SEXT (05 R128). -/
def execSext (d : Dst) (a b : Src) (s : State) : Host.Outcome State Fault Refusal :=
  s.lane (fun t => { d := d, a := some a, b := some b, elems := false, badType := intTy t })
    (lanewise (fun t a b _ _ => natOp (fun _ w a _ _ _ =>
      let k := b.toNat % 128
      if k = 0 ∨ w ≤ k then a else esext w k a) t a 0 0 0))
/-- ZEXT (05 R128). -/
def execZext (d : Dst) (a b : Src) (s : State) : Host.Outcome State Fault Refusal :=
  s.lane (fun t => { d := d, a := some a, b := some b, elems := false, badType := intTy t })
    (lanewise (fun t a b _ _ => natOp (fun _ w a _ _ _ =>
      let k := b.toNat % 128
      if k = 0 ∨ w ≤ k then a else a % 2 ^ k) t a 0 0 0))

end Sys2Proof.Machine
end

