-- ==== Sys2Proof/Machine/Formats.lean ====
section
/-! DEFINITION. The number formats (03 R74 to R95) and rounding (04 R97 to R101): every value is exact, a natural
number times a power of two, and is rounded once. -/
namespace Sys2Proof.Machine

/-- A floating format: IEEE with `p` bits of precision (BF16 8, F32 24; 03 R78), or tapered (03 R80). -/
inductive Fmt where
  | ieee (p : Nat)
  | tap (n es : Nat)
  deriving DecidableEq, Repr

/-- The format of a type code (03 R74); F32 for a code that is no floating type. -/
def fmtOf (ty : BitVec 4) : Fmt :=
  match ty.toNat with
  | 8 => .ieee 8
  | 10 => .tap 8 1
  | 11 => .tap 16 1
  | 12 => .tap 32 2
  | _ => .ieee 24

/-- F32. -/
def f32 : Fmt := .ieee 24

/-- The value of an element: a real is a sign, a positive natural and a power of two. -/
inductive Val where
  | nan (signalling : Bool)
  | nonreal
  | inf (neg : Bool)
  | zero (neg : Bool)
  | num (neg : Bool) (m : Nat) (e : Int)
  deriving DecidableEq, Repr

/-- The number of bits of a natural. -/
def blen (m : Nat) : Nat := if m = 0 then 0 else Nat.log2 m + 1

/-! ### Decoding -/

/-- The value of an IEEE element (03 R78, R79). -/
def decodeIeee (p c : Nat) : Val :=
  let neg := c / 2 ^ (p + 7) % 2 == 1
  let x := c / 2 ^ (p - 1) % 256
  let f := c % 2 ^ (p - 1)
  if x = 255 then (if f = 0 then .inf neg else .nan (decide (f < 2 ^ (p - 2))))
  else if x = 0 then (if f = 0 then .zero neg else .num neg f (-126 - (p - 1 : Nat)))
  else .num neg (2 ^ (p - 1) + f) ((x : Int) - 127 - (p - 1 : Nat))

/-- The length of the run of equal bits that starts at bit `i` and goes down (03 R81). -/
def runLen (c b : Nat) : Nat → Nat
  | 0 => if c % 2 = b then 1 else 0
  | i + 1 => if c / 2 ^ (i + 1) % 2 = b then 1 + runLen c b i else 0

/-- The value of a tapered encoding (03 R81, R82). -/
def decodeTap (n es c : Nat) : Val :=
  let c := c % 2 ^ n
  if c = 0 then .zero false
  else if c = 2 ^ (n - 1) then .nonreal
  else
    let neg := decide (2 ^ (n - 1) ≤ c)
    let c := if neg then 2 ^ n - c else c
    let b := c / 2 ^ (n - 2) % 2
    let m := runLen c b (n - 2)
    let k : Int := if b = 1 then (m : Int) - 1 else -(m : Int)
    let r := n - 2 - m
    let eb := min es r
    let e := c / 2 ^ (r - eb) % 2 ^ eb * 2 ^ (es - eb)
    let fb := r - eb
    let f := c % 2 ^ fb
    .num neg (2 ^ fb + f) (k * (2 ^ es : Nat) + (e : Int) - (fb : Int))

/-- The value of an element of a format. -/
def decodeF (f : Fmt) (c : Nat) : Val :=
  match f with
  | .ieee p => decodeIeee p (c % 2 ^ (p + 8))
  | .tap n es => decodeTap n es c

/-- The encodings of NaN or NONREAL, of infinity (TAP: NONREAL), of zero, and of the largest finite number. -/
def nanBits : Fmt → Nat
  | .ieee p => 255 * 2 ^ (p - 1) + 2 ^ (p - 2)
  | .tap n _ => 2 ^ (n - 1)
def infBits (neg : Bool) : Fmt → Nat
  | .ieee p => neg.toNat * 2 ^ (p + 7) + 255 * 2 ^ (p - 1)
  | .tap n _ => 2 ^ (n - 1)
def zeroBits (neg : Bool) : Fmt → Nat
  | .ieee p => neg.toNat * 2 ^ (p + 7)
  | .tap _ _ => 0
def isTapF : Fmt → Bool
  | .ieee _ => false
  | .tap _ _ => true

/-! ### Rounding -/

/-- How a tail compares with the midpoint: none, below, at, above. -/
inductive Tail where
  | none | below | mid | above
  deriving DecidableEq, Repr

/-- Cuts `m` (and a nonzero remainder below it when `sticky`) at bit `d`: the quotient and the tail. -/
def cut (m d : Nat) (sticky : Bool) : Nat × Tail :=
  let r := m % 2 ^ d
  (m / 2 ^ d,
    if d = 0 then (if sticky then .below else .none)
    else if r = 0 ∧ !sticky then .none
    else if r < 2 ^ (d - 1) then .below
    else if r = 2 ^ (d - 1) ∧ !sticky then .mid
    else .above)

/-- Whether a magnitude with this quotient and tail goes up (04 R97): 0 RNE, 1 RTZ, 2 RDN, 3 RUP, 4 RNA. -/
def roundUp (rnd : Nat) (neg : Bool) (q : Nat) (t : Tail) : Bool :=
  match rnd with
  | 0 => decide (t = .above) || (decide (t = .mid) && q % 2 == 1)
  | 1 => false
  | 2 => neg && !decide (t = .none)
  | 3 => !neg && !decide (t = .none)
  | _ => decide (t = .above) || decide (t = .mid)

/-- Rounds ±m × 2^e (m > 0; a little more when `sticky`) to an IEEE format (04 R99): the bits and OF, IX. -/
def roundIeee (p rnd : Nat) (neg : Bool) (m : Nat) (e : Int) (sticky : Bool) : Nat × BitVec 6 :=
  let s := e + (blen m : Int) - 1
  let q := max s (-126) - ((p : Int) - 1)
  let (k, t) := if q ≤ e then cut (m * 2 ^ (e - q).toNat) 0 sticky else cut m (q - e).toNat sticky
  let k := if roundUp rnd neg k t then k + 1 else k
  let bits := (q + ((p : Int) - 1) + 126).toNat * 2 ^ (p - 1) + k
  let sg := neg.toNat * 2 ^ (p + 7)
  if 255 * 2 ^ (p - 1) ≤ bits then
    let toInf := rnd = 0 ∨ rnd ≥ 4 ∨ (rnd = 2 ∧ neg) ∨ (rnd = 3 ∧ !neg)
    (sg + (if toInf then 255 * 2 ^ (p - 1) else 255 * 2 ^ (p - 1) - 1), fOF ||| fIX)
  else (sg + bits, flagIf (!decide (t = .none)) fIX)

/-- Rounds ±m × 2^e (m > 0; a little more when `sticky`) along the encoding line of a tapered format (03 R85, R86;
04 R97, R98): the code and SA, IX. SA stands for every result beyond maxpos or below minpos, in each mode (log 26). -/
def roundTap (n es rnd : Nat) (neg : Bool) (m : Nat) (e : Int) (sticky : Bool) : Nat × BitVec 6 :=
  let len := blen m
  let s := e + (len : Int) - 1
  let top : Int := ((n - 2) * 2 ^ es : Nat)
  let pow2 := decide (m = 2 ^ (len - 1)) && !sticky
  let (c, fl) : Nat × BitVec 6 :=
    if top ≤ s then (2 ^ (n - 1) - 1, flagIf (!(pow2 && decide (s = top))) (fSA ||| fIX))
    else if s < -top then (1, fSA ||| fIX)
    else
      let k := s / (2 ^ es : Nat)
      let x := (s % (2 ^ es : Nat)).toNat
      let (reg, rl) : Nat × Nat :=
        if 0 ≤ k then ((2 ^ (k.toNat + 1) - 1) * 2, k.toNat + 2) else (1, (-k).toNat + 1)
      let str := (reg * 2 ^ es + x) * 2 ^ (len - 1) + (m - 2 ^ (len - 1))
      let l := 1 + rl + es + (len - 1)
      let (c, t) := if l ≤ n then cut (str * 2 ^ (n - l)) 0 sticky else cut str (l - n) sticky
      let c := if roundUp rnd neg c t then c + 1 else c
      let c := if c = 0 then 1 else if c = 2 ^ (n - 1) then 2 ^ (n - 1) - 1 else c
      (c, flagIf (!decide (t = .none)) fIX)
  (if neg then 2 ^ n - c else c, fl)

/-- Rounds a nonzero real into a format. -/
def roundF (f : Fmt) (rnd : Nat) (neg : Bool) (m : Nat) (e : Int) (sticky : Bool := false) : Nat × BitVec 6 :=
  match f with
  | .ieee p => roundIeee p rnd neg m e sticky
  | .tap n es => roundTap n es rnd neg m e sticky

/-- Rounds a real to an integer (03 R94): the integer, and whether its value differs. -/
def roundInt (rnd : Nat) (neg : Bool) (m : Nat) (e : Int) : Int × Bool :=
  let (k, t) := if 0 ≤ e then cut (m * 2 ^ e.toNat) 0 false else cut m (-e).toNat false
  let k := if roundUp rnd neg k t then k + 1 else k
  (if neg then -(k : Int) else k, !decide (t = .none))

/-! ### Exact arithmetic -/

def Val.isNan : Val → Bool
  | .nan _ => true
  | _ => false
def Val.isSig : Val → Bool
  | .nan b => b
  | _ => false
def Val.isZero : Val → Bool
  | .zero _ => true
  | _ => false
def Val.isInf : Val → Bool
  | .inf _ => true
  | _ => false
def Val.sign : Val → Bool
  | .inf b => b
  | .zero b => b
  | .num b _ _ => b
  | _ => false
/-- The value with its sign flipped. -/
def Val.negate : Val → Val
  | .inf b => .inf (!b)
  | .zero b => .zero (!b)
  | .num b m e => .num (!b) m e
  | v => v

/-- The exact product; ±Inf × ±0, an invalid operation (04 R105), counts as a signalling NaN. -/
def Val.mul : Val → Val → Val
  | .num a m e, .num b n g => .num (a != b) (m * n) (e + g)
  | .nan x, _ => .nan x
  | _, .nan x => .nan x
  | .nonreal, _ => .nonreal
  | _, .nonreal => .nonreal
  | .inf _, .zero _ => .nan true
  | .zero _, .inf _ => .nan true
  | .inf a, v => .inf (a != v.sign)
  | v, .inf a => .inf (a != v.sign)
  | v, w => .zero (v.sign != w.sign)

/-- The least power of two among the reals of a list. -/
def minExp (vs : List Val) : Int :=
  vs.foldl (fun x v => match v with
    | .num _ _ e => min x e
    | _ => x) 0

/-- The exact sum of the reals of a list, in units of 2^x. -/
def sumInt (x : Int) (vs : List Val) : Int :=
  vs.foldl (fun a v => match v with
    | .num neg m e => let k : Int := (m * 2 ^ (e - x).toNat : Nat); if neg then a - k else a + k
    | _ => a) 0

/-- The exact sum of terms that are zeros and reals, rounded once (04 R99, R104). -/
def sumFinite (f : Fmt) (rnd : Nat) (scale : Int) (vs : List Val) : Nat × BitVec 6 :=
  let x := minExp vs
  let k := sumInt x vs
  if k = 0 then
    (zeroBits (if vs.all Val.isZero && vs.all Val.sign then true
      else if vs.all Val.isZero && vs.all (fun v => !v.sign) then false else rnd == 2) f, 0)
  else roundF f rnd (decide (k < 0)) k.natAbs (x + scale)

/-- A sum of products and addends, after the special cases of 04 R105 (and of IEEE 754-2019, which they agree with):
`elts` are the elements and addends themselves, `terms` the terms. -/
def sumTerms (f : Fmt) (rnd : Nat) (scale : Int) (elts terms : List Val) : Nat × BitVec 6 :=
  let nanIn := elts.any (fun v => v.isNan || decide (v = .nonreal))
  if isTapF f then
    if nanIn then (nanBits f, 0) else sumFinite f rnd scale terms
  else if elts.any Val.isSig || terms.any Val.isSig then (nanBits f, fNV)
  else if nanIn then (nanBits f, 0)
  else if terms.any (fun v => decide (v = .inf false)) && terms.any (fun v => decide (v = .inf true)) then (nanBits f, fNV)
  else if terms.any Val.isInf then (infBits (terms.any (fun v => decide (v = .inf true))) f, 0)
  else sumFinite f rnd scale terms

end Sys2Proof.Machine
end

