-- ==== Sys2Proof/Machine/FloatLane.lean ====
section
/-! DEFINITION. Floating arithmetic (05 R134 to R136, R138) and the comparisons, select and clamp (05 R130 to R133). -/
namespace Sys2Proof.Machine

/-- Floating types alone are accepted (05 R117: F, T′). -/
def floatTy (t : Seat) : Bool := !isFloat t.ety

/-- An element-wise floating operation in the effective type, under the effective rounding mode (05 R134). -/
def floatOp (g : Fmt → Nat → (a b d : Nat) → Nat × BitVec 6) (t : Seat) (a b _q d : Word) : Word × BitVec 6 :=
  elemwise (tyBits t.ety) (fun a b _ d => g (fmtOf t.ety) t.ernd a b d) a b 0 d

/-- a + b and a − b (05 R134). -/
def fadd (f : Fmt) (rnd a b : Nat) : Nat × BitVec 6 :=
  let x := decodeF f a
  let y := decodeF f b
  sumTerms f rnd 0 [x, y] [x, y]
def fsub (f : Fmt) (rnd a b : Nat) : Nat × BitVec 6 :=
  let x := decodeF f a
  let y := decodeF f b
  sumTerms f rnd 0 [x, y] [x, y.negate]
/-- a × b (05 R134). -/
def fmul (f : Fmt) (rnd a b : Nat) : Nat × BitVec 6 :=
  let x := decodeF f a
  let y := decodeF f b
  sumTerms f rnd 0 [x, y] [x.mul y]
/-- d + a × b and d − a × b, the product not rounded (05 R134). -/
def fma (f : Fmt) (rnd a b d : Nat) : Nat × BitVec 6 :=
  let x := decodeF f a
  let y := decodeF f b
  let z := decodeF f d
  sumTerms f rnd 0 [x, y, z] [z, x.mul y]
def fnma (f : Fmt) (rnd a b d : Nat) : Nat × BitVec 6 :=
  let x := decodeF f a
  let y := decodeF f b
  let z := decodeF f d
  sumTerms f rnd 0 [x, y, z] [z, (x.mul y).negate]

/-- a / b (05 R134, 04 R101). -/
def fdiv (f : Fmt) (rnd a b : Nat) : Nat × BitVec 6 :=
  let x := decodeF f a
  let y := decodeF f b
  let neg := x.sign != y.sign
  let bad (fl : BitVec 6) := (nanBits f, fl)
  match x, y with
  | .nonreal, _ => bad 0
  | _, .nonreal => bad 0
  | .nan p, .nan q => bad (flagIf (p || q) fNV)
  | .nan p, _ => bad (flagIf p fNV)
  | _, .nan q => bad (flagIf q fNV)
  | .inf _, .inf _ => bad fNV
  | .zero _, .zero _ => bad (if isTapF f then fNR else fNV)
  | .inf _, _ => (infBits neg f, 0)
  | _, .inf _ => (zeroBits neg f, 0)
  | .num .., .zero _ => if isTapF f then bad (fDZ ||| fNR) else (infBits neg f, fDZ)
  | .zero _, .num .. => (zeroBits neg f, 0)
  | .num _ m e, .num _ n g =>
    let k := 96 + blen n
    roundF f rnd neg (m * 2 ^ k / n) (e - g - (k : Int)) (decide (m * 2 ^ k % n ≠ 0))

/-- The integer square root, found bit by bit from bit `k` down. -/
def isqrtFrom (n : Nat) : Nat → Nat → Nat
  | 0, r => r
  | k + 1, r => isqrtFrom n k (if (r + 2 ^ k) * (r + 2 ^ k) ≤ n then r + 2 ^ k else r)
def isqrt (n : Nat) : Nat := isqrtFrom n (blen n / 2 + 1) 0

/-- √a (05 R134, 04 R101). -/
def fsqrt (f : Fmt) (rnd a : Nat) : Nat × BitVec 6 :=
  match decodeF f a with
  | .nonreal => (nanBits f, 0)
  | .nan q => (nanBits f, flagIf q fNV)
  | .zero neg => (zeroBits neg f, 0)
  | .inf true => (nanBits f, fNV)
  | .inf false => (infBits false f, 0)
  | .num true _ _ => (nanBits f, if isTapF f then fNR else fNV)
  | .num false m e =>
    let sh := 128 + (e % 2).toNat
    let n := m * 2 ^ sh
    let r := isqrt n
    roundF f rnd false r ((e - (sh : Int)) / 2) (decide (r * r ≠ n))

/-- A number that orders IEEE encodings by value, −0 below +0 (05 R135). -/
def ieeeKey (p c : Nat) : Int :=
  let m := c % 2 ^ (p + 7)
  if c / 2 ^ (p + 7) % 2 = 1 then -(m : Int) - 1 else m

/-- minimumNumber and maximumNumber (05 R135). -/
def fminmax (f : Fmt) (max : Bool) (a b : Nat) : Nat × BitVec 6 :=
  let x := decodeF f a
  let y := decodeF f b
  let fl := flagIf (x.isSig || y.isSig) fNV
  match f with
  | .tap n _ =>
    if x = .nonreal ∨ y = .nonreal then (nanBits f, 0)
    else if (decide (ival true n a ≤ ival true n b)) != max then (a, 0) else (b, 0)
  | .ieee p =>
    if x.isNan && y.isNan then (nanBits f, fl)
    else if x.isNan then (b, fl)
    else if y.isNan then (a, fl)
    else if (decide (ieeeKey p a ≤ ieeeKey p b)) != max then (a, fl) else (b, fl)

/-- FNEG and FABS of one element (05 R136). -/
def fneg (f : Fmt) (a : Nat) : Nat :=
  match f with
  | .ieee p => if a / 2 ^ (p + 7) % 2 = 1 then a - 2 ^ (p + 7) else a + 2 ^ (p + 7)
  | .tap n _ => (2 ^ n - a) % 2 ^ n
def fabs (f : Fmt) (a : Nat) : Nat :=
  match f with
  | .ieee p => a % 2 ^ (p + 7)
  | .tap n _ => if a / 2 ^ (n - 1) % 2 = 1 then (2 ^ n - a) % 2 ^ n else a

/-- The class bits of one element (05 R138). -/
def fclass (f : Fmt) (a : Nat) : Nat :=
  match f, decodeF f a with
  | _, .nonreal => 2 ^ 10
  | _, .nan true => 2 ^ 8
  | _, .nan false => 2 ^ 9
  | _, .inf neg => if neg then 2 ^ 0 else 2 ^ 7
  | .ieee _, .zero neg => if neg then 2 ^ 3 else 2 ^ 4
  | .tap _ _, .zero _ => 2 ^ 4
  | .ieee p, .num neg _ _ =>
    let sub := decide (a / 2 ^ (p - 1) % 256 = 0)
    if neg then (if sub then 2 ^ 2 else 2 ^ 1) else (if sub then 2 ^ 5 else 2 ^ 6)
  | .tap n es, .num neg _ _ =>
    let c := fabs (.tap n es) a
    (if neg then 2 ^ 1 else 2 ^ 6) + (if c = 1 ∨ c = 2 ^ (n - 1) - 1 then 2 ^ 11 else 0)

/-- FADD (05 R134). -/
def execFadd (d : Dst) (a b : Src) (s : State) : Host.Outcome State Fault Refusal :=
  s.lane (fun t => { d := d, a := some a, b := some b, badType := floatTy t })
    (lanewise (floatOp (fun f rnd a b _ => fadd f rnd a b)))
/-- FSUB (05 R134). -/
def execFsub (d : Dst) (a b : Src) (s : State) : Host.Outcome State Fault Refusal :=
  s.lane (fun t => { d := d, a := some a, b := some b, badType := floatTy t })
    (lanewise (floatOp (fun f rnd a b _ => fsub f rnd a b)))
/-- FMUL (05 R134). -/
def execFmul (d : Dst) (a b : Src) (s : State) : Host.Outcome State Fault Refusal :=
  s.lane (fun t => { d := d, a := some a, b := some b, badType := floatTy t })
    (lanewise (floatOp (fun f rnd a b _ => fmul f rnd a b)))
/-- FMA (05 R134). -/
def execFma (d : Dst) (a b : Src) (s : State) : Host.Outcome State Fault Refusal :=
  s.lane (fun t => { d := d, a := some a, b := some b, readsD := true, badType := floatTy t })
    (lanewise (floatOp fma))
/-- FNMA (05 R134). -/
def execFnma (d : Dst) (a b : Src) (s : State) : Host.Outcome State Fault Refusal :=
  s.lane (fun t => { d := d, a := some a, b := some b, readsD := true, badType := floatTy t })
    (lanewise (floatOp fnma))
/-- FMIN (05 R135). -/
def execFmin (d : Dst) (a b : Src) (s : State) : Host.Outcome State Fault Refusal :=
  s.lane (fun t => { d := d, a := some a, b := some b, badType := floatTy t })
    (lanewise (floatOp (fun f _ a b _ => fminmax f false a b)))
/-- FMAX (05 R135). -/
def execFmax (d : Dst) (a b : Src) (s : State) : Host.Outcome State Fault Refusal :=
  s.lane (fun t => { d := d, a := some a, b := some b, badType := floatTy t })
    (lanewise (floatOp (fun f _ a b _ => fminmax f true a b)))
/-- FNEG (05 R136). -/
def execFneg (d : Dst) (a : Src) (s : State) : Host.Outcome State Fault Refusal :=
  s.lane (fun t => { d := d, a := some a, badType := floatTy t })
    (lanewise (floatOp (fun f _ a _ _ => (fneg f a, 0))))
/-- FABS (05 R136). -/
def execFabs (d : Dst) (a : Src) (s : State) : Host.Outcome State Fault Refusal :=
  s.lane (fun t => { d := d, a := some a, badType := floatTy t })
    (lanewise (floatOp (fun f _ a _ _ => (fabs f a, 0))))
/-- FDIV (05 R134). -/
def execFdiv (d : Dst) (a b : Src) (s : State) : Host.Outcome State Fault Refusal :=
  s.lane (fun t => { d := d, a := some a, b := some b, badType := floatTy t })
    (lanewise (floatOp (fun f rnd a b _ => fdiv f rnd a b)))
/-- FSQRT (05 R134). -/
def execFsqrt (d : Dst) (a : Src) (s : State) : Host.Outcome State Fault Refusal :=
  s.lane (fun t => { d := d, a := some a, badType := floatTy t })
    (lanewise (floatOp (fun f rnd a _ _ => fsqrt f rnd a)))
/-- FCLASS (05 R138). -/
def execFclass (d : Dst) (a : Src) (s : State) : Host.Outcome State Fault Refusal :=
  s.lane (fun t => { d := d, a := some a, badType := floatTy t })
    (lanewise (floatOp (fun f _ a _ _ => (fclass f a, 0))))

/-! ### Compare, select, clamp -/

/-- The relation `cc` (05 R130: 0 EQ, 1 NE, 2 LT, 3 LE, 4 GT, 5 GE, 6 UN) of an ordered pair. -/
def relOrd (cc : Nat) (lt eq : Bool) : Bool :=
  match cc with
  | 0 => eq
  | 1 => !eq
  | 2 => lt
  | 3 => lt || eq
  | 4 => !(lt || eq)
  | 5 => !lt
  | _ => false

/-- The relation of two elements and its flags (05 R130). -/
def rel (ty : BitVec 4) (cc a b : Nat) : Bool × BitVec 6 :=
  let w := tyBits ty
  if isIeee ty then
    let f := fmtOf ty
    let x := decodeF f a
    let y := decodeF f b
    let sig := x.isSig || y.isSig
    if x.isNan || y.isNan then (cc == 1 || cc == 6, flagIf (sig || (decide (2 ≤ cc) && decide (cc ≤ 5))) fNV)
    else
      let key (v : Val) (c : Nat) : Int := if v.isZero then 0 else ieeeKey (w - 8) c
      (relOrd cc (decide (key x a < key y b)) (decide (key x a = key y b)), 0)
  else
    let sg := isSigned ty || isTap ty
    let un := isTap ty && (a == 2 ^ (w - 1) || b == 2 ^ (w - 1))
    (if cc = 6 then un else relOrd cc (decide (ival sg w a < ival sg w b)) (a == b), 0)

/-- I, N, T and F types are accepted. -/
def cmpTy (t : Seat) : Bool := !(isInt t.ety || isTap t.ety || isIeee t.ety)

/-- CMP (05 R130). -/
def execCmp (d : Dst) (a b : Src) (f : BitVec 4) (s : State) : Host.Outcome State Fault Refusal :=
  s.lane (fun t => { d := d, a := some a, b := some b, illegal := decide (7 ≤ f.toNat), badType := cmpTy t })
    (lanewise (fun t a b _ _ => elemwise (tyBits t.ety) (fun a b _ _ =>
      let (r, fl) := rel t.ety f.toNat a b
      (if r then 2 ^ tyBits t.ety - 1 else 0, fl)) a b 0 0))

/-- The relation over the elements of a lane (05 R131): of any, or of all; and the flags. -/
def relLane (ty : BitVec 4) (cc : Nat) (all : Bool) (a b : Word) : Bool × BitVec 6 :=
  let w := tyBits ty
  let rs := (List.range (perLane w)).map (fun i => rel ty cc (elem w a i) (elem w b i))
  (if all then rs.all (fun r => r.1) else rs.any (fun r => r.1), rs.foldl (fun x r => x ||| r.2) 0)

/-- CMPM (05 R131): a mask register's bits of the active lanes; those of the others stay, or clear under MODE.ZERO. -/
def execCmpm (d : BitVec 3) (a b : Src) (f : BitVec 4) (s : State) : Host.Outcome State Fault Refusal :=
  s.run fun sid t => do
    let o : LaneOp := { d := ⟨true, 0⟩, a := some a, b := some b, badType := cmpTy t
                        illegal := decide (d = 0) || decide (f.toNat % 8 = 7) }
    s.laneCheck sid t o
    let (e, s1) ← s.readPorts sid t (o.srcs t)
    portPois e t.act
    let i := s.laneIn t o e.v
    let r : Lanes (Bool × BitVec 6) := tab 64 (fun l =>
      relLane t.ety (f.toNat % 8) (decide (8 ≤ f.toNat)) (vget 0 i.a l) (vget 0 i.b l))
    let s2 := s1.afterReads sid t (o.srcs t) (o.reads t) (gatherFlags t.gov (fun l => (vget (false, 0) r l).2)) 31
    let bits := laneMask ((lanesOf t.gov).filter (fun l => (vget (false, 0) r l).1))
    let old := if t.zeroBit then 0 else t.mr d.toNat &&& ~~~t.gov
    return (s2.setSeat sid ((s2.seat sid).putM d.toNat (bits ||| old))).next sid

/-- SEL (05 R132). -/
def execSel (d : Dst) (a b : Src) (m : BitVec 3) (s : State) : Host.Outcome State Fault Refusal :=
  s.lane (fun _ => { d := d, a := some a, b := some b, elems := false, masks := [m.toNat] })
    (fun t i => (fun l => if (t.mr m.toNat).getLsbD l then vget 0 i.a l else vget 0 i.b l, 0))

/-- CLAMP (05 R133). -/
def execClamp (d : Dst) (a b : Src) (s : State) : Host.Outcome State Fault Refusal :=
  s.lane (fun t => { d := d, a := some a, b := some b, q := true, readsD := t.qsrc.isNone, badType := ordTy t })
    (lanewise (fun t => natOp (fun _ w a b q _ => emin t.ety w (emax t.ety w a b) q) t))

end Sys2Proof.Machine
end

