-- ==== Sys2Proof/Machine/Conv.lean ====
section
/-! DEFINITION. Conversions (03 R77, R90 to R95; 05 R139, R140), codebook elements (05 R141, R142), and the keyed
instructions HAD, HADINV and RAND (04 R109 to R111; 05 R143, R144). -/
namespace Sys2Proof.Machine

/-- One element converted from type `st` to type `dt` (03 R90): bits and flags (03 R95). -/
def cvtElem (st dt : BitVec 4) (rnd : Nat) (satInf intSat : Bool) (c : Nat) : Nat × BitVec 6 :=
  let ws := tyBits st
  let wd := tyBits dt
  if st = dt then (c, 0)
  else if isInt st then
    let x := ival (isSigned st) ws c
    if isInt dt then (narrow intSat (isSigned dt) wd x, 0)
    else if x = 0 then (0, 0)
    else roundF (fmtOf dt) rnd (decide (x < 0)) x.natAbs 0
  else
    let v := decodeF (fmtOf st) c
    if isInt dt then
      let sg := isSigned dt
      match v with
      | .nan _ | .nonreal => (0, fNV)
      | .inf neg => (truncI wd (if neg then imin sg wd else imax sg wd), fNV)
      | .zero _ => (0, 0)
      | .num neg m e =>
        let (x, ix) := roundInt rnd neg m e
        if x < imin sg wd then (truncI wd (imin sg wd), fNV)
        else if imax sg wd < x then (truncI wd (imax sg wd), fNV)
        else (truncI wd x, flagIf ix fIX)
    else
      let f := fmtOf dt
      match v with
      | .nonreal => (nanBits f, 0)
      | .nan q => (nanBits f, flagIf q fNV ||| flagIf (isTapF f) fNR)
      | .inf neg =>
        if isTapF f then
          (if satInf then ((if neg then 2 ^ (wd - 1) + 1 else 2 ^ (wd - 1) - 1), fSA) else (nanBits f, fNR))
        else (infBits neg f, 0)
      | .zero neg => (zeroBits (neg && !isTap st) f, 0)
      | .num neg m e => roundF f rnd neg m e

/-- CVT (05 R139). -/
def execCvt (d : Dst) (a b : Src) (st : BitVec 4) (s : State) : Host.Outcome State Fault Refusal :=
  s.lane (fun t =>
      { d := d, a := some a, b := some b, elems := false, readsD := decide (tyBits t.ety < tyBits st)
        badType := decide (13 ≤ st.toNat) || decide (13 ≤ t.ety.toNat) })
    (lanewise (fun t a b _ dv =>
      let ws := tyBits st
      let wt := tyBits t.ety
      let ns := perLane ws
      let nt := perLane wt
      let o := b.toNat % 64 % (max ns nt / min ns nt)
      let cv (i : Nat) := cvtElem st t.ety t.ernd t.satInf t.intSat (elem ws a i)
      let n := min ns nt
      let base := if nt < ns then o * nt else 0
      let fl := (List.range n).foldl (fun x i => x ||| (cv (base + i)).2) 0
      if nt ≤ ns then (ofElems wt (fun i => (cv (base + i)).1), fl)
      else (ofElems wt (fun i => if o * ns ≤ i ∧ i < o * ns + ns then (cv (i - o * ns)).1 else elem wt dv i), fl)))

/-- PACK and UNPK refuse CB4, reserved codes, and widths that do not differ by two (05 R140). -/
def packTy (wide slim : BitVec 4) : Bool :=
  decide (13 ≤ wide.toNat) || decide (13 ≤ slim.toNat) || !decide (tyBits wide = 2 * tyBits slim)

/-- PACK (05 R140). -/
def execPack (d : Dst) (a b : Src) (st : BitVec 4) (s : State) : Host.Outcome State Fault Refusal :=
  s.lane (fun t => { d := d, a := some a, b := some b, bty := some st, badType := packTy st t.ety })
    (lanewise (fun t a b _ _ =>
      let ws := tyBits st
      let ns := perLane ws
      let cv (i : Nat) := cvtElem st t.ety t.ernd t.satInf t.intSat (if i < ns then elem ws a i else elem ws b (i - ns))
      (ofElems (tyBits t.ety) (fun i => (cv i).1), (List.range (2 * ns)).foldl (fun x i => x ||| (cv i).2) 0)))

/-- Elements `base` to `base` + nt - 1 of a lane's value widened (05 R140). -/
def unpkHalf (st : BitVec 4) (t : Seat) (a : Word) (base : Nat) : Word × BitVec 6 :=
  let wt := tyBits t.ety
  let cv (i : Nat) := cvtElem st t.ety t.ernd t.satInf t.intSat (elem (tyBits st) a (base + i))
  (ofElems wt (fun i => (cv i).1), (List.range (perLane wt)).foldl (fun x i => x ||| (cv i).2) 0)

/-- UNPK (05 R140): x(D) takes the lower half and enters the latches, x(D+1) the upper half. -/
def execUnpk (d : Dst) (a : Src) (st : BitVec 4) (s : State) : Host.Outcome State Fault Refusal :=
  s.run fun sid t => do
    let o : LaneOp := { d := d, a := some a, illegal := d.nw || decide (30 ≤ d.dr.toNat), badType := packTy t.ety st }
    s.laneCheck sid t o
    let (e, s1) ← s.readPorts sid t (o.srcs t)
    portPois e t.act
    let i := s.laneIn t o e.v
    let n := perLane (tyBits t.ety)
    let lo : Lanes (Word × BitVec 6) := tab 64 (fun l => unpkHalf st t (vget 0 i.a l) 0)
    let hi : Lanes (Word × BitVec 6) := tab 64 (fun l => unpkHalf st t (vget 0 i.a l) n)
    let fl := gatherFlags t.gov (fun l => (vget (0, 0) lo l).2 ||| (vget (0, 0) hi l).2)
    let s2 := s1.afterReads sid t (o.srcs t) (o.reads t) fl d.dr.toNat
    let s3 ← s2.putLane sid t d t.gov (fun l => (vget (0, 0) lo l).1)
    let s4 := s3.writeX sid (d.dr.toNat + 1) (if t.ezero then BitVec.allOnes 64 else t.gov)
      (fun l => if t.gov.getLsbD l then (vget (0, 0) hi l).1 else 0)
    return s4.next sid

/-! ### Codebooks -/

/-- Entry `j` of a codebook register. -/
def Seat.cbEntry (t : Seat) (n j : Nat) : BitVec 16 := vget 0 (vget (vrep 16 0) t.cb n) j

/-- A real's value in units of 2^-200, exact for BF16 and F32 (03 R78: every value is a multiple of 2^-149). -/
def Val.units : Val → Int
  | .num neg m e => let k : Int := (m * 2 ^ (e + 200).toNat : Nat); if neg then -k else k
  | _ => 0

/-- An order of values for the search of an infinite input: −Inf, the reals, +Inf. -/
def Val.rank : Val → Int × Int
  | .inf true => (-1, 0)
  | .inf false => (1, 0)
  | v => (0, v.units)
def rankLt (a b : Int × Int) : Bool := decide (a.1 < b.1) || (decide (a.1 = b.1) && decide (a.2 < b.2))

/-- The code whose entry satisfies "better than the best so far" first (05 R141: ties to the lowest code). -/
def bestCode (better : Val → Val → Bool) (es : Nat → Val) : Nat :=
  (List.range 16).foldl (fun best j => if better (es j) (es best) then j else best) 0

/-- QCB of one F32 element (05 R141): its code and flags. -/
def qcbElem (es : Nat → Val) (e : Val) : Nat × BitVec 6 :=
  let differ (j : Nat) : Bool := !decide ((es j).rank = e.rank)
  match e with
  | .nan _ | .nonreal => (0, fNV)
  | .inf true =>
    let j := bestCode (fun a b => rankLt a.rank b.rank) es
    (j, flagIf (differ j) fIX)
  | .inf false =>
    let j := bestCode (fun a b => rankLt b.rank a.rank) es
    (j, flagIf (differ j) fIX)
  | e =>
    let dist (v : Val) : Int := ((v.units - e.units).natAbs : Int)
    let j := bestCode (fun a b => !a.isInf && (b.isInf || decide (dist a < dist b))) es
    (j, flagIf (differ j) fIX)

/-- QCB (05 R141). -/
def execQcb (d : Dst) (a b : Src) (n : BitVec 2) (s : State) : Host.Outcome State Fault Refusal :=
  s.lane (fun _ => { d := d, a := some a, b := some b, elems := false, readsD := true })
    (lanewise (fun t a b _ dv =>
      let es (j : Nat) := decodeF (.ieee 8) (t.cbEntry n.toNat j).toNat
      let c0 := qcbElem es (decodeF f32 (elem 32 a 0))
      let c1 := qcbElem es (decodeF f32 (elem 32 a 1))
      let o := b.toNat % 8
      (ofElems 4 (fun i => if i = 2 * o then c0.1 else if i = 2 * o + 1 then c1.1 else elem 4 dv i), c0.2 ||| c1.2)))

/-- DQCB (05 R142). -/
def execDqcb (d : Dst) (a b : Src) (n : BitVec 2) (s : State) : Host.Outcome State Fault Refusal :=
  s.lane (fun _ => { d := d, a := some a, b := some b, elems := false })
    (lanewise (fun t a b _ _ =>
      let o := b.toNat % 4
      (ofElems 16 (fun i => (t.cbEntry n.toNat (elem 4 a (4 * o + i))).toNat), 0)))

/-! ### Keyed transforms -/

/-- mix (04 R109): the SplitMix64 finaliser of the key advanced by the counter. -/
def mix (key c : Word) : Word :=
  let z := key + (c + 1) * 0x9E3779B97F4A7C15#64
  let z := (z ^^^ (z >>> 30)) * 0xBF58476D1CE4E5B9#64
  let z := (z ^^^ (z >>> 27)) * 0x94D049BB133111EB#64
  z ^^^ (z >>> 31)

/-- The sign of lane `l`, element `p` (04 R110): whether it flips. -/
def hadSign (seed base : Word) (l p : Nat) : Bool := (mix seed (base + BitVec.ofNat 64 (l + 64 * p))).getLsbD 0

/-- The number of set bits of a lane number. -/
def popc6 (n : Nat) : Nat := epopc 6 n

/-- y_i of 04 R111, or its inverse (05 R143), for one element position; `xs` are the input lanes' elements. σ_i signs each
term of an inverse, and a sum of zero has the sign that 04 R99 gives that sum (log 101). -/
def hadOut (f : Fmt) (rnd : Nat) (inv : Bool) (sg : Nat → Bool) (xs : Nat → Val) (i : Nat) : Nat × BitVec 6 :=
  let terms := (List.range 64).map (fun j =>
    let flip := (popc6 (i &&& j) % 2 == 1) != (if inv then sg i else sg j)
    if flip then (xs j).negate else xs j)
  sumTerms f rnd (-3) ((List.range 64).map xs) terms

/-- The scalar in broadcast form that a source names, or none (05 R143, R148). -/
def Src.bcast (a : Src) : Option Nat := if a.l && decide (16 ≤ a.n.toNat) then some (a.n.toNat - 16) else none

/-- The lanes that supply their register to a cross-lane instruction (04 R111, 05 R145): launched and not exited. -/
def supply (t : Seat) (v : Lanes Word) : Lanes Word := tab 64 (fun l => if t.live.getLsbD l then vget 0 v l else 0)

/-- A scalar's value, a free one where it is dead (02 R62). -/
def State.sval (s : State) (t : Seat) (k n : Nat) : Word := if t.sdead.getLsbD n then s.free (64 * k) else t.sr n

/-- HAD and HADINV (05 R143, 04 R111). -/
def State.had (s : State) (inv : Bool) (d : Dst) (a b : Src) : Host.Outcome State Fault Refusal :=
  s.run fun sid t => do
    let n := (Src.bcast b).getD 0
    let o : LaneOp := { d := d, a := some a, b := some b, illegal := (Src.bcast b).isNone, badType := floatTy t
                        rd := some t.live, once := true, second := some (n + 1) }
    s.laneCheck sid t o
    let (e, s1) ← s.readPorts sid t (o.srcs t)
    portPois e t.live
    let i := s.laneIn t o e.v
    let seed := vget 0 i.b 0
    let base := s.sval t 2 (n + 1)
    let w := tyBits t.ety
    let f := fmtOf t.ety
    let xs := supply t i.a
    let outs : Lanes (Word × BitVec 6) := tab 64 (fun l =>
      if t.gov.getLsbD l then
        let rs := (List.range (perLane w)).map (fun p =>
          hadOut f t.ernd inv (fun j => hadSign seed base j p) (fun j => decodeF f (elem w (vget 0 xs j) p)) l)
        (ofElems w (fun p => (rs.getD p (0, 0)).1), rs.foldl (fun x r => x ||| r.2) 0)
      else (0, 0))
    let s2 := s1.afterReads sid t (o.srcs t) (o.reads t) (gatherFlags t.gov (fun l => (vget (0, 0) outs l).2)) d.dr.toNat
    let s2 := s2.useFree (if t.sdead.getLsbD (n + 1) then 64 * 5 else 0)
    let s3 ← s2.putLane sid t d t.gov (fun l => (vget (0, 0) outs l).1)
    return s3.next sid

/-- HAD (05 R143). -/
def execHad (d : Dst) (a b : Src) (s : State) : Host.Outcome State Fault Refusal := s.had false d a b
/-- HADINV (05 R143). -/
def execHadinv (d : Dst) (a b : Src) (s : State) : Host.Outcome State Fault Refusal := s.had true d a b

/-- RAND (05 R144). -/
def execRand (d : Dst) (a b : Src) (s : State) : Host.Outcome State Fault Refusal :=
  s.lane (fun _ => { d := d, a := some a, b := some b, elems := false })
    (fun _ i => (fun l => mix (vget 0 i.a l) (vget 0 i.b l * 64 + BitVec.ofNat 64 l), 0))

end Sys2Proof.Machine
end

