-- ==== Sys2Proof/Machine/CrossLane.lean ====
section
/-! DEFINITION. Cross-lane instructions (05 R145 to R152): each reads source lanes of its operand a as R145 gives them,
all before any lane is written. -/
namespace Sys2Proof.Machine

/-- The run of a cross-lane slot: `rd` are the lanes whose part of a is read; `fin` ends it with the result. -/
def State.cross (s : State) (o : Seat → LaneOp) (rd : Seat → LaneIn → Word)
    (f : Seat → LaneIn → (Nat → Word) × BitVec 6)
    (fin : State → Nat → Seat → LaneIn → (Nat → Word) → Except Stop State) : Host.Outcome State Fault Refusal :=
  s.run fun sid t => do
    let o := o t
    let ports := (o.srcs t).any Src.isPort
    let peek : Lanes Word := match s.north sid t with
      | .ok (.entry e) => e.v
      | _ => vrep 64 0
    let lanes := if (o.b.toList).any Src.isPort && t.pximm.isNone then 0 else rd t (s.laneIn t o peek)
    let o1 : LaneOp := { o with rd := some lanes }
    s.laneCheck sid t o1
    let (e, s1) ← s.readPorts sid t (o.srcs t)
    let i := s.laneIn t o e.v
    let lanes := rd t i
    if ports then deadCheck t false ((o.a.toList).map (fun a => (a, lanes)))
    portPois e (if (o.a.toList).any Src.isPort then lanes ||| t.gov else t.gov)
    let (v, fl) := f t i
    let s2 := s1.afterReads sid t (o.srcs t) (({ o with rd := some lanes } : LaneOp).reads t) fl o.d.dr.toNat
    let s3 ← fin s2 sid t i v
    return s3.next sid

/-- The usual end: the result goes to its active lanes. -/
def crossPut (d : Dst) (s : State) (sid : Nat) (t : Seat) (_i : LaneIn) (v : Nat → Word) : Except Stop State :=
  s.putLane sid t d t.gov v

/-- The source lanes of SHFL (05 R146): lane `l`'s, or none where it is out of range. -/
def shflLane (f : Nat) (b : Word) (l : Nat) : Option Nat :=
  let m : Nat := if f < 4 then b.toNat else if 7 ≤ b.toNat then 0 else 64 / 2 ^ b.toNat
  match f with
  | 0 => some (b.toNat % 64)
  | 1 | 5 => if m ≤ l then some (l - m) else none
  | 2 | 6 => if l + m < 64 then some (l + m) else none
  | _ => if m < 64 then some (l ^^^ m) else none

/-- SHFL (05 R146). -/
def execShfl (d : Dst) (a b : Src) (f : BitVec 4) (s : State) : Host.Outcome State Fault Refusal :=
  s.cross (fun _ => { d := d, a := some a, b := some b, q := true, elems := false
                      illegal := f == 4 || decide (8 ≤ f.toNat) })
    (fun t i => laneMask (((lanesOf t.gov).map (fun l => (shflLane f.toNat (vget 0 i.b l) l).getD
      (if i.q.isSome then 64 else l))).filter (fun j => t.live.getLsbD j)))
    (fun t i =>
      let src := supply t i.a
      (fun l => match shflLane f.toNat (vget 0 i.b l) l, i.q with
        | some j, _ => vget 0 src j
        | none, some q => vget 0 q l
        | none, none => vget 0 i.a l, 0))
    (crossPut d)

/-- One combine of two elements (05 R147, R149): 0 ADD, 1 MIN, 2 MAX, 3 AND, 4 OR, 5 XOR, 6 SUB; the first operand is
the lower lane's. -/
def combine (t : Seat) (op a b : Nat) : Nat × BitVec 6 :=
  let w := tyBits t.ety
  let f := fmtOf t.ety
  let sg := isSigned t.ety
  let flt := isFloat t.ety
  match op with
  | 0 => if flt then fadd f t.ernd a b else (narrow t.intSat sg w (ival sg w a + ival sg w b), 0)
  | 1 => if flt then fminmax f false a b else (emin t.ety w a b, 0)
  | 2 => if flt then fminmax f true a b else (emax t.ety w a b, 0)
  | 3 => (a &&& b, 0)
  | 4 => (a ||| b, 0)
  | 5 => (a ^^^ b, 0)
  | _ => if flt then fsub f t.ernd a b else (narrow t.intSat sg w (ival sg w a - ival sg w b), 0)

/-- Integers and floats for arithmetic are accepted (05 R117: I, N, F, T′). -/
def numTy (t : Seat) : Bool := !(isInt t.ety || isFloat t.ety)

/-- BFLY (05 R147). -/
def execBfly (d : Dst) (a : Src) (f : BitVec 4) (s : State) : Host.Outcome State Fault Refusal :=
  s.cross (fun t => { d := d, a := some a, illegal := decide (6 ≤ f.toNat), badType := numTy t })
    (fun t _ => laneMask ((List.range 64).filter (fun l =>
      t.live.getLsbD l && (t.gov.getLsbD l || t.gov.getLsbD (l ^^^ 2 ^ f.toNat)))))
    (fun t i =>
      let src := supply t i.a
      let r : Lanes (Word × BitVec 6) := tab 64 (fun l =>
        if t.gov.getLsbD l then
          let p := l ^^^ 2 ^ f.toNat
          let lo := vget 0 src (min l p)
          let hi := vget 0 src (max l p)
          elemwise (tyBits t.ety) (fun x y _ _ => combine t (if l < p then 0 else 6) x y) lo hi 0 0
        else (0, 0))
      (fun l => (vget (0, 0) r l).1, gatherFlags t.gov (fun l => (vget (0, 0) r l).2)))
    (crossPut d)

/-- SB is s0 to s15 in broadcast form, zero, or an XIMM (05 R148). -/
def laneNo (t : Seat) (b : Src) : Bool := t.pximm.isSome || (Src.bcast b).isSome || (!b.l && !b.lu && b.n == 31)

/-- The lane that SB names (05 R148). -/
def LaneIn.k (i : LaneIn) : Nat := (vget 0 i.b 0).toNat % 64

/-- A lane alone, where it is in a mask. -/
def oneLane (mask : Word) (k : Nat) : Word := mask &&& (1#64 <<< k)

/-- BCAST (05 R148). -/
def execBcast (d : Dst) (a b : Src) (s : State) : Host.Outcome State Fault Refusal :=
  s.cross (fun t => { d := d, a := some a, b := some b, elems := false, once := true, illegal := !laneNo t b })
    (fun t i => oneLane t.live i.k)
    (fun t i => (fun _ => vget 0 (supply t i.a) i.k, 0))
    (crossPut d)

/-- The identity of a combine (04 R108). -/
def identity (ty : BitVec 4) (op : Nat) : Nat :=
  let w := tyBits ty
  let sg := isSigned ty
  match op with
  | 1 => if isIeee ty then infBits false (fmtOf ty) else if isTap ty then 2 ^ (w - 1) - 1 else truncI w (imax sg w)
  | 2 => if isIeee ty then infBits true (fmtOf ty) else if isTap ty then 2 ^ (w - 1) + 1 else truncI w (imin sg w)
  | 3 => 2 ^ w - 1
  | _ => 0

/-- One level of the REDW tree and of the SCAN tree at distance `h` (04 R107). -/
def redLevel (op : Nat → Nat → Nat × BitVec 6) (h : Nat) (v : Lanes (Nat × BitVec 6)) : Lanes (Nat × BitVec 6) :=
  tab 64 (fun l =>
    if l % (2 * h) = 0 then
      let x := vget (0, 0) v l
      let y := vget (0, 0) v (l + h)
      let r := op x.1 y.1
      (r.1, x.2 ||| y.2 ||| r.2)
    else vget (0, 0) v l)
def scanLevel (op : Nat → Nat → Nat × BitVec 6) (h : Nat) (v : Lanes (Nat × BitVec 6)) : Lanes (Nat × BitVec 6) :=
  tab 64 (fun l =>
    if h ≤ l then
      let x := vget (0, 0) v (l - h)
      let y := vget (0, 0) v l
      let r := op x.1 y.1
      (r.1, y.2 ||| r.2)
    else vget (0, 0) v l)

/-- The six levels. -/
def levels (g : Nat → Lanes (Nat × BitVec 6) → Lanes (Nat × BitVec 6)) (v : Lanes (Nat × BitVec 6)) :
    Lanes (Nat × BitVec 6) := (List.range 6).foldl (fun v j => g (2 ^ j) v) v

/-- REDW and SCAN over all element positions: every lane's result, and the flags of every combine (05 R149). -/
def treeRun (t : Seat) (scan excl : Bool) (op : Nat) (i : LaneIn) : (Nat → Word) × BitVec 6 :=
  let w := tyBits t.ety
  let idn := identity t.ety op
  let cols := (List.range (perLane w)).map (fun p =>
    let v : Lanes (Nat × BitVec 6) := tab 64 (fun l =>
      (if t.gov.getLsbD l then elem w (vget 0 i.a l) p else idn, 0))
    levels (if scan then scanLevel (combine t op) else redLevel (combine t op)) v)
  let at' (l p : Nat) : Nat := (vget (0, 0) (cols.getD p (vrep 64 (0, 0))) l).1
  (fun l => ofElems w (fun p =>
      if !scan then at' 0 p else if !excl then at' l p else if l = 0 then idn else at' (l - 1) p),
   cols.foldl (fun x c => (List.range 64).foldl (fun x l => x ||| (vget (0, 0) c l).2) x) 0)

/-- The types of a tree operation (05 R149). -/
def treeTy (op : Nat) (t : Seat) : Bool := if 3 ≤ op then !isInt t.ety else numTy t

/-- REDW (05 R149). -/
def execRedw (d : Dst) (a : Src) (f : BitVec 3) (s : State) : Host.Outcome State Fault Refusal :=
  s.cross (fun t => { d := d, a := some a, illegal := decide (6 ≤ f.toNat), badType := treeTy f.toNat t })
    (fun t _ => t.gov) (fun t i => treeRun t false false f.toNat i) (crossPut d)

/-- SCAN (05 R149). -/
def execScan (d : Dst) (a : Src) (f : BitVec 4) (s : State) : Host.Outcome State Fault Refusal :=
  s.cross (fun t => { d := d, a := some a, illegal := decide (6 ≤ f.toNat % 8), badType := treeTy (f.toNat % 8) t })
    (fun t _ => t.gov) (fun t i => treeRun t true (decide (8 ≤ f.toNat)) (f.toNat % 8) i) (crossPut d)

/-- COMPACT (05 R150): every live lane is written, whatever MOD.ZM. -/
def execCompact (d : Dst) (a : Src) (s : State) : Host.Outcome State Fault Refusal :=
  s.cross (fun _ => { d := d, a := some a })
    (fun t _ => t.gov)
    (fun t i => let ls := lanesOf t.gov
      (fun l => match ls[l]? with
        | some j => vget 0 i.a j
        | none => 0, 0))
    (fun s sid t _ v => s.putLaneZ sid t d false t.live v)

/-- XTOS (05 R151): a lane's value into a scalar, whatever the mask. -/
def execXtos (d : Dst) (a b : Src) (s : State) : Host.Outcome State Fault Refusal :=
  s.cross (fun t => { d := ⟨d.nw, 0⟩, a := some a, b := some b, elems := false, once := true, illegal := !laneNo t b })
    (fun t i => oneLane t.live i.k)
    (fun t i => (fun _ => vget 0 (supply t i.a) i.k, 0))
    (fun s sid _ _ v => .ok (s.putScalar sid d (v 0)))

/-- STOX (05 R151): a value into one lane, where that lane is active; the latch holds the whole register. -/
def execStox (d : Dst) (a b : Src) (s : State) : Host.Outcome State Fault Refusal :=
  s.cross (fun t => { d := d, a := some a, b := some b, elems := false, once := true, readsD := true
                      illegal := !laneNo t b })
    (fun t i => oneLane t.gov i.k)
    (fun _ i => (fun _ => vget 0 i.a i.k, 0))
    (fun s sid t i v => s.putLaneZ sid t d false (oneLane t.gov i.k) v)

/-- MOV (05 R152). -/
def execMov (d : Dst) (a : Src) (s : State) : Host.Outcome State Fault Refusal :=
  s.lane (fun _ => { d := d, a := some a }) (fun _ i => (fun l => vget 0 i.a l, 0))

/-- MOVS (05 R152). -/
def execMovs (d : Dst) (a b : Src) (s : State) : Host.Outcome State Fault Refusal :=
  s.lane (fun _ => { d := d, a := some a, b := some b, elems := false })
    (lanewise (fun t a b _ _ =>
      let w := tyBits t.ety
      (ofElems w (fun i => elem w a (b.toNat / 2 ^ (4 * i) % 16 % perLane w)), 0)))

end Sys2Proof.Machine
end

