-- ==== Sys2Proof/Machine/Matrix.lean ====
section
/-! DEFINITION. Matrix work and the ports (06 R153 to R176): MDOT, MDOTP, APUT, AZERO and ASCL queued and run step by
step, batches and their windows, accumulator access, LDCB, PPASS, PDROP, PSTAT and TAILCFG; and the steps that the
cell, the die crossing and the tail sink take by themselves. -/
namespace Sys2Proof.Machine

/-! ### The queue (06 R153) -/

/-- The items of a row that have steps left. -/
def RowUnit.queued (r : RowUnit) : List MatItem := r.mat.filter (fun i => decide (i.done < i.steps))

/-- The queue has room, or the seat stalls. -/
def queueRoom (r : RowUnit) : Except Stop Unit := if r.queued.length < 8 then .ok () else .error .stall

/-- The accumulator that a field names, counted from the start of the allocation (01 R23). -/
def Seat.accIdx (t : Seat) (n : Nat) : Nat := (t.abase - t.ablk) * 32 + n

/-- POISON for accumulators read with an uncorrectable error in active lanes (14 R346). -/
def accPois (t : Seat) (mask : Word) (n count : Nat) : Except Stop Unit :=
  match (List.range count).find? (fun i => vget 0 t.accpois (t.accIdx n + i) &&& mask != 0) with
  | some i => .error (.trap { code := cPOISON, lanes := vget 0 t.accpois (t.accIdx n + i) &&& mask, reg := n + i })
  | none => .ok ()

/-- POISON for a codebook with an uncorrectable error that CB4 work samples (14 R346; 06 R155). -/
def cbPois (t : Seat) : Except Stop Unit :=
  match [0, 1].find? (fun k => t.ety == 13 && t.cbpois.getLsbD k && t.gov != 0) with
  | some k => .error (.trap { code := cPOISON, lanes := t.gov, reg := k })
  | none => .ok ()

/-- An item put into the queue; the seat's open batch is the one after the last closed (06 R159). -/
def State.enqueue (s : State) (sid : Nat) (f : MatItem → MatItem) : State :=
  let t := s.seat sid
  let r := s.row (sid / 4)
  let i : MatItem :=
    { id := r.nextItem, seat := sidSeat sid, kind := .azero, ty := t.ety, mask := t.gov, acc := 0, count := 0, steps := 1
      done := 0, a := .vals [], b := .vals [], ngroup := 0, cb0 := vget (vrep 16 0) t.cb 0, cb1 := vget (vrep 16 0) t.cb 1
      cur := vrep 64 0, pois := 0, batch := t.batch + 1, flags := 0, undef := 0 }
  s.setRow (sid / 4) { r with mat := r.mat ++ [f i], nextItem := r.nextItem + 1 }

/-! ### MDOT and MDOTP (06 R154 to R158) -/

/-- The registers of an operand group (06 R155); where the effective type is one that MDOT does not accept, the limits of
R155, which 02 R50 checks first, are taken for G = m (log 79). -/
def groupSize (ty : BitVec 4) (m : Nat) : Nat := if ty = 13 then (m + 1) / 2 else m

/-- A source code that cannot be a group of `g` registers (06 R155). -/
def groupIllegal (a : Src) (g : Nat) : Bool :=
  let n := a.n.toNat
  if a.l then
    a.lu || n == 6 || (decide (7 ≤ n) && decide (n ≤ 15)) || (decide (16 ≤ n) && decide (31 < n + g - 1)) ||
      (n == 4 && decide (8 < g)) || (decide (n ≤ 3 ∨ n = 5) && decide (1 < g))
  else if n = 31 then a.lu else decide (30 < n + g - 1)

/-- The registers of a group as sources, for the checks. -/
def groupSrcs (a : Src) (g : Nat) : List Src :=
  if (!a.l && a.n != 31) || (a.l && decide (16 ≤ a.n.toNat)) then
    (List.range g).map (fun j => { a with n := a.n + BitVec.ofNat 5 j })
  else [a]

/-- Pops `n` entries at once, or stalls (06 R158). -/
def State.popNorths (s : State) (sid : Nat) (t : Seat) : Nat → Except Stop (List PortEntry × State)
  | 0 => .ok ([], s)
  | n + 1 => do
    let (e, s1) ← s.readNorth sid t true
    let (es, s2) ← s1.popNorths sid t n
    return (e :: es, s2)

/-- The port entries that a group samples at issue. -/
def State.groupPorts (s : State) (sid : Nat) (t : Seat) (a : Src) (g : Nat) : Except Stop (List PortEntry × State) :=
  if a.isNp then s.popNorths sid t g
  else if a.isNpk then do
    let (e, s1) ← s.readNorth sid t false
    return ([e], s1)
  else .ok ([], s)

/-- A group as the item holds it: registers read as the steps run, or the values sampled (06 R153). -/
def State.group (s : State) (t : Seat) (a : Src) (es : List PortEntry) : OpGroup :=
  let n := a.n.toNat
  if a.l then
    if 16 ≤ n then .sregs (n - 16)
    else if a.isPort then .vals (es.map (fun e => e.v))
    else .vals [s.srcVal t false (vrep 64 0) 0 a]
  else if n = 31 then .vals []
  else .xregs n

/-- The issue of an MDOT or MDOTP. `z` is F[3] of an MDOTP. -/
def State.mdotIssue (s : State) (p z : Bool) (d : Nat) (a b : Src) (k : BitVec 3) :
    Host.Outcome State Fault Refusal :=
  s.run fun sid t => do
    let m := 2 ^ k.toNat
    let g := groupSize t.ety m
    let ga := groupSrcs a g
    let gb := groupSrcs b g
    let reads := (ga ++ gb).map (fun x => (x, t.gov))
    t.check sid false
      (decide (5 ≤ k.toNat) || groupIllegal a g || groupIllegal b g || (a.isPort && b.isPort) ||
        (p && !z && (a.isPort || b.isPort)))
      (!(t.ety == 8 || t.ety == 10 || t.ety == 11 || t.ety == 13)) p reads
    if !p then accPois t t.gov d 1
    cbPois t
    queueRoom (s.row (sid / 4))
    let keys ← if p && t.isTail then s.sinkKeys sid t t.gov else .ok none
    let view : SouthView ← if p then s.south sid t else .ok .discard
    let (ea, s1) ← s.groupPorts sid t a g
    let (eb, s2) ← s1.groupPorts sid t b g
    let (pe, s3) ← if p && !z then s2.readNorth sid t true else .ok ({ v := vrep 64 0, act := 0, ready := 0 }, s2)
    portPois { pe with pois := (ea ++ eb).foldl (fun x e => x ||| e.pois) pe.pois } t.gov
    let dead := reads.foldl (fun m r => m ||| t.deadIn false r.2 r.1) 0
    let id := (s3.row (sid / 4)).nextItem
    let s4 := s3.setSeat sid ((s3.seat sid).lastUse false t.gov (ga ++ gb))
    let s5 := s4.enqueue sid (fun i =>
      { i with kind := if p then .mdotp else .mdot, ty := t.ety, mask := t.gov, acc := t.accIdx d
               count := if p then 0 else 1, steps := m, a := s.group t a ea, b := s.group t b eb, ngroup := g
               cur := tab 64 (fun l => BitVec.ofNat 64 ((vget 0 pe.v l).toNat % 2 ^ 32)), undef := dead })
    let s6 :=
      if view = .discard then s5
      else
        let r := s5.row (sid / 4)
        let s5 := s5.setRow (sid / 4) { r with south := r.south ++ [.reserved id keys] }
        if view = .tail then s5.setSeat sid { s5.seat sid with tail := (s5.seat sid).tail.step } else s5
    return s6.next sid

/-- MDOT (06 R154). -/
def execMdot (d : BitVec 5) (a b : Src) (k : BitVec 3) (s : State) : Host.Outcome State Fault Refusal :=
  s.mdotIssue false false d.toNat a b k
/-- MDOTP (06 R154, R157). -/
def execMdotp (a b : Src) (z : BitVec 1) (k : BitVec 3) (s : State) : Host.Outcome State Fault Refusal :=
  s.mdotIssue true (z == 1) 0 a b k

/-- Member `j` of a group in lane `l`, as the step reads it. -/
def Seat.member (t : Seat) (g : OpGroup) (j l : Nat) : Word :=
  match g with
  | .xregs n => t.xr (n + j) l
  | .sregs n => t.sr (n + j)
  | .vals vs => vget 0 (vs.getD j (vrep 64 0)) l

/-- The lanes in which member `j` of a group has an uncorrectable error. -/
def Seat.memberPois (t : Seat) (g : OpGroup) (j : Nat) : Word :=
  match g with
  | .xregs n => vget 0 t.xpois (n + j)
  | .sregs n => if t.spois.getLsbD (n + j) then BitVec.allOnes 64 else 0
  | .vals _ => 0

/-- The value of an operand element in step `j` (06 R155): CB4 codes go through a codebook. -/
def opVal (ty : BitVec 4) (cb : Vector (BitVec 16) 16) (v : Word) (j i : Nat) : Val :=
  if ty = 13 then decodeF (.ieee 8) (vget 0 cb (elem 4 v (8 * (j % 2) + i))).toNat
  else decodeF (fmtOf ty) (elem (tyBits ty) v i)

/-- One step in one lane (04 R104, R105): the new sum and its flags. A tapered zero has no sign (03 R82), nor has its
product. -/
def mstep (ty : BitVec 4) (cb0 cb1 : Vector (BitVec 16) 16) (j : Nat) (c a b : Word) : Nat × BitVec 6 :=
  let n := if ty = 10 ∨ ty = 13 then 8 else 4
  let xs := (List.range n).map (opVal ty cb0 a j)
  let ys := (List.range n).map (opVal ty cb1 b j)
  let c := decodeF f32 c.toNat
  let prod (x y : Val) : Val :=
    match isTap ty, x.mul y with
    | true, .zero _ => .zero false
    | _, z => z
  sumTerms f32 0 0 (c :: xs ++ ys) (c :: (List.zipWith prod xs ys))

/-- A step of an MDOT or MDOTP in every lane of its mask; an error in a part that it reads marks its result (log 42). A
lane whose result is undefined raises no flag: an undefined value writes nothing but its destination (00 R1; log 80). -/
def MatItem.dot (i : MatItem) (t : Seat) : MatItem :=
  let j := if i.ty = 13 then i.done / 2 else i.done
  let c0 : Nat → Word := fun l =>
    if i.kind = .mdot ∧ i.done = 0 then (t.ar i.acc l).setWidth 64 else vget 0 i.cur l
  let r : Lanes (Nat × BitVec 6) := tab 64 (fun l =>
    if i.mask.getLsbD l then mstep i.ty i.cb0 i.cb1 i.done (c0 l) (t.member i.a j l) (t.member i.b j l) else (0, 0))
  { i with
    done := i.done + 1
    cur := tab 64 (fun l => BitVec.ofNat 64 (vget (0, 0) r l).1)
    flags := i.flags ||| gatherFlags (i.mask &&& ~~~i.undef) (fun l => (vget (0, 0) r l).2)
    pois := i.pois ||| ((t.memberPois i.a j ||| t.memberPois i.b j |||
      (if i.kind = .mdot ∧ i.done = 0 then vget 0 t.accpois i.acc else 0)) &&& i.mask) }

/-- Accumulator `n` of the allocation written in the lanes of a mask, poisoned in those of `pois`. -/
def Seat.putA (t : Seat) (n : Nat) (mask pois : Word) (v : Nat → Half) : Seat :=
  { t with
    acc := vset t.acc n (merge mask v (t.ar n))
    accpois := vset t.accpois n ((vget 0 t.accpois n &&& ~~~mask) ||| (pois &&& mask)) }

/-- What an item's last step writes to accumulator `n` of those it names (06 R156, R164 to R166): value and flags. -/
def MatItem.result (i : MatItem) (t : Seat) (k l : Nat) : Half × BitVec 6 :=
  let c := vget 0 i.cur l
  match i.kind with
  | .mdot | .mdotp => (c.setWidth 32, 0)
  | .aput => (if k = 0 then c.setWidth 32 else (c >>> 32).setWidth 32, 0)
  | .azero => (0, 0)
  | .ascl =>
    let r := fmul f32 0 (t.ar (i.acc + k) l).toNat (c.toNat % 2 ^ 32)
    (BitVec.ofNat 32 r.1, r.2)

/-- The lanes of accumulator `k` of those an item writes that hold an error once it has written: its sources', and, for
ASCL, the accumulator's own (14 R346; log 42). -/
def MatItem.resPois (i : MatItem) (t : Seat) (k : Nat) : Word :=
  if i.kind = .ascl then i.pois ||| vget 0 t.accpois (i.acc + k) else i.pois

/-- An item's result in the accumulators of its mask's lanes, a free one in the lanes where it is undefined (02 R62, 06
R161), which raise no flag (00 R1; log 80). -/
def State.matWrite (s : State) (sid : Nat) (i : MatItem) : State :=
  let t := s.seat sid
  let r (k : Nat) : Lanes (Half × BitVec 6) := tab 64 (fun l =>
    if i.mask.getLsbD l then i.result t k l else (0, 0))
  let t1 := (List.range i.count).foldl (fun (u : Seat) k =>
    let rk := r k
    u.putA (i.acc + k) i.mask (i.resPois t k) (fun l =>
      if i.undef.getLsbD l then (s.free (64 * k + l)).setWidth 32 else (vget (0, 0) rk l).1)) t
  let sure := i.mask &&& ~~~i.undef
  let fl := (List.range i.count).foldl (fun x k => x ||| gatherFlags sure (fun l => (vget (0, 0) (r k) l).2)) i.flags
  (s.setSeat sid { t1 with
      mflags := Sparse.set 0 t1.mflags i.batch.toNat (Sparse.get 0 t1.mflags i.batch.toNat ||| fl) }).useFree
    (if i.undef = 0 then 0 else 64 * i.count)

/-- Fills a tail's storable entries in order (06 R172). -/
def State.sinkDrain (s : State) (k : Nat) : Nat → State
  | 0 => s
  | n + 1 =>
    match s.sinkStore k with
    | some s1 => s1.sinkDrain k n
    | none => s

/-- The slot an MDOTP reserved is filled (06 R157), zero in inactive lanes (06 R156), or goes where its consumer has exited or its path is severed
(06 R171, R176). A tail's entry goes to its sink. -/
def State.fillSouth (s : State) (k : Nat) (t : Seat) (i : MatItem) : State :=
  let r := s.row k
  let e : PortEntry :=
    { v := tab 64 (fun l =>
        if i.undef.getLsbD l then s.free l else if i.mask.getLsbD l then vget 0 i.cur l else 0)
      act := i.mask, pois := i.pois, ready := (s.core (k / 64)).clkc + 1, item := some i.id }
  let gone := !t.isTail && (r.consExited || r.severedS)
  let mine (x : PortSlot) : Bool := match x with
    | .reserved n _ => n == i.id
    | .filled _ => false
  let south := r.south.filterMap (fun x => match x with
    | .reserved n ks => if n = i.id then (if gone then none else some (.filled { e with sink := ks })) else some x
    | x => some x)
  let s1 := (s.setRow k { r with south := south }).useFree (if i.undef = 0 then 0 else 64)
  if t.isTail && r.south.any mine then s1.sinkDrain k 8 else s1

/-- One step of the oldest queued item of a row (06 R153). -/
def State.matStep (s : State) (k : Nat) : State :=
  let r := s.row k
  match r.queued with
  | [] => s
  | i :: _ =>
    let sid := k * 4 + i.seat
    let t := s.seat sid
    let i' : MatItem := if i.kind = .mdot ∨ i.kind = .mdotp then i.dot t else { i with done := i.done + 1 }
    let s1 := s.setRow k { r with mat := r.mat.map (fun j => if j.id = i.id ∧ j.seat = i.seat then i' else j) }
    if i'.done < i'.steps then s1
    else
      let s2 := s1.matWrite sid i'
      if i.kind = .mdotp then s2.fillSouth k t i' else s2

/-! ### Batches (06 R159, R160) -/

/-- The signed difference of two batch numbers is above zero. -/
def batchAfter (a b : BitVec 32) : Bool := decide (0 < (a - b).toInt)

/-- Batch `n` of a seat and every earlier one have retired. -/
def State.retired (s : State) (sid : Nat) (n : BitVec 32) : Bool :=
  !(s.row (sid / 4)).queued.any (fun i => i.seat == sidSeat sid && !batchAfter i.batch n)

/-- MBATCH (06 R159). -/
def execMbatch (d : Dst) (s : State) : Host.Outcome State Fault Refusal :=
  s.ctl false [] [] fun sid t s1 =>
    let b := t.batch + 1
    let s2 := s1.setSeat sid { s1.seat sid with batch := b }
    .ok ((s2.putScalar sid d (b.setWidth 64)).next sid)

/-- A batch is closed, and not after batch `n`: never the open one (06 R160). -/
def Seat.upTo (t : Seat) (b n : BitVec 32) : Bool := b != t.batch + 1 && !batchAfter b n

/-- The flags of every closed batch up to `n` go into FSTAT, and the windows of its items close (06 R160, R161). -/
def State.closeBatches (s : State) (sid : Nat) (n : BitVec 32) : State :=
  let t := s.seat sid
  let upTo (k : Nat) : Bool := t.upTo (BitVec.ofNat 32 k) n
  let fl := (t.mflags.filter (fun p => upTo p.1)).foldl (fun x p => x ||| p.2) 0
  let s1 := s.setSeat sid { t.orFlags fl with mflags := t.mflags.filter (fun p => !upTo p.1) }
  let r := s1.row (sid / 4)
  s1.setRow (sid / 4) { r with mat := r.mat.filter (fun i => !(i.seat == sidSeat sid && t.upTo i.batch n)) }

/-- The batch an MWAIT waits for, given the number its operand names (06 R160). -/
def Seat.waitFor (t : Seat) (n : BitVec 32) : BitVec 32 := if batchAfter n t.batch then t.batch else n

/-- MWAIT (06 R160). -/
def execMwait (a : Src) (s : State) : Host.Outcome State Fault Refusal :=
  s.ctl (!((Src.bcast a).isSome || (a.latch).isSome || (!a.l && a.n == 31))) [a] [] fun sid t s1 =>
    let zero := !a.l
    let n := if zero then t.batch else t.waitFor ((s.scalar t a).setWidth 32)
    let old := decide ((2 : Int) ^ 31 - 8 ≤ (t.batch - n).toInt)
    if old || s.retired sid n then
      let s2 := s1.closeBatches sid n
      .ok (s2.setSeat sid (s2.seat sid).dropLatches.advance)
    else .error (.park (.batch n.toNat) true)

/-! ### Accumulator access (06 R163 to R166) -/

/-- The seat's open items write accumulator `n` of the allocation (06 R161). -/
def State.inWindow (s : State) (sid n : Nat) : Bool :=
  (s.row (sid / 4)).mat.any (fun i => i.seat == sidSeat sid && i.writes n)

/-- AGET (06 R163): an accumulator inside a window reads as a free value. -/
def execAget (d : Dst) (a : BitVec 5) (s : State) : Host.Outcome State Fault Refusal :=
  s.run fun sid t => do
    t.check sid false (a == 31) false (d.isSp false) []
    accPois t t.gov a.toNat 2
    let n := t.accIdx a.toNat
    let half (k l : Nat) : Word :=
      (if s.inWindow sid (n + k) then (s.free (64 * 8 + 64 * k + l)).setWidth 32 else t.ar (n + k) l).setWidth 64
    let touched := s.inWindow sid n || s.inWindow sid (n + 1)
    let s1 := s.useFree (if touched || vget 0 t.xdead d.dr.toNat != 0 then 64 * 10 else 0)
    let s2 ← s1.putLane sid t d t.gov (fun l => (half 1 l) <<< 32 ||| half 0 l)
    return s2.next sid

/-- The issue of an APUT, AZERO or ASCL: `f` completes the item from its sampled operand. -/
def State.accIssue (s : State) (illegal : Bool) (a : Option Src) (pois : Seat → Except Stop Unit)
    (f : Seat → Lanes Word → MatItem → MatItem) : Host.Outcome State Fault Refusal :=
  s.run fun sid t => do
    let srcs := a.toList
    let reads := srcs.map (fun x => (x, t.gov))
    t.check sid false illegal false false reads
    pois t
    queueRoom (s.row (sid / 4))
    let (e, s1) ← s.readPorts sid t srcs
    portPois e t.gov
    let v := match a with
      | some a => s.srcVal t false e.v 0 a
      | none => vrep 64 0
    let s2 := (s1.setSeat sid ((s1.seat sid).lastUse false t.gov srcs)).useFree (t.freeUsed false reads)
    return (s2.enqueue sid (fun i => f t v { i with mask := t.gov, cur := v })).next sid

/-- APUT (06 R164). -/
def execAput (d : BitVec 5) (a : Src) (s : State) : Host.Outcome State Fault Refusal :=
  s.accIssue (d == 31) (some a) (fun _ => .ok ())
    (fun t _ i => { i with kind := .aput, acc := t.accIdx d.toNat, count := 2 })
/-- AZERO (06 R165). -/
def execAzero (d : BitVec 5) (k : BitVec 4) (s : State) : Host.Outcome State Fault Refusal :=
  s.accIssue (decide (31 < d.toNat + k.toNat)) none (fun _ => .ok ())
    (fun t _ i => { i with kind := .azero, acc := t.accIdx d.toNat, count := k.toNat + 1 })
/-- ASCL (06 R166). -/
def execAscl (d : BitVec 5) (a : Src) (k : BitVec 4) (s : State) : Host.Outcome State Fault Refusal :=
  s.accIssue (decide (31 < d.toNat + k.toNat)) (some a) (fun t => accPois t t.gov d.toNat (k.toNat + 1))
    (fun t _ i => { i with kind := .ascl, acc := t.accIdx d.toNat, count := k.toNat + 1 })

/-! ### LDCB (06 R167, 03 R89) -/

/-- A codebook entry as LDCB loads it: any NaN becomes 0x7FC0. -/
def cbClean (v : Nat) : BitVec 16 :=
  match decodeF (.ieee 8) v with
  | .nan _ => 0x7FC0
  | _ => BitVec.ofNat 16 v

/-- LDCB (06 R167): the record's line is checked whole, and the row's queued sink stores to the 32 bytes that it loads go
first. -/
def execLdcb (n : BitVec 2) (a : Src) (s : State) : Host.Outcome State Fault Refusal :=
  s.ctl (!((Src.bcast a).isSome || (a.latch).isSome)) [a] [] fun sid t s1 => do
    let addr : Nat := (s.scalar t a).toNat % 2 ^ 32
    let as : List LaneAddr := [(0, Int.ofNat addr)]
    let ks ← s.spadReach sid t as 64 64 false false
    fenceWait (!s.behindSink sid t (ks.map (fun k => (k.1, k.2 + 0x20))) 32)
    s.spadPois as ks 64
    let key := (ks.map (fun k => k.2)).headD 0
    let u := s1.seat sid
    let cb : Vector (BitVec 16) 16 := tab 16 (fun j => cbClean (s.spad.read (key + 0x20 + 2 * j) 2))
    return (s1.setSeat sid
      { u with cb := vset u.cb n.toNat cb, cbpois := u.cbpois &&& ~~~(1#4 <<< n.toNat) }).next sid

/-! ### Port instructions (06 R173 to R175) -/

/-- PPASS (06 R174). The north port is read before the south path is looked at (log 102). -/
def execPpass (s : State) : Host.Outcome State Fault Refusal :=
  s.run fun sid t => do
    t.check sid false false false true []
    let (e, s1) ← s.readNorth sid t true
    portPois e t.gov
    let s2 ← s1.writeSouth sid t t.gov (fun l => vget 0 e.v l)
    return s2.next sid

/-- PDROP (06 R174): whatever the mask. -/
def execPdrop (s : State) : Host.Outcome State Fault Refusal :=
  s.run fun sid t => do
    t.check sid false false false true [] (masks := [])
    let (_, s1) ← s.readNorth sid t true
    return s1.next sid

/-- The entries of a row's north port that can be read now. -/
def State.readable (s : State) (sid : Nat) (t : Seat) : Nat :=
  if t.isHead && (s.row (sid / 4)).feed.isNone then 0
  else ((s.northSlots t (sid / 4)).takeWhile (fun x => match x with
    | some e => decide (e.ready ≤ (s.core (sidCore sid)).clkc)
    | none => false)).length

/-- PSTAT's word (06 R175). -/
def State.pstat (s : State) (sid : Nat) (t : Seat) : Word :=
  let k := sid / 4
  let r := s.row k
  let drained := r.prodExited && (s.northSlots t k).isEmpty && !s.crossingLeft t k
  BitVec.ofNat 64
    (s.readable sid t + (8 - r.south.length) * 2 ^ 5 + t.isHead.toNat * 2 ^ 9 + t.isTail.toNat * 2 ^ 10 +
     (t.isHead && r.feed.isSome).toNat * 2 ^ 11 + drained.toNat * 2 ^ 12 + r.consExited.toNat * 2 ^ 13 +
     (t.isTail && t.tail.on).toNat * 2 ^ 14 + (!t.isHead && k % 64 == 0).toNat * 2 ^ 15 +
     (!t.isTail && k % 64 == 63).toNat * 2 ^ 16)

/-- PSTAT (06 R175). -/
def execPstat (d : Dst) (s : State) : Host.Outcome State Fault Refusal :=
  s.run fun sid t => do
    t.check sid true false false true []
    return (s.putScalar sid d (s.pstat sid t)).next sid

/-- The seat is not its string's tail's port seat: PORT_UNBOUND with NOTTAIL (06 R173). -/
def tailPort (sid : Nat) (t : Seat) : Except Stop Unit :=
  trapIf (decide (sidSeat sid ≠ 0) || !t.bind.ports || !t.isTail) { code := cPORT_UNBOUND, nottail := true }

/-- TAILCFG (06 R173): NOTTAIL stands at row 5 of 02 R50. A misaligned BASE, or else PITCH, is recorded as TADDR, and
TINFOL is 1 as for a slot that executes once for the row (14 R345; log 32). -/
def execTailcfg (a b : Src) (s : State) : Host.Outcome State Fault Refusal :=
  s.ctl (!((Src.bcast a).isSome && (Src.bcast b).isSome)) [a, b] [] (mid := tailPort) fun sid t s1 => do
    let x := s.scalar t a
    let y := s.scalar t b 1
    trapIf (x >>> 32 != 0 || y >>> 49 != 0) { code := cILLEGAL_OP }
    trapIf (x &&& 7 != 0) { code := cMISALIGN_DATA, lanes := 1, addr := x }
    trapIf (y &&& 7 != 0) { code := cMISALIGN_DATA, lanes := 1, addr := (y.setWidth 32).setWidth 64 }
    let u := s1.seat sid
    return (s1.setSeat sid { u with tail := { a := x, b := y, i := 0, on := y.getLsbD 48 } }).next sid

/-! ### Steps of the cell, the die crossing and the tail sink -/

/-- MATRIX_STEP (06 R153). -/
def execMatrixStep (k : Fin 4096) (s : State) : Host.Outcome State Fault Refusal := .next (s.matStep k)

/-- The oldest filled entry moves into the crossing buffer below, where that has a free slot (06 R168); it is readable
nine of the reader's clocks later, beyond those that the reader's core has gathered and not yet begun. -/
def State.crossMove (s : State) (k : Nat) : State :=
  let r := s.row k
  let b := s.row (rowBelow k)
  match r.south with
  | .filled e :: rest =>
    if k % 64 = 63 ∧ b.north.length < 16 ∧ rowBelow k < 4096 ∧ e.sink = none ∧ !r.consGone ∧ !r.consExited then
      (s.setRow k { r with south := rest }).setRow (rowBelow k)
        { b with north := b.north ++ [{ e with ready :=
            (s.core (rowBelow k / 64)).clkc + (s.core (rowBelow k / 64)).phase / 1000 + 9 }] }
    else s
  | _ => s

/-- PORT_CROSSING_MOVE (06 R168). -/
def execPortCrossingMove (k : Fin 4096) (s : State) : Host.Outcome State Fault Refusal := .next (s.crossMove k)

/-- TAIL_SINK_STORE (06 R172): the oldest entry is stored; it stays while a line of it is absent. -/
def execTailSinkStore (k : Fin 4096) (s : State) : Host.Outcome State Fault Refusal := .next ((s.sinkStore k).getD s)

end Sys2Proof.Machine
end

