-- ==== Sys2Proof/Machine/Global.lean ====
section
/-! DEFINITION. Global memory: physical addresses (07 R190, R194, R195), page tables and translation (13 R325, R326;
07 R188, R189, R191), sector errors (14 R362), the line cache and its leases (07 R192, R217), the checks of a global
access, and loads and stores at the home units. -/
namespace Sys2Proof.Machine

/-! ### Physical addresses (07 R190, R194, R195) -/

/-- A stack, a die, a core. -/
def State.stack (s : State) (k : Nat) : Stack := vget {} s.hbmStacks k
def State.setStack (s : State) (k : Nat) (u : Stack) : State := { s with hbmStacks := vset s.hbmStacks k u }
def State.die (s : State) (d : Nat) : Die := vget {} s.dies d
def State.setDie (s : State) (d : Nat) (u : Die) : State := { s with dies := vset s.dies d u }

/-- The stack, stack-local address and sector number of a physical address. -/
def paStack (pa : Nat) : Nat := pa / 2 ^ 41
def paLocal (pa : Nat) : Nat := pa % 2 ^ 41
def paSector (pa : Nat) : Nat := pa / 32
/-- The grid die of a stack (01 R13). -/
def stackDie (k : Nat) : Nat := k / 3

/-- The number of one bits is odd. -/
def parity (n : Nat) : Bool := (List.range 28).foldl (fun b i => b != n.testBit i) false

/-- The pseudo-channel of a stack-local address (07 R194). -/
def Stack.pc (k : Stack) (a : Nat) : Nat :=
  (List.range 8).foldl (fun n i =>
    n + ((a.testBit (5 + i)) != parity ((a / 2 ^ 13 % 2 ^ 28) &&& (vget 0 k.hmask i).toNat)).toNat * 2 ^ i) 0

/-- The raw index of a data sector in member `i` of its group (07 R195). -/
def Stack.raw (k : Stack) (i q : Nat) : Nat :=
  if k.par then 16 * (q / 15) + (if q % 15 < i then q % 15 else q % 15 + 1) else q

/-- The member that holds stripe `r`'s parity. -/
def parityMember (r : Nat) : Nat := r % 16

/-- The pseudo-channel and raw index at which a stack-local address stands: a retired member's sectors stand in their
stripe's parity member (14 R364). -/
def Stack.place (k : Stack) (a : Nat) : Nat × Nat :=
  let pc := k.pc a
  let r := k.raw (pc / 16) (a / 2 ^ 13)
  if vget 0 k.retgrp (pc % 16) = BitVec.ofNat 8 (0x80 + pc / 16) then (pc % 16 + 16 * parityMember r, r) else (pc, r)

/-- The key of a raw sector: its stack, pseudo-channel and raw index. -/
def rawKey (k pc r : Nat) : Nat := (k * 256 + pc) * 2 ^ 29 + r

/-- The raw sector of a physical address. -/
def State.rawOf (s : State) (pa : Nat) : Nat :=
  let p := (s.stack (paStack pa)).place (paLocal pa)
  rawKey (paStack pa) p.1 p.2

/-- The home girth unit of a physical address: its stack and pseudo-channel (07 R198). -/
def State.homeOf (s : State) (pa : Nat) : Nat := s.rawOf pa / 2 ^ 29

/-- The usable capacity of a stack (07 R195). -/
def Stack.capacity (k : Stack) : Nat := if k.par then 90 * 10 ^ 9 else 96 * 10 ^ 9

/-- A physical address is backed (07 R190). -/
def State.backed (s : State) (pa : Nat) : Bool :=
  decide (paStack pa < 24) && decide (paLocal pa < (s.stack (paStack pa)).capacity)

/-! ### Bytes of HBM -/

/-- The filling of a byte's stack, or the earlier one that its table region kept (07 R197). -/
def State.filling (s : State) (pa : Nat) : Nat :=
  match s.kept.find? (fun (x : Nat × Nat × Nat) => decide (x.1 ≤ pa) && decide (pa < x.2.1)) with
  | some x => x.2.2
  | none => vget 0 s.epoch (paStack pa)

/-- What a byte holds where nothing has written it since its stack's hash was last changed (07 R197; log 6). -/
def State.fill (s : State) (pa : Nat) : Byte :=
  let e := s.filling pa
  if e = 0 then 0 else Config.freeByte e pa

/-- The byte at a physical address. -/
def State.hbyte (s : State) (pa : Nat) : Byte := s.hbm.byte pa ^^^ s.fill pa
/-- One byte written. -/
def State.hput (s : State) (pa : Nat) (b : Byte) : State := { s with hbm := s.hbm.put pa (b ^^^ s.fill pa) }
/-- `n` bytes as a number (00 R6). -/
def State.hread (s : State) (pa : Nat) : Nat → Nat
  | 0 => 0
  | n + 1 => (s.hbyte pa).toNat + 256 * s.hread (pa + 1) n
/-- The low `n` bytes of a number written (00 R6). -/
def State.hwrite (s : State) (pa : Nat) : Nat → Nat → State
  | 0, _ => s
  | n + 1, v => (s.hput pa (BitVec.ofNat 8 v)).hwrite (pa + 1) n (v / 256)

/-! ### The supervisor's records -/

/-- The partition that owns a die (13 R320). -/
def State.ownerOf (s : State) (d : Nat) : Option Nat :=
  (List.range 8).find? (fun p => (s.part p).en && (s.part p).dies.getLsbD d)

/-- A record goes to the event ring, or ELOST counts it when 64 are unread (14 R361). -/
def State.addEv (s : State) (p : Nat) (r : EvRec) : State :=
  let u := s.part p
  let r := { r with time := s.time }
  if u.ering.length < 64 then s.setPart p { u with ering := u.ering ++ [r], ehead := u.ehead + 1 }
  else s.setPart p { u with elost := u.elost + 1 }

/-- The same for the owner of a die, if it has one. -/
def State.addDieEv (s : State) (d : Nat) (r : EvRec) : State :=
  match s.ownerOf d with
  | some p => s.addEv p r
  | none => s

/-- The supervisor is told. -/
def State.report (s : State) (p : Nat) (r : Report) : State :=
  let u := s.part p
  s.setPart p { u with reports := u.reports ++ [r] }

/-! ### Sector errors (14 R362) -/

/-- A physical sector is poisoned (07 R199). -/
def State.secPois (s : State) (pa : Nat) : Bool := Sparse.get false s.hpois (paSector pa)
def State.setSecPois (s : State) (pa : Nat) (b : Bool) : State :=
  { s with hpois := Sparse.set false s.hpois (paSector pa) b }

/-- The sector has an uncorrectable error that no read has met. -/
def State.secUE (s : State) (pa : Nat) : Bool := Sparse.get false s.hue (s.rawOf pa)

/-- The stripe of a raw sector has parity, and no other sector of it has an uncorrectable error. -/
def State.canRebuild (s : State) (raw : Nat) : Bool :=
  let k := raw / 2 ^ 37
  let pc := raw / 2 ^ 29 % 256
  let r := raw % 2 ^ 29
  let u := s.stack k
  u.par && !(vget 0 u.retgrp (pc % 16)).getLsbD 7 &&
    !(List.range 16).any (fun i => decide (i ≠ pc / 16) && Sparse.get false s.hue (rawKey k (pc % 16 + 16 * i) r))

/-- A read meets an uncorrectable sector: rebuilt from its stripe, or given its poison mark, with its record. -/
def State.meetUE (s : State) (pa : Nat) : State :=
  let raw := s.rawOf pa
  if !s.secUE pa then s
  else
    let ok := s.canRebuild raw
    let s1 := { s with hue := Sparse.set false s.hue raw false }
    let s2 := if ok then s1 else s1.setSecPois pa true
    let k := paStack pa
    let s3 := s2.setStack k { s2.stack k with health := (s2.stack k).health + 1 }
    s3.addDieEv (stackDie k)
      { type := if ok then 2 else 3, die := stackDie k, stack := k, pch := raw / 2 ^ 29 % 256
        addr := BitVec.ofNat 64 (paSector pa * 32) }

/-! ### Translation (13 R325, R326; 07 R188 to R191) -/

/-- The base and size of a partition's table region on a die, if it is configured (13 R326). -/
def Part.region (u : Part) (d : Nat) : Option (Nat × Nat) :=
  let w := vget 0 u.tregion d
  let size := (w.extractLsb' 0 4).toNat
  if size = 0 then none else some ((w.extractLsb' 26 21).toNat * 2 ^ 26, size * 2 ^ 26)

/-- A physical range overlaps the table region of some partition. -/
def State.inRegion (s : State) (pa n : Nat) : Bool :=
  (List.range 8).any (fun p => (s.part p).en && (List.range 8).any (fun d =>
    (s.part p).dies.getLsbD d && match (s.part p).region d with
      | some (b, z) => decide (pa < b + z) && decide (b < pa + n)
      | none => false))

/-- A virtual address's index at a level, and the page a leaf there maps (13 R325); level 3, which has no leaf, counts as of
pages of 2^39 bytes (log 108). -/
def vaIndex (va : Nat) (level : Nat) : Nat :=
  if level = 3 then va / 2 ^ 39 % 2 ^ 13 else va / 2 ^ (12 + 9 * level) % 2 ^ 9
def pageSize (level : Nat) : Nat := 2 ^ (12 + 9 * level)

/-- ADDR of an entry, as an address. -/
def pteAddr (e : Word) : Nat := (e.extractLsb' 12 40).toNat * 2 ^ 12

/-- New accesses to a physical address wait: its stack's hash is being changed, or its unit is being retired (07 R197,
14 R364). -/
def State.held (s : State) (pa : Nat) : Bool :=
  let u := s.stack (paStack pa)
  u.hBusy || (u.retBusy && decide ((u.place (paLocal pa)).1 = u.retiring.toNat))

/-- A walk's end: an entry not present and its address, a present leaf with its level, an entry that waits with its stack
or unit (07 R197, 14 R364), one whose sector has an uncorrectable error not yet met, or one whose sector is poisoned (14
R362). -/
inductive Walk where
  | absent (at' : Option Nat)
  | leaf (e : Word) (level : Nat)
  | held
  | lost (pa : Nat)
  | poison
  deriving DecidableEq, Repr

/-- The walk from the table at offset `off`, through `level` and those below (13 R325). -/
def State.walkFrom (s : State) (base va : Nat) : Nat → Nat → Walk
  | level, off =>
    let at' := base + off + 8 * vaIndex va level
    let e : Word := BitVec.ofNat 64 (s.hread at' 8)
    if s.held at' then .held
    else if s.secUE at' then .lost at'
    else if s.secPois at' then .poison
    else if !e.getLsbD 0 then .absent (some at')
    else if e.getLsbD 1 then .leaf e level
    else
      match level with
      | 0 => .absent (some at')
      | l + 1 => s.walkFrom base va l (pteAddr e)

/-- The walk of a local virtual address by a die's walker. -/
def State.walk (s : State) (p d : Nat) (va : Nat) : Walk :=
  match (s.part p).region d with
  | some (b, _) => s.walkFrom b va 3 0
  | none => .absent none

/-- What an access does: read, write, fetch. -/
inductive AccKind where
  | read | write | fetch
  deriving DecidableEq, Repr

/-- Where a virtual address leads (07 R188 to R191): a physical address and whether its page is uncached, a peer, a page
not present, a violation, a wait for an entry's stack or unit (07 R197, 14 R364), an entry's sector to be rebuilt
first, or a poisoned entry (14 R362). -/
inductive Xlate where
  | mem (pa : Nat) (nc : Bool)
  | peer
  | absent
  | vio (code : Nat)
  | wait
  | lost (pa : Nat)
  | poison
  deriving DecidableEq, Repr

/-- The outcome of a present leaf, checked in the order of 07 R189. -/
def State.leafCheck (s : State) (p : Nat) (va : Nat) (k : AccKind) (e : Word) (level : Nat) : Xlate :=
  let size := pageSize level
  let pa := pteAddr e + va % size
  if !s.backed pa then .vio vPHYS_ADDR
  else if !(s.part p).dies.getLsbD (stackDie (paStack pa)) then .vio vPARTITION_BOUND
  else if s.inRegion (pa / size * size) size then .vio vPHYS_ADDR
  else
    match k with
    | .write => if e.getLsbD 2 then .mem pa (e.getLsbD 4) else .vio vPROT_WRITE
    | .fetch => if e.getLsbD 3 then .mem pa (e.getLsbD 4) else .vio vPROT_EXEC
    | .read => .mem pa (e.getLsbD 4)

/-- The links that may carry a grant's traffic (13 R337). -/
def grantLinks (u : Part) (g : Word) : BitVec 16 := g.setWidth 16 &&& u.span

/-- The grant of a peer address (13 R337; 07 R188). -/
def Part.grantOf (u : Part) (va : Word) : Word := vget 0 u.ogrant (va.extractLsb' 56 7).toNat

/-- The link on which an access to a peer address goes: the lowest of its grant's that is UP, if any (21 R393; log 9). -/
def State.peerLink (s : State) (p : Nat) (va : Word) : Option Nat :=
  let u := s.part p
  (List.range 16).find? (fun i => (grantLinks u (u.grantOf va)).getLsbD i && (vget {} s.module.links i).up)

/-- A bit that the address's form requires to be zero is set (07 R188). -/
def vaBad (va : Word) : Bool := if va.getLsbD 63 then va.extractLsb' 52 4 != 0 else va.extractLsb' 52 11 != 0

/-- Translation of a virtual address for a master of partition `p` whose walker is die `d`'s. -/
def State.xlate (s : State) (p d : Nat) (va : Word) (k : AccKind) : Xlate :=
  if vaBad va then .vio vPARTITION_BOUND
  else if va.getLsbD 63 then
    if k = .fetch then .vio vPROT_EXEC
    else
      let g := (s.part p).grantOf va
      if !g.getLsbD 63 || (k = .write && !g.getLsbD 62) then .vio vPARTITION_BOUND else .peer
  else
    match s.walk p d va.toNat with
    | .absent _ => .absent
    | .leaf e level => s.leafCheck p va.toNat k e level
    | .held => .wait
    | .lost pa => .lost pa
    | .poison => .poison

/-! ### Zero-sector elision (21 R386) -/

/-- Sectors of the homes that an instruction or an engine's row has read or written count for elision where they hold
zeros alone: once each, for the die that owns the stack (21 R386; log 81). -/
def State.elide (s : State) (secs : List Nat) : State :=
  let zero := secs.eraseDups.filter (fun c => (List.range 32).all (fun i => s.hbyte (c * 32 + i) == 0))
  let add (v : Vector Nat 8) (c : Nat) : Vector Nat 8 :=
    let d := stackDie (paStack (c * 32))
    vset v d (vget 0 v d + 1)
  { s with elided := zero.foldl add s.elided }

/-- The entry that a walk has found not present, by its sector: none where the walk ends otherwise. -/
def State.walkSector (s : State) (p d : Nat) (va : Word) : Option Nat :=
  if va.getLsbD 63 then none
  else match s.walk p d va.toNat with
    | .absent a => a.map paSector
    | _ => none

/-- The walks of some addresses have read the entries that they found not present, which may stand in sectors of zeros
(21 R386; log 81). -/
def State.elideWalks (s : State) (p d : Nat) (vas : List Word) : State := s.elide (vas.filterMap (s.walkSector p d))

/-! ### The checks of a global access (07 R180, R189) -/

/-- Where a lane's access goes: to memory, or to a peer that has answered. -/
inductive Loc where
  | mem (pa : Nat) (nc : Bool)
  | peer (r : PeerReply)
  deriving DecidableEq, Repr

/-- A lane's access: its lane, its virtual address and where it goes. -/
abbrev LaneLoc := Nat × Word × Loc

/-- Each access of a list with its translation, a peer's answer taken in order for each peer access; none where too few
answers stand or one of those needed is RETRY. -/
def takeReplies : List (Nat × Word × Xlate) → List PeerReply → Option (List (Nat × Word × Xlate × PeerReply) × List PeerReply)
  | [], rs => some ([], rs)
  | (l, va, .peer) :: xs, r :: rs =>
    if r = .retry then none
    else (takeReplies xs rs).map (fun p => ((l, va, .peer, r) :: p.1, p.2))
  | (_, _, .peer) :: _, [] => none
  | (l, va, x) :: xs, rs => (takeReplies xs rs).map (fun p => ((l, va, x, .data 0) :: p.1, p.2))

/-- The violation that an access met, of its own translation or, given its answer, at the peer. -/
def vioOf (x : Nat × Word × Xlate × PeerReply) : Option (Nat × Nat × Int) :=
  match x.2.2.1, x.2.2.2 with
  | .vio c, _ => some (x.1, c, x.2.1.toNat)
  | .peer, .violation c => some (x.1, c, x.2.1.toNat)
  | .peer, .refused => some (x.1, vPARTITION_BOUND, x.2.1.toNat)
  | _, _ => none

/-- A trap over the failing accesses of a list, the lowest lane's address recorded (14 R345). -/
def failTrap (s : State) (code : Nat) (write : Bool) (aux : Nat) (bad : List (Nat × Word)) : Except Stop Unit :=
  match bad with
  | [] => .ok ()
  | (_, va) :: _ =>
    .error (.after s (.trap { code := code, lanes := laneMask (bad.map (fun v => v.1)), addr := va, write := write
                              peer := va.getLsbD 63 && (code == cPAGE_FAULT || code == cDIE_FENCED), aux := aux }))

/-- A check that carries the state the machine has come to. -/
def under {α : Type} (s : State) : Except Stop α → Except Stop α
  | .ok a => .ok a
  | .error e => .error (.after s e)

/-- The accesses of a list that satisfy a test, as lanes and addresses. -/
def failing (xs : List (Nat × Word × Xlate × PeerReply)) (f : Xlate → PeerReply → Bool) : List (Nat × Word) :=
  (xs.filter (fun x => f x.2.2.1 x.2.2.2)).map (fun x => (x.1, x.2.1))

/-- The die that an access finds fenced (14 R365). -/
def State.fencedAt (s : State) (x : Xlate) (r : PeerReply) : Option Nat :=
  match x, r with
  | .mem pa _, _ => let d := stackDie (paStack pa); if s.fenced.getLsbD d then some d else none
  | .peer, .fenced d => some d
  | _, _ => none

/-- The addresses of a list that are not multiples of a size. -/
def misaligned (align : Nat) (as : List (Nat × Word)) : List (Nat × Word) := as.filter (fun a => a.2.toNat % align ≠ 0)

/-- A seat's FADDX contribution to an overlapping word waits still (04 R115, 08 R205). -/
def State.behindFaddx (s : State) (sid : Option Nat) (pa n : Nat) : Bool :=
  s.contribs.any (fun c => c.sid == sid && decide (c.addr < pa + n) && decide (pa < c.addr + 4))

/-- An access to a peer as it is sent on a span link (13 R337): the keel die stamps the module's identity and the
partition. -/
def State.frame (s : State) (p : Nat) (va : Word) (op : PeerOp) (r : PeerReply) : SpanFrame :=
  let g := (s.part p).grantOf va
  { dev := Config.device, part := p, link := (s.peerLink p va).getD 0, toDev := g.extractLsb' 16 16
    toPart := g.extractLsb' 32 3, va := va &&& 0xFFFFFFFFFFFFF#64, op := op, reply := r }

/-- The peer accesses of a list that satisfy a test on their answers, as frames; `op` tells what the access at a place of
the list asks, none where it asks nothing. -/
def State.frames (s : State) (p : Nat) (op : Nat → Option PeerOp) (ys : List (Nat × Word × Xlate × PeerReply))
    (f : PeerReply → Bool) : List SpanFrame :=
  ys.zipIdx.filterMap (fun (y : (Nat × Word × Xlate × PeerReply) × Nat) =>
    match y.1.2.2.1, op y.2 with
    | .peer, some o => if f y.1.2.2.2 then some (s.frame p y.1.2.1 o y.1.2.2.2) else none
    | _, _ => none)

/-- A peer's answer to an access that it has performed. -/
def PeerReply.isData : PeerReply → Bool
  | .data _ => true
  | _ => false

/-- The size code of an access of `n` bytes. -/
def sizeCode (n : Nat) : Fin 4 := if n = 1 then 0 else if n = 2 then 1 else if n = 4 then 2 else 3

/-- The access at any place of a list loads `n` bytes. -/
def loadOp (n : Nat) (_ : Nat) : Option PeerOp := some (.load (sizeCode n))
/-- The access at a place of a list stores the value of its lane. -/
def storeOps (n : Nat) (as : List (Nat × Word)) (v : Nat → Word) (i : Nat) : Option PeerOp :=
  some (.store (sizeCode n) (v ((as.getD i (0, 0)).1)) false)

/-- The lanes whose own translation fails: a violation or a page not present. -/
def localFails (xs : List (Nat × Word × Xlate)) : Word :=
  laneMask ((xs.filter (fun x => match x.2.2 with
    | .vio _ | .absent => true
    | _ => false)).map (fun x => x.1))

/-- The checks of a global access of a master of partition `p` walking on die `d`, in the order of 07 R189, over its
lanes' addresses, each of `n` bytes, `mis` those not aligned as the instruction requires: where each goes, and the
state with the peers' answers taken. The lanes' own violations, a form of R188 among them, decide once every lane's
walk has ended and before any peer is asked; a peer performs its access only where no lane fails (08 R202, 13 R330), and
its answer to the check is all that a failing instruction takes from it (log 9, log 95). -/
def State.gcheck (s : State) (p d : Nat) (sid : Option Nat) (as mis : List (Nat × Word)) (n : Nat)
    (write read : Bool) (op : Nat → Option PeerOp) : Except Stop (List LaneLoc × State) := do
  let xs := as.map (fun a => (a.1, a.2, s.xlate p d a.2 (if write then .write else .read)))
  match xs.findSome? (fun x => match x.2.2 with
    | .lost pa => some pa
    | _ => none) with
  | some pa => .error (.after (s.meetUE pa) .stall)
  | none => .ok ()
  if xs.any (fun x => x.2.2 == .wait) then .error .stall
  let sw := s.elideWalks p d (as.map (fun a => a.2))
  under sw (vioFreezeWith ((xs.map (fun x => (x.1, x.2.1, x.2.2, PeerReply.data 0))).filterMap vioOf) (localFails xs))
  if xs.any (fun x => x.2.2 == .peer && (s.peerLink p x.2.1).isNone) then .error .stall
  match takeReplies xs s.peerReplies with
  | none => .error .stall
  | some (ys, rest) =>
    let s1 := { sw with peerReplies := rest, spanOut := s.spanOut ++ s.frames p op ys (fun r => !r.isData) }
    let absent := failing ys (fun x r => x == .absent || (x == .peer && r == .pageFault))
    under s1 (vioFreezeWith (ys.filterMap vioOf) (laneMask (absent.map (fun v => v.1))))
    failTrap s1 cMISALIGN_DATA write 0 mis
    let fen := ys.filterMap (fun y => (s.fencedAt y.2.2.1 y.2.2.2).map (fun d => (y.1, y.2.1, d)))
    failTrap s1 cDIE_FENCED write ((fen.map (fun f => f.2.2)).headD 0) (fen.map (fun f => (f.1, f.2.1)))
    failTrap s1 cPAGE_FAULT write 0 absent
    let pas := ys.filterMap (fun y => match y.2.2.1 with
      | .mem pa _ => some pa
      | _ => none)
    if pas.any s.held || (write && pas.any (fun pa => s.behindFaddx sid pa n)) then .error .stall
    match if read then pas.find? s.secUE else none with
    | some pa => .error (.after (s.meetUE pa) .stall)
    | none => .ok ()
    failTrap s1 cPOISON false 0 (failing ys (fun x r => match x with
      | .mem pa _ => read && s.secPois pa
      | .peer => read && r == .poison
      | .poison => true
      | _ => false))
    return (ys.filterMap (fun y => match y.2.2.1 with
      | .mem pa nc => some (y.1, y.2.1, .mem pa nc)
      | .peer => some (y.1, y.2.1, .peer y.2.2.2)
      | _ => none),
      { s with peerReplies := rest, spanOut := s.spanOut ++ s.frames p op ys (fun _ => true) })

/-! ### Leases and the line cache (07 R192, R193; 08 R217) -/

/-- The latest lease expiry granted for a sector. -/
def State.leaseOf (s : State) (pa : Nat) : Nat := Sparse.get 0 s.leases (paSector pa)

/-- The 32 bytes of a sector at its home. -/
def State.sectorData (s : State) (pa : Nat) : Vector Byte 32 := tab 32 (fun i => s.hbyte (paSector pa * 32 + i))

/-- The bytes of a sector, from one of its bytes on, as a number. -/
def sectorRead (v : Vector Byte 32) (o : Nat) : Nat → Nat
  | 0 => 0
  | n + 1 => (vget 0 v o).toNat + 256 * sectorRead v (o + 1) n

/-- The valid sector that a core holds of an address (07 R192). -/
def State.cached (s : State) (core pa : Nat) : Option Sector :=
  match Sparse.get none (s.core core).lcache (paSector pa) with
  | some c => if s.time.toNat < c.expiry then some c else none
  | none => none

/-- The lines that a core's line cache holds (07 R192): at most 16,384 of 128 bytes. -/
def CoreUnit.lines (u : CoreUnit) : List Nat := (u.lcache.map (fun (e : Nat × Option Sector) => e.1 / 4)).eraseDups

/-- A core's line cache with room for a line: where it is full, some line makes room, which one the spec leaves open
(07 R192; log 11). -/
def State.makeRoom (s : State) (core line : Nat) : State :=
  let u := s.core core
  let ls := u.lines
  if ls.length < 16384 ∨ ls.contains line then s
  else
    let v := ls.getD ((s.free 0).toNat % ls.length) 0
    (s.setCore core { u with lcache := Sparse.clear (fun c => c / 4 == v) u.lcache }).useFree 1

/-- A core's valid copy of a sector goes: a no-cache load has returned what the home holds, and no later load of its rows
may return what is older (08 R203; log 97). -/
def State.dropSector (s : State) (core pa : Nat) : State :=
  let u := s.core core
  s.setCore core { u with lcache := Sparse.set none u.lcache (paSector pa) none }

/-- A sector fetched into a core's line cache with a lease (07 R192). -/
def State.fillLine (s : State) (p core pa : Nat) : State :=
  let s := s.makeRoom core (paSector pa / 4)
  let e := s.time.toNat + 64 * (s.part p).leaseLen.toNat
  let u := s.core core
  let s1 := s.setCore core { u with
    lcache := Sparse.set none u.lcache (paSector pa) (some { data := s.sectorData pa, expiry := e }) }
  { s1 with leases := Sparse.set 0 s1.leases (paSector pa) (max e (s.leaseOf pa)) }

/-- The addresses at which the lanes of a load go past the line cache, to the homes: all of a no-cache load, else those of
uncached pages (07 R192). -/
def pastCache (noCache : Bool) (ls : List LaneLoc) : List Nat :=
  ls.filterMap (fun x => match x.2.2 with
    | .mem pa nc => if noCache || nc then some pa else none
    | .peer _ => none)

/-- The addresses at which they look in the line cache. -/
def throughCache (noCache : Bool) (ls : List LaneLoc) : List Nat :=
  ls.filterMap (fun x => match x.2.2 with
    | .mem pa nc => if noCache || nc then none else some pa
    | .peer _ => none)

/-- What a lane of a load gets: the home's bytes, those of the valid sector that its core holds, or what the peer answered
to the first lane of that address (08 R206). -/
def State.loadVal (s : State) (core : Nat) (noCache : Bool) (n : Nat) (ls : List LaneLoc) (x : LaneLoc) : Nat :=
  match x.2.2 with
  | .mem pa nc =>
    match if noCache || nc then none else s.cached core pa with
    | some c => sectorRead c.data (pa % 32) n
    | none => s.hread pa n
  | .peer _ =>
    match ls.find? (fun y => y.2.1 == x.2.1) with
    | some (_, _, .peer (.data v)) => v.toNat % 2 ^ (8 * n)
    | _ => 0

/-- The loads of one instruction of a core's row, `n` bytes in each lane: each lane with its value, and the state with the
sectors fetched. No lane's fetch changes what another gets: a core's copies go first where a lane goes past the cache
(log 97), every lane then reads what stands, and each sector missed is fetched once (08 R206). -/
def State.gloads (s : State) (p core : Nat) (noCache : Bool) (n : Nat) (ls : List LaneLoc) : List (Nat × Nat) × State :=
  let home := pastCache noCache ls
  let s1 := home.foldl (fun (s : State) pa => s.dropSector core pa) s
  let miss := (((throughCache noCache ls).filter (fun pa => (s1.cached core pa).isNone)).map paSector).eraseDups
  let s2 := miss.foldl (fun (s : State) c => s.fillLine p core (c * 32)) s1
  (ls.map (fun x => (x.1, s1.loadVal core noCache n ls x)), s2.elide (home.map paSector ++ miss))

/-- A store to one granule: the home's bytes, and the issuing core's valid copy (07 R192). -/
def State.put (s : State) (core : Option Nat) (pa n v : Nat) : State :=
  let s1 := s.hwrite pa n v
  match core with
  | none => s1
  | some c =>
    match s.cached c pa with
    | none => s1
    | some e =>
      let u := s1.core c
      let d : Vector Byte 32 := tab 32 (fun i => if pa % 32 ≤ i ∧ i < pa % 32 + n then
          BitVec.ofNat 8 (v / 2 ^ (8 * (i - pa % 32))) else vget 0 e.data i)
      s1.setCore c { u with lcache := Sparse.set none u.lcache (paSector pa) (some { e with data := d }) }

/-- The ranges cover all 32 bytes of a sector. -/
def coversSector (ws : List (Nat × Nat)) (sec : Nat) : Bool :=
  (List.range 32).all (fun i => ws.any (fun w => w.1 ≤ sec * 32 + i && sec * 32 + i < w.1 + w.2))

/-- The stores of one instruction, packet row or command to memory, each an address, a size and a value, in order; a
sector they cover whole loses its poison mark and any error (07 R199). -/
def State.puts (s : State) (core : Option Nat) (ws : List (Nat × Nat × Nat)) : State :=
  let rs := ws.map (fun w => (w.1, w.2.1))
  let full := ((ws.map (fun w => paSector w.1)).eraseDups).filter (fun c =>
    (s.secPois (c * 32) || s.secUE (c * 32)) && coversSector rs c)
  let s1 := (ws.foldl (fun s w => s.put core w.1 w.2.1 w.2.2) s).elide (ws.map (fun w => paSector w.1))
  full.foldl (fun s c =>
    let s2 := s.setSecPois (c * 32) false
    { s2 with hue := Sparse.set false s2.hue (s2.rawOf (c * 32)) false }) s1

/-- The addresses of a write that leases can cover: none of an uncached page (08 R217). -/
def leased (pa : Nat) (nc : Bool) : List Nat := if nc then [] else [pa]

/-- The global write completion time of writes to these addresses now (08 R217); none of an uncached page is given. -/
def State.gwct (s : State) (pas : List Nat) : Nat := pas.foldl (fun e pa => max e (s.leaseOf pa)) s.time.toNat

/-- The later of two write completion times, either of which may be none. -/
def laterGwct : Option Nat → Option Nat → Option Nat
  | none, y => y
  | x, none => x
  | some g, some h => some (max g h)

/-- The seat has received a GWCT (08 R213), and its core with it. -/
def State.noteGwct (s : State) (sid g : Nat) : State :=
  let t := s.seat sid
  let s1 := s.setSeat sid { t with gwct := laterGwct (some g) t.gwct }
  let u := s1.core (sidCore sid)
  s1.setCore (sidCore sid) { u with gwct := laterGwct (some g) u.gwct }

/-- The seat has acquired: the writes of its core's parties happen before what it does next, though a release at a scope
within the core waited for none of their leases, and so a later release of its own waits for them (08 R211, R213; log
98). -/
def State.acquireGwct (s : State) (sid : Nat) : State :=
  let t := s.seat sid
  s.setSeat sid { t with gwct := laterGwct (s.core (sidCore sid)).gwct t.gwct }

/-- The addresses of a list of accesses that leases can cover (08 R217). -/
def leasedOf (ls : List LaneLoc) : List Nat :=
  ls.flatMap (fun l => match l.2.2 with
    | .mem pa nc => leased pa nc
    | .peer _ => [])

/-- The stores of a row's slot: to memory at the homes, a GWCT for them; a peer's are done where it answered. -/
def State.gstores (s : State) (sid : Nat) (n : Nat) (ws : List (LaneLoc × Nat)) : State :=
  let ms := ws.filterMap (fun w => match w.1.2.2 with
    | .mem pa _ => some (pa, n, w.2)
    | .peer _ => none)
  let s1 := s.puts (some (sidCore sid)) ms
  if ms = [] then s1 else s1.noteGwct sid (s.gwct (leasedOf (ws.map (fun w => w.1))))

/-! ### Settling (08 R213, R220) -/

/-- A core's line cache made invalid. -/
def State.flushLines (s : State) (core : Nat) : State := s.setCore core { s.core core with lcache := [] }
/-- A core's instruction cache made invalid. -/
def State.flushCode (s : State) (core : Nat) : State := s.setCore core { s.core core with icache := [] }

/-- The cores of the dies of a mask. -/
def coresOf (dies : BitVec 8) : List Nat := (List.range 64).filter (fun c => dies.getLsbD (c / 8))

/-- No contribution of the seat waits. -/
def State.contribsDone (s : State) (sid : Nat) : Bool := !s.contribs.any (fun c => c.sid == some sid)

/-- TIME has reached a GWCT and 4 ns (08 R213). -/
def State.past (s : State) : Option Nat → Bool
  | none => true
  | some g => decide (g + 4 ≤ s.time.toNat)

/-- A scope is a lease scope for a row (08 R208). -/
def State.leaseScope (s : State) (t : Seat) (scope : Nat) : Bool :=
  match scope with
  | 4 | 5 => true
  | 3 => match s.launchOf t with
    | some l => decide (1 < l.rigw * l.righ)
    | none => false
  | 1 => decide (64 < t.bind.slen)
  | _ => false

/-- Every access that the seat has issued is performed: its contributions, and the stores of its tail sink (08 R213;
06 R172). -/
def State.allDone (s : State) (sid : Nat) (t : Seat) : Bool := s.contribsDone sid && (s.sinkLeft sid t).isEmpty

/-- FREL at a scope has completed (08 R213). -/
def State.released (s : State) (sid : Nat) (t : Seat) (scope : Nat) : Bool :=
  s.allDone sid t && (!s.leaseScope t scope || s.past t.gwct)

/-- A peer is answered at a TIME, or at once where that has come (08 R217). -/
def State.ackAt (s : State) (p : Nat) (va : Word) (r : PeerReply) (due : Nat) : State :=
  if due ≤ s.time.toNat then { s with spanIn := s.spanIn ++ [(p, va, r)] }
  else { s with acks := s.acks ++ [{ part := p, va := va, reply := r, due := due }] }

/-- The acknowledgements that are due are given (08 R217). -/
def State.giveAcks (s : State) : State :=
  { s with
    spanIn := s.spanIn ++ (s.acks.filter (fun a => decide (a.due ≤ s.time.toNat))).map (fun a => (a.part, a.va, a.reply))
    acks := s.acks.filter (fun a => decide (s.time.toNat < a.due)) }

end Sys2Proof.Machine
end

