-- ==== Sys2Proof/Machine/Exact.lean ====
section
/-! DEFINITION. Exact floating accumulation at the girth units (04 R112 to R116). -/
namespace Sys2Proof.Machine

/-- A finite F32 value in units of 2^-149 (04 R112). -/
def fixedOf : Val → Int
  | .num neg m e => let k : Int := (m * 2 ^ (e + 149).toNat : Nat); if neg then -k else k
  | _ => 0

/-- A contribution added to an accumulator (04 R113). -/
def Accum.add (a : Accum) (v : Nat) : Accum :=
  let x := decodeF f32 v
  { q := a.q + BitVec.ofInt 320 (fixedOf x)
    pinf := a.pinf || decide (x = .inf false)
    ninf := a.ninf || decide (x = .inf true)
    nan := a.nan || x.isNan
    negz := a.negz && decide (x = .zero true)
    n := min (a.n + 1) (2 ^ 48 - 1) }

/-- The word that XCLOSE writes for an accumulator (04 R114). -/
def Accum.word (a : Accum) : Nat :=
  if a.nan || (a.pinf && a.ninf) || decide (2 ^ 42 ≤ a.n) then nanBits f32
  else if a.pinf then infBits false f32
  else if a.ninf then infBits true f32
  else if a.q = 0 then zeroBits a.negz f32
  else (roundF f32 0 (decide (a.q.toInt < 0)) a.q.toInt.natAbs (-149)).1

/-- The accumulator open for an address, if any. -/
def State.accum (s : State) (pa : Nat) : Option Accum := Sparse.get none s.accums pa

/-- A girth unit has an accumulator free (04 R112, R115). -/
def State.unitRoom (s : State) (pa : Nat) : Bool :=
  decide ((s.accums.filter (fun e => e.2.isSome && s.homeOf e.1 == s.homeOf pa)).length < 32)

/-- A contribution performed at its unit, in one step; none while it must wait for an accumulator (04 R113, R115). -/
def State.contribute (s : State) (pa : Nat) (v : Nat) : Option State :=
  match s.accum pa with
  | some a => some { s with accums := Sparse.set none s.accums pa (some (a.add v)) }
  | none =>
    if s.unitRoom pa then
      some { s with accums := Sparse.set none s.accums pa (some (((({} : Accum).add (s.hread pa 4))).add v)) }
    else none

/-- A waiting contribution's master is frozen, its row or the span source that sent it: it performs nothing until it is
resumed (08 R233; 13 R331). -/
def State.contribFrozen (s : State) (c : Contrib) : Bool :=
  match c.sid, c.who with
  | some sid, _ => decide ((s.seat sid).status = .frozen)
  | none, .peer link dev _ _ => (s.part c.part).spanFrozen.contains (link, dev.toNat)
  | none, .row _ _ => false

/-- A contribution does not need a fresh accumulator, or no earlier arrival at its unit waits for one (04 R113, R115). -/
def State.turn (s : State) (older : List Contrib) (pa : Nat) : Bool :=
  (s.accum pa).isSome ||
    !older.any (fun c => s.homeOf c.addr == s.homeOf pa && (s.accum c.addr).isNone && !s.contribFrozen c)

/-- A contribution performed at its unit where its turn has come: its GWCT goes to its issuer, or its acknowledgement to the
peer that sent it (04 R113; 08 R217). -/
def State.perform (s : State) (older : List Contrib) (c : Contrib) : Option State :=
  if !s.turn older c.addr || s.contribFrozen c then none
  else
    (s.contribute c.addr c.v.toNat).map (fun s1 =>
      let g := s.gwct (leased c.addr c.nc)
      match c.sid, c.who with
      | some sid, _ => s1.noteGwct sid g
      | none, .peer _ _ _ va => s1.ackAt c.part va (.data 0) (g + 4)
      | none, _ => s1)

/-- A contribution arrives at its unit: performed, or waiting behind those that need a fresh accumulator (04 R113,
R115). -/
def State.arrive (s : State) (c : Contrib) : State :=
  (s.perform s.contribs c).getD { s with contribs := s.contribs ++ [c] }

/-- FADDX_CONTRIBUTION (04 R113, R115): a waiting contribution is performed if an accumulator is free for it. -/
def execFaddxContribution (i : Nat) (s : State) : Host.Outcome State Fault Refusal :=
  match s.contribs[i]? with
  | none => .next s
  | some c => .next (({ s with contribs := s.contribs.eraseIdx i } : State).perform (s.contribs.take i) c |>.getD s)

/-- FADDX_WAIT_REPORT (04 R115): a contribution that has waited 100 µs is reported once. -/
def execFaddxWaitReport (i : Nat) (s : State) : Host.Outcome State Fault Refusal :=
  match s.contribs[i]? with
  | none => .next s
  | some c =>
    if !c.reported && decide (c.since + 100000 ≤ s.time.toNat) then
      let s1 := { s with contribs := s.contribs.set i { c with reported := true } }
      .next (s1.report c.part (.faddx (s.homeOf c.addr) c.addr c.who))
    else .next s

/-- Open accumulators in a range are closed, each with its word written (04 R114): the addresses and words. -/
def State.closing (s : State) (lo n : Nat) : List (Nat × Nat) :=
  s.accums.filterMap (fun e => match e.2 with
    | some a => if lo ≤ e.1 ∧ e.1 < lo + n then some (e.1, a.word) else none
    | none => none)

end Sys2Proof.Machine
end

