-- ==== Sys2Proof/Machine/Memory.lean ====
section
/-! DEFINITION. Memory instructions (09 R234 to R245): loads, stores, block forms, presence control, atomics, prefetch
and ISECT, in both address spaces. -/
namespace Sys2Proof.Machine

/-! ### The shared run of a lane or uniform memory slot -/

/-- The lanes that access: the governing mask's, or lane 0 for a uniform slot. -/
def Seat.accLanes (t : Seat) : List Nat := lanesOf t.act

/-- The run of a memory slot: its register checks, its operands, then `body` on the machine as found, with what the
slot's reads do to a state. -/
def State.mem (s : State) (o : Seat → LaneOp)
    (body : Nat → Seat → LaneIn → (State → Except Stop State) → Except Stop State) : Host.Outcome State Fault Refusal :=
  s.run fun sid t => do
    let o := o t
    s.laneCheck sid t o
    let (e, _) ← s.readPorts sid t (o.srcs t)
    portPois e t.act
    body sid t (s.laneIn t o e.v) (fun s => do
      let (_, s1) ← s.readPorts sid t (o.srcs t)
      return s1.afterReads sid t (o.srcs t) (o.reads t) 0 o.d.dr.toNat)

/-- A scratchpad effective address: zext(a) + sext(b) times a scale (09 R235). -/
def spadEA (a b : Word) (scale : Nat) : Int := (a.toNat : Int) + b.toInt * scale

/-- The scratchpad addresses of the accessing lanes. -/
def LaneIn.spadAddrs (i : LaneIn) (scale : Nat) : List LaneAddr :=
  (lanesOf i.act).map (fun l => (l, spadEA (vget 0 i.a l) (vget 0 i.b l) scale))

/-- The global addresses of the accessing lanes (09 R235). -/
def LaneIn.gAddrs (i : LaneIn) : List (Nat × Word) := (lanesOf i.act).map (fun l => (l, vget 0 i.a l + vget 0 i.b l))

/-- The element that a lane got. -/
def laneOf (vs : List (Nat × Nat)) (l : Nat) : Nat := ((vs.find? (fun v => v.1 == l)).map (fun v => v.2)).getD 0

/-- A loaded element extended to 64 bits (09 R237). -/
def extend (sg : Bool) (n v : Nat) : Word := BitVec.ofInt 64 (ival sg (8 * n) v)

/-- A load's or an atomic's result written, and the latches invalidated (09 R237, R242; 02 R58). -/
def State.putLoad (s : State) (sid : Nat) (t : Seat) (d : Dst) (v : Nat → Word) : Except Stop State := do
  let n := d.dr.toNat
  let s1 ←
    if t.uniform then .ok (if d.nw then s else s.writeS sid n (v 0))
    else if d.nw then .ok s
    else if n = 31 then s.writeSouth sid t t.gov v
    else .ok (s.writeX sid n (if t.ezero then BitVec.allOnes 64 else t.gov)
      (fun l => if t.gov.getLsbD l then v l else 0))
  return s1.setSeat sid (s1.seat sid).dropLatches

/-! ### Loads and stores of one element (09 R236, R237) -/

/-- MOD names the type that sets the size (09 R236). -/
def Seat.typed (t : Seat) : Bool := t.modw.getLsbD 15
/-- The size of an element in bytes, and whether it is sign-extended. -/
def Seat.esize (t : Seat) (f : BitVec 4) : Nat := if t.typed then tyBits t.ety / 8 else 2 ^ (f.toNat % 4)
def Seat.esigned (t : Seat) (f : BitVec 4) : Bool := if t.typed then isSigned t.ety else f.getLsbD 2
/-- The F values that an element access does not take; CB4 is no element of memory. -/
def Seat.fBad (t : Seat) (load : Bool) (f : BitVec 4) : Bool :=
  (t.typed && f.extractLsb' 0 3 != 0) || (f.getLsbD 2 && (!load || f.extractLsb' 0 2 == 3))
def Seat.cb4 (t : Seat) : Bool := t.typed && t.ety == 13

/-- The source that a store's D field names: zero for 31 (09 R234). -/
def dataSrc (d : BitVec 5) : Src := ⟨false, false, d⟩

/-- The values of a store's data register. -/
def State.dataVal (s : State) (t : Seat) (d : BitVec 5) : Lanes Word := s.srcVal t t.uniform (vrep 64 0) 3 (dataSrc d)

/-- What a store's slot names: its data register is read in the accessing lanes (02 R62, 14 R346). -/
def storeOp (d : BitVec 5) (a b : Src) (illegal badType : Bool) : LaneOp :=
  { d := ⟨false, 0⟩, a := some a, b := some b, elems := false, illegal := illegal, badType := badType
    data := some (dataSrc d) }

/-- The data register of a block store, as it is read: in the accessing lanes. -/
def Seat.dataRead (t : Seat) (d : BitVec 5) : List (Bool × Src × Word) := [(false, dataSrc d, t.gov)]
/-- The free values that a dead data register has used. -/
def Seat.dataFree (t : Seat) (d : BitVec 5) : Nat := t.freeUsed false ((t.dataRead d).map (fun x => x.2))

/-- LDS (09 R236, R237). -/
def execLds (d : Dst) (a b : Src) (f : BitVec 4) (s : State) : Host.Outcome State Fault Refusal :=
  s.mem (fun t => { d := d, a := some a, b := some b, elems := false, illegal := t.fBad true f, badType := t.cb4 })
    fun sid t i rd => do
      let n := t.esize f
      let ks ← s.spadCheck sid t (i.spadAddrs (if f.getLsbD 3 then n else 1)) n n false true true
      let vs := ks.map (fun k => (k.1, s.spad.read k.2 n))
      let s1 ← rd s
      let s2 ← s1.putLoad sid t d (fun l => extend (t.esigned f) n (laneOf vs l))
      return s2.next sid

/-- STS (09 R236, R237). -/
def execSts (d : BitVec 5) (a b : Src) (f : BitVec 4) (s : State) : Host.Outcome State Fault Refusal :=
  s.mem (fun t => storeOp d a b (t.fBad false f) t.cb4)
    fun sid t i rd => do
      let n := t.esize f
      let ks ← s.spadCheck sid t (i.spadAddrs (if f.getLsbD 3 then n else 1)) n n true false false
      let v := s.dataVal t d
      let s1 ← rd s
      return (s1.spadStore (ks.map (fun k => (k.2, n, (vget 0 v k.1).toNat)))).next sid

/-- LDG (09 R236, R237). -/
def execLdg (d : Dst) (a b : Src) (f : BitVec 4) (s : State) : Host.Outcome State Fault Refusal :=
  s.mem (fun t => { d := d, a := some a, b := some b, elems := false, illegal := t.fBad true f, badType := t.cb4 })
    fun sid t i rd => do
      let n := t.esize f
      let (ls, s1) ← s.gcheck t.bind.part (sidCore sid / 8) (some sid) i.gAddrs (misaligned n i.gAddrs) n false true
        (loadOp n)
      let (vs, s2) := s1.gloads t.bind.part (sidCore sid) (f.getLsbD 3) n ls
      let s3 ← rd s2
      let s4 ← s3.putLoad sid t d (fun l => extend (t.esigned f) n (laneOf vs l))
      return s4.next sid

/-- STG (09 R236, R237). -/
def execStg (d : BitVec 5) (a b : Src) (f : BitVec 2) (s : State) : Host.Outcome State Fault Refusal :=
  s.mem (fun t => storeOp d a b (t.fBad false (f.setWidth 4)) t.cb4)
    fun sid t i rd => do
      let n := t.esize (f.setWidth 4)
      let v := s.dataVal t d
      let (ls, s1) ← s.gcheck t.bind.part (sidCore sid / 8) (some sid) i.gAddrs (misaligned n i.gAddrs) n true false
        (storeOps n i.gAddrs (fun l => vget 0 v l))
      let s2 ← rd s1
      return (s2.gstores sid n (ls.map (fun l => (l, (vget 0 v l.1).toNat)))).next sid

/-! ### Block forms (09 R238) -/

/-- A source that a field of scalar or scalar-or-immediate kind may hold (09 R234). -/
def scalarOk (a : Src) : Bool := (Src.bcast a).isSome || a.latch.isSome
def zeroSrc (a : Src) : Bool := !a.l && !a.lu && a.n == 31
def immOk (t : Seat) (b : Src) : Bool := if t.pximm.isSome then b.code == 0 else scalarOk b || zeroSrc b

/-- A scalar-or-immediate operand's value. -/
def State.immVal (s : State) (t : Seat) (b : Src) : Word :=
  match t.pximm with
  | some x => immWhole x
  | none => s.scalar t b 1

/-- The scalar sources of two fields, the second of which an XIMM may stand for. -/
def immSrcs (t : Seat) (a b : Src) : List Src := a :: (if t.pximm.isSome then [] else [b])

/-- The run of a block form: its block address, the accessing lanes, and what its reads do. -/
def State.block (s : State) (a b : Src) (sp : Bool) (data : Option (BitVec 5))
    (body : Nat → Seat → Word → (State → State) → Except Stop State) : Host.Outcome State Fault Refusal :=
  s.run fun sid t => do
    let srcs := immSrcs t a b
    let reads := srcs.map (fun a => (a, (1 : Word)))
    t.check sid true (!(scalarOk a && immOk t b)) false sp reads
      (also := data.toList.flatMap t.dataRead) (masks := t.guardMask)
    body sid t (s.scalar t a + s.immVal t b) (fun s => s.readScalars sid t srcs)

/-- The lanes of a block: lane l owns eight bytes at 8l (09 R238). -/
def blockLanes (t : Seat) : List Nat := lanesOf t.gov

/-- A block's scratchpad addresses: the exact sum of its operands with each lane's offset. -/
def State.blockEA (s : State) (t : Seat) (a b : Src) : List LaneAddr :=
  (blockLanes t).map (fun l => (l, spadEA (s.scalar t a) (s.immVal t b) 1 + 8 * l))

/-- A misaligned block's address raises MISALIGN_DATA after the violations of its lanes (07 R180). -/
def blockMis (t : Seat) (addr : Word) (write : Bool) : Except Stop Unit :=
  trapIf (addr.toNat % 128 != 0) { code := cMISALIGN_DATA, lanes := t.gov, addr := addr, write := write }

/-- The checks of a scratchpad block. -/
def State.blockCheck (s : State) (sid : Nat) (t : Seat) (as : List LaneAddr) (addr : Word) (write : Bool) :
    Except Stop (List (Nat × Nat)) := do
  vioFreeze (s.spadVios (sidCore sid) t as)
  blockMis t addr write
  s.spadCheck sid t as 8 8 write (!write) (!write)

/-- LDSB (09 R238). -/
def execLdsb (d : Dst) (a b : Src) (s : State) : Host.Outcome State Fault Refusal :=
  s.block a b (d.isSp false) none fun sid t addr rd => do
    let ks ← s.blockCheck sid t (s.blockEA t a b) addr false
    let vs := ks.map (fun k => (k.1, s.spad.read k.2 8))
    let s1 ← (rd s).putLoad sid t d (fun l => BitVec.ofNat 64 (laneOf vs l))
    return s1.next sid

/-- STSB (09 R238). -/
def execStsb (d : BitVec 5) (a b : Src) (s : State) : Host.Outcome State Fault Refusal :=
  s.block a b false (some d) fun sid t addr rd => do
    let ks ← s.blockCheck sid t (s.blockEA t a b) addr true
    let v := s.dataVal t d
    return (((rd s).useFree (t.dataFree d)).spadStore (ks.map (fun k => (k.2, 8, (vget 0 v k.1).toNat)))).next sid

/-- A global block's lane addresses. -/
def blockAddrs (t : Seat) (addr : Word) : List (Nat × Word) :=
  (blockLanes t).map (fun l => (l, addr + BitVec.ofNat 64 (8 * l)))

/-- A misaligned global block, as the check takes it: every active lane, the block's address the lowest's. -/
def blockBad (t : Seat) (addr : Word) : List (Nat × Word) :=
  if addr.toNat % 128 = 0 then [] else (blockLanes t).map (fun l => (l, addr))

/-- LDGB (09 R238). -/
def execLdgb (d : Dst) (a b : Src) (f : BitVec 1) (s : State) : Host.Outcome State Fault Refusal :=
  s.block a b (d.isSp false) none fun sid t addr rd => do
    if blockLanes t = [] then blockMis t addr false
    let (ls, s1) ← s.gcheck t.bind.part (sidCore sid / 8) (some sid) (blockAddrs t addr) (blockBad t addr) 8 false true
      (loadOp 8)
    let (vs, s2) := s1.gloads t.bind.part (sidCore sid) (f == 1) 8 ls
    let s3 ← (rd s2).putLoad sid t d (fun l => BitVec.ofNat 64 (laneOf vs l))
    return s3.next sid

/-- STGB (09 R238). -/
def execStgb (d : BitVec 5) (a b : Src) (s : State) : Host.Outcome State Fault Refusal :=
  s.block a b false (some d) fun sid t addr rd => do
    if blockLanes t = [] then blockMis t addr true
    let v := s.dataVal t d
    let (ls, s1) ← s.gcheck t.bind.part (sidCore sid / 8) (some sid) (blockAddrs t addr) (blockBad t addr) 8 true false
      (storeOps 8 (blockAddrs t addr) (fun l => vget 0 v l))
    return (((rd s1).useFree (t.dataFree d)).gstores sid 8 (ls.map (fun l => (l, (vget 0 v l.1).toNat)))).next sid

/-! ### Presence control (09 R239, R240) -/

/-- PRES (09 R239). -/
def execPres (d : Dst) (a b : Src) (s : State) : Host.Outcome State Fault Refusal :=
  s.mem (fun _ => { d := d, a := some a, b := some b, elems := false })
    fun sid t i rd => do
      let as := i.spadAddrs 1
      vioFreeze (s.spadVios (sidCore sid) t as)
      let ks := s.spadKeys (sidCore sid) t as
      let vs := ks.map (fun k => (k.1, (!s.isAbsent (k.2 / 128)).toNat + 2 * (s.isPois (k.2 / 128)).toNat))
      let v (l : Nat) : Word := BitVec.ofNat 64 (laneOf vs l)
      let s1 ← rd s
      if t.uniform then return (s1.putScalar sid d (v 0)).next sid
      else
        let s2 ← s1.putLane sid t d t.gov v
        return s2.next sid

/-- ABSENT (09 R240), behind the row's own sink stores to its lines that are still queued (08 R205). -/
def execAbsent (a b : Src) (n : BitVec 4) (s : State) : Host.Outcome State Fault Refusal :=
  s.mem (fun _ => { d := ⟨false, 0⟩, a := some a, b := some b, elems := false })
    fun sid t i rd => do
      let as := i.spadAddrs 1
      let all := as.flatMap (fun x => (List.range (n.toNat + 1)).map (fun (j : Nat) => (x.1, x.2 + 128 * Int.ofNat j)))
      vioFreeze (s.spadVios (sidCore sid) t all)
      laneTrap cMISALIGN_DATA true (as.filter (fun x => x.2.toNat % 128 ≠ 0))
      let ks := s.spadKeys (sidCore sid) t all
      s.spadFenced all ks true
      fenceWait (!s.behindSink sid t ks 128)
      let s1 ← rd s
      return (ks.foldl (fun s k => s.setAbsent (k.2 / 128) true) s1).next sid

/-! ### Atomics (09 R241, R242) -/

/-- The types an atomic accepts (09 R241). -/
def atomTy (f : Nat) (ty : BitVec 4) : Bool :=
  let n := ty.toNat
  let int := n == 2 || n == 3 || n == 6 || n == 7
  if f ≤ 1 ∨ (4 ≤ f ∧ f ≤ 6) then int
  else if f ≤ 3 then int || n == 12
  else if f = 7 then int || n == 9 || n == 12
  else n == 9

/-- The new value of an atomic (09 R241): a NaN result is canonical. -/
def atomNew (f : Nat) (ty : BitVec 4) (old v : Nat) : Nat :=
  let w := tyBits ty
  let canon (r : Nat) : Nat := if ty = 9 ∧ (decodeF f32 r).isNan then nanBits f32 else r
  match f with
  | 0 => (old + v) % 2 ^ w
  | 1 => (old + 2 ^ w - v) % 2 ^ w
  | 2 => emin ty w old v
  | 3 => emax ty w old v
  | 4 => old &&& v
  | 5 => old ||| v
  | 6 => old ^^^ v
  | 7 => canon v
  | 8 => (fadd f32 0 old v).1
  | 10 => (fminmax f32 false old v).1
  | _ => (fminmax f32 true old v).1

/-- A lane's update: an atomic's, or a compare-and-swap's, whose comparand is its destination's value. -/
def update (cas : Bool) (f : Nat) (ty : BitVec 4) (old v cmp : Nat) : Nat :=
  if cas then (if old = cmp then v else old) else atomNew f ty old v

/-- The operand element and comparand of each lane. -/
def LaneIn.elemB (i : LaneIn) (ty : BitVec 4) (l : Nat) : Nat := (vget 0 i.b l).toNat % 2 ^ tyBits ty
def LaneIn.cmpD (i : LaneIn) (ty : BitVec 4) (l : Nat) : Nat := (vget 0 i.d l).toNat % 2 ^ tyBits ty

/-- What an atomic slot names and accepts. -/
def atomOp (cas : Bool) (d : Dst) (a b : Src) (illegal : Bool) (f : Nat) (t : Seat) : LaneOp :=
  { d := d, a := some a, b := some b, illegal := illegal, badType := !atomTy f t.ety, readsD := cas }

/-- The run of an atomic in the scratchpad: the lanes in ascending order, each on what those below it left. -/
def State.atomS (s : State) (cas illegal : Bool) (d : Dst) (a b : Src) (f : Nat) : Host.Outcome State Fault Refusal :=
  s.mem (atomOp cas d a b illegal f)
    fun sid t i rd => do
      let ty := t.ety
      let n := tyBits ty / 8
      let as := (lanesOf i.act).map (fun l => (l, spadEA (vget 0 i.a l) 0 1))
      let ks ← s.spadCheck sid t as n n true true true
      let s1 ← rd s
      let (s2, vs) := ks.foldl (fun (r : State × List (Nat × Nat)) k =>
        let old := r.1.spad.read k.2 n
        (r.1.spadStore [(k.2, n, update cas f ty old (i.elemB ty k.1) (i.cmpD ty k.1))], r.2 ++ [(k.1, old)])) (s1, [])
      let s3 ← s2.putLoad sid t d (fun l => extend (isSigned ty) n (laneOf vs l))
      return s3.next sid

/-- ATOMS (09 R241, R242). -/
def execAtoms (d : Dst) (a b : Src) (f : BitVec 4) (s : State) : Host.Outcome State Fault Refusal :=
  s.atomS false (decide (12 ≤ f.toNat) || f == 9) d a b f.toNat
/-- CASS (09 R241, R242). -/
def execCass (d : Dst) (a b : Src) (s : State) : Host.Outcome State Fault Refusal := s.atomS true false d a b 7

/-- One lane of a global atomic: the state it leaves and the old value, a peer's as the peer answered. -/
def State.atomLane (s : State) (sid : Nat) (n : Nat) (new : Nat → Nat) (x : Loc) : State × Nat :=
  match x with
  | .mem pa nc =>
    let old := s.hread pa n
    (((s.elide [paSector pa]).puts (some (sidCore sid)) [(pa, n, new old)]).noteGwct sid (s.gwct (leased pa nc)), old)
  | .peer (.data v) => (s, v.toNat % 2 ^ (8 * n))
  | .peer _ => (s, 0)

/-- What a global atomic asks of a peer at a place of its list of accesses. -/
def LaneIn.atomOps (i : LaneIn) (cas : Bool) (ty : BitVec 4) (f : Nat) (as : List (Nat × Word)) (k : Nat) : Option PeerOp :=
  let l := (as.getD k (0, 0)).1
  some (if cas then .cas ty (BitVec.ofNat 64 (i.cmpD ty l)) (BitVec.ofNat 64 (i.elemB ty l))
    else .atomic (BitVec.ofNat 4 f) ty (BitVec.ofNat 64 (i.elemB ty l)))

/-- The run of a global atomic; `ret` tells whether it returns its old values. -/
def State.atomG (s : State) (cas ret illegal : Bool) (d : Dst) (a b : Src) (f : Nat) :
    Host.Outcome State Fault Refusal :=
  s.mem (atomOp cas d a b illegal f)
    fun sid t i rd => do
      let ty := t.ety
      let n := tyBits ty / 8
      let as := (lanesOf i.act).map (fun l => (l, vget 0 i.a l))
      let (ls, s0) ← s.gcheck t.bind.part (sidCore sid / 8) (some sid) as (misaligned n as) n true true
        (i.atomOps cas ty f as)
      let s1 ← rd s0
      if f = 9 then
        let s2 := ls.foldl (fun (s : State) l => match l.2.2 with
          | .mem pa nc => s.arrive
              { addr := pa, v := BitVec.ofNat 32 (i.elemB ty l.1), sid := some sid, who := .row sid t.bind.lid
                part := t.bind.part, since := s.time.toNat, nc := nc }
          | .peer _ => s) s1
        return (s2.setSeat sid (s2.seat sid).dropLatches).next sid
      else
        let (s2, vs) := ls.foldl (fun (r : State × List (Nat × Nat)) l =>
          let (s', old) := r.1.atomLane sid n (fun old => update cas f ty old (i.elemB ty l.1) (i.cmpD ty l.1)) l.2.2
          (s', r.2 ++ [(l.1, old)])) (s1, [])
        if ret then
          let s3 ← s2.putLoad sid t d (fun l => extend (isSigned ty) n (laneOf vs l))
          return s3.next sid
        else return (s2.setSeat sid (s2.seat sid).dropLatches).next sid

/-- ATOMG (09 R241, R242). -/
def execAtomg (d : Dst) (a b : Src) (f : BitVec 4) (s : State) : Host.Outcome State Fault Refusal :=
  s.atomG false true (decide (12 ≤ f.toNat) || (f == 9 && d.code != 0)) d a b f.toNat
/-- REDG (09 R241, R242). -/
def execRedg (a b : Src) (f : BitVec 4) (s : State) : Host.Outcome State Fault Refusal :=
  s.atomG false false (decide (12 ≤ f.toNat)) ⟨false, 0⟩ a b f.toNat
/-- CASG (09 R241, R242). -/
def execCasg (d : Dst) (a b : Src) (s : State) : Host.Outcome State Fault Refusal := s.atomG true true false d a b 7

/-! ### Prefetch (09 R243) -/

/-- PREFG (09 R243): addresses that would fault or violate, peer addresses and uncached pages are dropped. -/
def execPrefg (a b : Src) (s : State) : Host.Outcome State Fault Refusal :=
  s.mem (fun _ => { d := ⟨false, 0⟩, a := some a, b := some b, elems := false })
    fun sid t i rd => do
      let p := t.bind.part
      let pas := i.gAddrs.filterMap (fun x => match s.xlate p (sidCore sid / 8) x.2 .read with
        | .mem pa false => if s.held pa || s.fenced.getLsbD (stackDie (paStack pa)) then none else some pa
        | _ => none)
      let s1 ← rd s
      return (pas.foldl (fun (s : State) pa => match s.cached (sidCore sid) pa with
        | some _ => s
        | none => (s.fillLine p (sidCore sid) pa).elide [paSector pa]) s1).next sid

/-! ### ISECT (09 R244, R245) -/

/-- A lane of ISECT: the next elements' addresses, the counts left, the matches. -/
structure Isect where
  xa : Word
  na : Word
  xb : Word
  nb : Word
  d : Word
  deriving DecidableEq, Repr

/-- A round within two sectors, of at most `fuel` comparisons: `u` and `v` give the elements at an address. -/
def Isect.run (sa sb : Word) (u v : Word → Nat) : Nat → Isect → Isect
  | 0, i => i
  | k + 1, i =>
    if i.na ≠ 0 ∧ i.nb ≠ 0 ∧ i.xa &&& ~~~31#64 = sa ∧ i.xb &&& ~~~31#64 = sb then
      let p := u i.xa
      let q := v i.xb
      let i1 := if p = q then { i with d := i.d + 1 } else i
      let i2 := if p ≤ q then { i1 with xa := i1.xa + 4, na := i1.na - 1 } else i1
      let i3 := if q ≤ p then { i2 with xb := i2.xb + 4, nb := i2.nb - 1 } else i2
      Isect.run sa sb u v k i3
    else i

/-- A trap's address made its sector's (09 R245). -/
def Stop.sector : Stop → Stop
  | .trap r => .trap { r with addr := r.addr &&& ~~~31#64 }
  | .after s e => .after s e.sector
  | e => e

/-- ISECT (09 R244, R245): one round; the slot is done when no lane has elements left in both lists. Where both sectors, or
both positions, of a lane fail one check, TADDR is that of list `a` (log 104). -/
def execIsect (d a b : BitVec 5) (s : State) : Host.Outcome State Fault Refusal :=
  s.run fun sid t => do
    let ra := a.toNat
    let rb := b.toNat
    let regs := [ra, ra + 1, rb, rb + 1, d.toNat]
    let srcs : List Src := regs.map (fun n => ⟨false, false, BitVec.ofNat 5 n⟩)
    let reads := srcs.map (fun x => (x, t.gov))
    t.check sid false (decide (30 < d.toNat) || decide (29 < ra) || decide (29 < rb) || !decide regs.Nodup) false false
      reads
    let val (k : Nat) : Lanes Word := s.srcVal t false (vrep 64 0) k (srcs.getD k ⟨false, false, 31⟩)
    let lane (l : Nat) : Isect :=
      { xa := vget 0 (val 0) l, na := vget 0 (val 1) l, xb := vget 0 (val 2) l, nb := vget 0 (val 3) l
        d := vget 0 (val 4) l }
    let ls := (lanesOf t.gov).filter (fun l => (lane l).na != 0 && (lane l).nb != 0)
    if ls = [] then
      return s.setSeat sid (t.dropLatches.advance)
    else
      let grans (x : Word) (l : Nat) : List (Nat × Word) :=
        (List.range 4).map (fun g => (l, (x &&& ~~~31#64) + BitVec.ofNat 64 (8 * g)))
      let as := ls.flatMap (fun l => grans (lane l).xa l ++ grans (lane l).xb l)
      let mis := ls.filterMap (fun l =>
        if (lane l).xa &&& 3 ≠ 0 then some (l, (lane l).xa) else if (lane l).xb &&& 3 ≠ 0 then some (l, (lane l).xb)
        else none)
      let (locs, s1) ← match s.gcheck t.bind.part (sidCore sid / 8) (some sid) as mis 8 false true
          (loadOp 8) with
        | .ok r => .ok r
        | .error e => .error e.sector
      let (vs, s2) := s1.gloads t.bind.part (sidCore sid) true 8 locs
      let words := vs.map (fun v => v.2)
      let at' (j o : Nat) (x : Word) : Nat := words.getD (8 * j + o + x.toNat / 8 % 4) 0 / 2 ^ (32 * (x.toNat / 4 % 2)) % 2 ^ 32
      let res := (List.range ls.length).map (fun j =>
        let i := lane (ls.getD j 0)
        (ls.getD j 0, Isect.run (i.xa &&& ~~~31#64) (i.xb &&& ~~~31#64) (at' j 0) (at' j 4) 16 i))
      let get (f : Isect → Word) (l : Nat) : Word := ((res.find? (fun r => r.1 == l)).map (fun r => f r.2)).getD 0
      let m := laneMask ls
      let s3 := s2.useFree (t.freeUsed false reads)
      let s4 := ((((s3.writeX sid ra m (get Isect.xa)).writeX sid (ra + 1) m (get Isect.na)).writeX sid rb m
        (get Isect.xb)).writeX sid (rb + 1) m (get Isect.nb)).writeX sid d.toNat m (get Isect.d)
      return s4.setSeat sid (s4.seat sid).dropLatches

end Sys2Proof.Machine
end

