-- ==== Sys2Proof/Machine/Sync.lean ====
section
/-! DEFINITION. Fences and IFENCE (08 R213 to R216; 09 R246), time (09 R247), barriers (09 R248 to R253), TAKE (12 R315;
11 R291) and SPAWN (12 R317). -/
namespace Sys2Proof.Machine

/-! ### Fences (08 R213 to R216; 09 R246) -/

/-- A scope code that is reserved (01 R31). -/
def badScope (n : Nat) : Bool := decide (6 ≤ n)

/-- An acquire at a scope: at a lease scope the core's line cache is made invalid (08 R214); and what the core's parties
have written happens before what follows (08 R211). -/
def State.acquire (s : State) (sid : Nat) (t : Seat) (scope : Nat) : State :=
  (if s.leaseScope t scope then s.flushLines (sidCore sid) else s).acquireGwct sid

/-- FREL (08 R213). -/
def execFrel (f : BitVec 3) (s : State) : Host.Outcome State Fault Refusal :=
  s.ctl (badScope f.toNat) [] [] fun sid t s1 => do
    fenceWait (s.released sid t f.toNat)
    return s1.next sid
/-- FACQ (08 R214): every earlier load and atomic has its value. -/
def execFacq (f : BitVec 3) (s : State) : Host.Outcome State Fault Refusal :=
  s.ctl (badScope f.toNat) [] [] fun sid t s1 => .ok ((s1.acquire sid t f.toNat).next sid)
/-- FFULL (08 R215). -/
def execFfull (f : BitVec 3) (s : State) : Host.Outcome State Fault Refusal :=
  s.ctl (badScope f.toNat) [] [] fun sid t s1 => do
    fenceWait (s.released sid t f.toNat)
    return (s1.acquire sid t f.toNat).next sid

/-- IFENCE (09 R246; 08 R231). -/
def execIfence (s : State) : Host.Outcome State Fault Refusal :=
  s.ctl false [] [] fun sid _ s1 => .ok ((s1.flushCode (sidCore sid)).next sid)

/-! ### Time (09 R247) -/

/-- TIME (09 R247). -/
def execTime (d : Dst) (s : State) : Host.Outcome State Fault Refusal :=
  s.ctl false [] [] fun sid _ s1 => .ok ((s1.putScalar sid d s.time).next sid)
/-- CLKC (09 R247). -/
def execClkc (d : Dst) (s : State) : Host.Outcome State Fault Refusal :=
  s.ctl false [] [] fun sid _ s1 => .ok ((s1.putScalar sid d (BitVec.ofNat 64 (s.core (sidCore sid)).clkc)).next sid)

/-! ### Barrier objects (09 R248, R249) -/

/-- A barrier object's fields (09 R248). -/
structure Bar where
  gen : Nat
  expa : Nat
  penda : Nat
  expb : Nat
  pendb : Nat
  tfirst : Nat
  tlast : Nat
  lrole : Nat
  st : Bool
  ovr : Bool
  lrow : Nat
  cur : Nat
  deriving DecidableEq, Repr

/-- The object at a scratchpad key. -/
def State.bar (s : State) (k : Nat) : Bar :=
  let r := s.spad.read
  { gen := r k 4, expa := r (k + 4) 2, penda := r (k + 6) 2, expb := r (k + 8) 4, pendb := r (k + 12) 4
    tfirst := r (k + 16) 4, tlast := r (k + 20) 4, lrole := r (k + 24) 1, st := r (k + 25) 1 % 2 == 1
    ovr := r (k + 25) 1 / 2 % 2 == 1, lrow := r (k + 26) 2, cur := r (k + 28) 4 }

/-- The object written; FLAGS[7:2] are written as zero. -/
def State.setBar (s : State) (k : Nat) (b : Bar) : State :=
  s.spadStore
    [(k, 4, b.gen), (k + 4, 2, b.expa), (k + 6, 2, b.penda), (k + 8, 4, b.expb), (k + 12, 4, b.pendb),
     (k + 16, 4, b.tfirst), (k + 20, 4, b.tlast), (k + 24, 1, b.lrole), (k + 25, 1, b.st.toNat + 2 * b.ovr.toNat),
     (k + 26, 2, b.lrow), (k + 28, 4, b.cur)]

/-- An arrival with `n` bytes at a time (09 R249): by a row, or by an engine target, with what LROLE and LROW would
record of it. -/
def Bar.arrive (b : Bar) (row : Bool) (n now role lrow : Nat) : Bar :=
  let b := if b.st then b else { b with cur := now % 2 ^ 32, st := true }
  let b := if !row then b else if b.penda = 0 then { b with ovr := true } else { b with penda := b.penda - 1 }
  let b := if b.pendb < n then { b with ovr := true, pendb := 0 } else { b with pendb := b.pendb - n }
  if b.penda = 0 ∧ b.pendb = 0 then
    { b with tfirst := b.cur, tlast := now % 2 ^ 32, lrole := role, lrow := lrow, gen := (b.gen + 1) % 2 ^ 32
             penda := b.expa, pendb := b.expb, st := false }
  else b

/-- The run of a barrier instruction: its operands' checks, its object's address checked as an atomic's (07 R180), then
its step on the object. -/
def State.barrier (s : State) (a : Src) (b : Option Src) (imm illegal : Bool) (cls : Bool)
    (value : Word → Except Stop Unit) (body : Nat → Seat → State → Nat → Word → Except Stop State) :
    Host.Outcome State Fault Refusal :=
  s.run fun sid t => do
    let srcs := match b with
      | some b => immSrcs t a b
      | none => [a]
    let okB := match b with
      | none => true
      | some b => if imm then immOk t b else scalarOk b && t.pximm.isNone
    t.check sid true (illegal || !(scalarOk a && okB)) false false (srcs.map (fun a => (a, 1)))
    let v := match b with
      | some b => s.immVal t b
      | none => 0
    value v
    let ks ← s.spadCheck sid t [(0, ((s.scalar t a).toNat : Int))] 32 32 true true cls
    body sid t (s.readScalars sid t srcs) ((ks.map (fun k => k.2)).headD 0) v

/-- The byte counts of BARV and BARX are N32 (09 R250). -/
def countOk (v : Word) : Except Stop Unit := trapIf (v >>> 32 != 0) { code := cILLEGAL_OP }

/-- BARI (09 R250). -/
def execBari (a b : Src) (s : State) : Host.Outcome State Fault Refusal :=
  s.barrier a (some b) false false false
    (fun v => trapIf (v.extractLsb' 16 16 != 0 || (v.setWidth 16 == 0#16 && v >>> 32 == 0)) { code := cILLEGAL_OP })
    fun sid _ s1 k v =>
      let ea := v.toNat % 2 ^ 16
      let eb := v.toNat / 2 ^ 32
      .ok ((s1.setBar k { s1.bar k with expa := ea, penda := ea, expb := eb, pendb := eb, st := false, ovr := false }).next
        sid)

/-- BARV (09 R250; 11 R292). -/
def execBarv (a b : Src) (f : BitVec 4) (s : State) : Host.Outcome State Fault Refusal :=
  s.barrier a (some b) true (badScope f.toNat) false countOk
    fun sid t s1 k v => do
      fenceWait (s.released sid t f.toNat)
      let x := (s1.bar k).arrive true v.toNat s.time.toNat (t.bind.role % 16)
        (t.bind.srow % 256 + t.bind.string % 256 * 256)
      return (s1.setBar k x).next sid

/-- BARX (09 R250). -/
def execBarx (a b : Src) (s : State) : Host.Outcome State Fault Refusal :=
  s.barrier a (some b) true false false countOk
    fun sid _ s1 k v =>
      let x := s1.bar k
      let n := x.pendb + v.toNat
      .ok ((s1.setBar k (if n < 2 ^ 32 then { x with pendb := n } else { x with pendb := 2 ^ 32 - 1, ovr := true })).next
        sid)

/-- A generation has passed `g` (09 R251). -/
def genPast (gen : Nat) (g : Word) : Bool := decide (0 < (BitVec.ofNat 32 gen - g.setWidth 32).toInt)

/-- BARW (09 R251); its completion acquires (08 R209 to R211). -/
def execBarw (a b : Src) (s : State) : Host.Outcome State Fault Refusal :=
  s.barrier a (some b) true false true (fun _ => .ok ())
    fun sid _ s1 k v =>
      if genPast (s1.bar k).gen v then
        let s2 := s1.acquireGwct sid
        .ok (s2.setSeat sid (s2.seat sid).dropLatches.advance)
      else .error (.park (.barrier k v) true)

/-- BARS's values (09 R252). -/
def State.barRead (s : State) (k : Nat) (f : Nat) : Word :=
  if f < 4 then BitVec.ofNat 64 (s.spad.read (k + 8 * f) 8)
  else
    let b := s.bar k
    BitVec.ofNat 64 ((b.tlast + 2 ^ 32 - b.tfirst) % 2 ^ 32 + b.lrole * 2 ^ 32 + b.lrow * 2 ^ 40)

/-- BARS (09 R252). -/
def execBars (d : Dst) (a : Src) (f : BitVec 4) (s : State) : Host.Outcome State Fault Refusal :=
  s.barrier a none false (decide (4 < f.toNat)) false (fun _ => .ok ())
    fun sid _ s1 k _ => .ok ((s1.putScalar sid d (s1.barRead k f.toNat)).next sid)

/-! ### TAKE (12 R315; 11 R290, R291) -/

/-- A core's table frequency in MHz and its speed weight (01 R41; 11 R288). -/
def State.tableMHz (s : State) (core : Nat) : Nat := 3600 + 25 * (vget 0 s.steps core).toNat
def State.weight (s : State) (core : Nat) : Nat := (1024 * s.tableMHz core + 2000) / 4000

/-- The step of 11 R291: NEXT afterwards, the count, the start. -/
def takeStep (next fin chunk w : Nat) : Nat × Nat × Nat :=
  if fin ≤ next then (next, 0, next)
  else
    let n := max 1 (chunk * w / 1024)
    let c := min n (fin - next)
    (next + c, c, next)

/-- TAKE (12 R315): its result enters no latch. -/
def execTake (d : Dst) (a : Src) (s : State) : Host.Outcome State Fault Refusal :=
  s.ctl false [a] [] fun sid t s1 => do
    let v := s.scalar t a
    trapIf (v >>> 32 != 0) { code := cILLEGAL_OP }
    let ks ← s.spadCheck sid t [(0, (v.toNat : Int))] 16 16 true true true
    let k := (ks.map (fun k => k.2)).headD 0
    let r := takeStep (s.spad.read k 4) (s.spad.read (k + 4) 4) (s.spad.read (k + 8) 2) (s.weight (sidCore sid))
    let s2 := s1.spadStore [(k, 4, r.1)]
    let s3 := if d.nw then s2 else s2.writeS sid d.dr.toNat (BitVec.ofNat 64 (r.2.1 * 2 ^ 32 + r.2.2))
    return s3.setSeat sid (s3.seat sid).dropLatches.advance

/-! ### SPAWN (12 R317; 10 R275) -/

/-- The pairs of a list of lanes submitted in order to the bins of a core; the second part tells whether one has to wait. -/
def State.submit (s : State) (sid : Nat) (t : Seat) (av bv : Lanes Word) : List Nat → State × Bool
  | [] => (s, false)
  | l :: ls =>
    let e := vget 0 av l
    let core := sidCore sid
    let b := (e.extractLsb' 4 4).toNat
    match (s.bin core b).add s.time.toNat (s.part t.bind.part).bint (launchKey t.bind.part t.bind.lid) e (vget 0 bv l) with
    | none => (s, true)
    | some x =>
      let s1 := s.setBin core b x
      let u := s1.seat sid
      (s1.setSeat sid { u with spawned := u.spawned ||| (1#64 <<< l) }).submit sid t av bv ls

/-- A source that SPAWN's lane operands do not take (12 R293). -/
def noPortLane (a : Src) : Bool := a.isPort || (a.l && a.n == 6)

/-- SPAWN (12 R317): its FREL is at CORE scope (08 R213). -/
def execSpawn (a b : Src) (s : State) : Host.Outcome State Fault Refusal :=
  s.run fun sid t => do
    let reads := [(a, t.gov), (b, t.gov)]
    t.check sid false (noPortLane a || noPortLane b) false false reads
    let av := s.srcVal t false (vrep 64 0) 0 a
    let bv := s.srcVal t false (vrep 64 0) 1 b
    let ls := lanesOf t.gov
    let bad := ls.filter (fun l => (vget 0 av l) &&& 15 != 0 || (vget 0 av l) >>> 52 != 0)
    match bad with
    | [] => .ok ()
    | l :: _ => .error (.trap { code := cLANDING, lanes := laneMask bad, addr := vget 0 av l })
    fenceWait (ls = [] || s.released sid t 2)
    let (s1, wait) := s.submit sid t av bv (ls.filter (fun l => !t.spawned.getLsbD l))
    if wait then .error (.after s1 .stall)
    else
      let s2 := (s1.setSeat sid { (s1.seat sid).lastUse false t.gov [a, b] with spawned := 0 }).useFree
        (t.freeUsed false reads)
      return s2.next sid

end Sys2Proof.Machine
end

