-- ==== Sys2Proof/Machine/Context.lean ====
section
/-! DEFINITION. Mask-stack images (12 R296) and the context image of a seat (14 R352): how it is written and read. -/
namespace Sys2Proof.Machine

/-! ### Mask-stack images (12 R296) -/

/-- KIND's code. -/
def MaskKind.code : MaskKind → Nat
  | .base => 0
  | .join => 1
  | .div => 2
  | .pred => 3
def MaskKind.ofCode : Nat → MaskKind
  | 0 => .base
  | 1 => .join
  | 2 => .div
  | _ => .pred

/-- The four words of an entry's image. -/
def MaskEntry.words (e : MaskEntry) : List Word := [e.mask, e.alt, e.tgt, BitVec.ofNat 64 e.kind.code]

/-- An entry from the four words of an image; none where a reserved bit is set. -/
def MaskEntry.ofWords (m a t k : Word) : Option MaskEntry :=
  if k >>> 2 != 0 then none else some { kind := .ofCode k.toNat, mask := m, alt := a, tgt := t }

/-- A stack, top first, from images, bottom first; none where one is ill-formed, the first is not BASE, or a later one is
(14 R351). -/
def stackOf (es : List (Option MaskEntry)) : Option (List MaskEntry) :=
  match es with
  | [] => none
  | e :: rest =>
    let isBase (e : Option MaskEntry) : Bool := match e with
      | some e => decide (e.kind = .base)
      | none => false
    if (e :: rest).any Option.isNone || !isBase e || rest.any isBase then none
    else some (((e :: rest).filterMap id).reverse)

/-! ### MODE's checks (14 R348) -/

/-- What a value written to MODE fails: a trap code, or none. -/
def Seat.modeBad (t : Seat) (m : BitVec 16) : Option Nat :=
  let ab := (m.extractLsb' 12 2).toNat
  if 5 ≤ (m.extractLsb' 4 3).toNat then some cILLEGAL_OP
  else if ab < t.ablk ∨ t.ablk + t.nblk ≤ ab then some cILLEGAL_OP
  else if 14 ≤ (m.extractLsb' 0 4).toNat then some cILLEGAL_TYPE
  else none

/-! ### The image (14 R352) -/

/-- A field of an image: its offset, its bytes, its value, and whether the part is poisoned (14 R346). -/
structure ImgField where
  off : Nat
  n : Nat
  v : Nat
  pois : Bool := false
  deriving DecidableEq, Repr

/-- The ports' share of an image: entries of the south side and of the north side, oldest first. -/
def portFields (base : Nat) (es : List PortEntry) : List ImgField :=
  (List.range es.length).flatMap (fun i =>
    let e : PortEntry := es.getD i { v := vrep 64 0, act := 0, ready := 0 }
    (List.range 64).map (fun l =>
      { off := base + 512 * i + 8 * l, n := 8, v := (vget 0 e.v l).toNat, pois := e.pois.getLsbD l }))

/-- LATK: validity and kinds of four latches. -/
def latKinds (lat : Vector Latch 4) : Nat :=
  (List.range 4).foldl (fun x k => match vget Latch.invalid lat k with
    | .invalid => x
    | .lane _ => x + 2 ^ k
    | .scalar _ => x + 2 ^ k + 2 ^ (k + 4)) 0

/-- MFLAGS (14 R342): the pending matrix flags of every batch. -/
def Seat.mfl (t : Seat) : BitVec 6 := t.mflags.foldl (fun (x : BitVec 6) (p : Nat × BitVec 6) => x ||| p.2) 0

/-- The header's fields. -/
def Seat.header (t : Seat) (pc : Word) (mode : BitVec 16) (lat : Vector Latch 4) (sfill nfill cflags : Nat) :
    List ImgField :=
  [⟨0, 8, pc.toNat, false⟩, ⟨8, 2, mode.toNat, false⟩, ⟨0x0A, 1, t.stack.length, false⟩, ⟨0x0B, 1, latKinds lat, false⟩,
   ⟨0x0C, 4, (~~~t.sdead).toNat, false⟩, ⟨0x10, 8, t.fstat.toNat, false⟩,
   ⟨0x18, 1, t.mfl.toNat, false⟩, ⟨0x19, 1, t.nblk, false⟩, ⟨0x1A, 1, sfill, false⟩,
   ⟨0x1B, 1, nfill, false⟩, ⟨0x1C, 4, t.batch.toNat, false⟩, ⟨0x20, 8, t.tail.a.toNat, false⟩,
   ⟨0x28, 8, t.tail.b.toNat, false⟩, ⟨0x30, 4, t.tail.i.toNat, false⟩, ⟨0x34, 1, 1, false⟩, ⟨0x35, 1, cflags, false⟩,
   ⟨0x36, 2, 0, false⟩, ⟨0x38, 8, 0, false⟩]

/-- The latches' share: a lane entry's 64 values, a scalar entry's one. -/
def latFields (lat : Vector Latch 4) (pois : Vector Word 4) : List ImgField :=
  (List.range 4).flatMap (fun k => match vget Latch.invalid lat k with
    | .invalid => []
    | .scalar v => [⟨0x500 + 512 * k, 8, v.toNat, (vget 0 pois k).getLsbD 0⟩]
    | .lane v => (List.range 64).map (fun l => ⟨0x500 + 512 * k + 8 * l, 8, (vget 0 v l).toNat, (vget 0 pois k).getLsbD l⟩))

/-- The image of a seat's context: dead registers and unused regions are not written. -/
def Seat.image (t : Seat) (pc : Word) (mode : BitVec 16) (lat : Vector Latch 4) (latpois : Vector Word 4)
    (south north : List PortEntry) (cflags : Nat) : List ImgField :=
  t.header pc mode lat south.length north.length cflags ++
  ((List.range 31).filter (fun n => !t.sdead.getLsbD n)).map (fun n => ⟨0x40 + 8 * n, 8, (t.sr n).toNat, t.spois.getLsbD n⟩) ++
  (List.range 8).map (fun n => ⟨0x140 + 8 * n, 8, (t.mr n).toNat, t.mpois.getLsbD n⟩) ++
  (List.range 64).map (fun j =>
    ⟨0x180 + 2 * j, 2, (vget 0 (vget (vrep 16 0) t.cb (j / 16)) (j % 16)).toNat, t.cbpois.getLsbD (j / 16)⟩) ++
  (t.stack.reverse.zipIdx).flatMap (fun (p : MaskEntry × Nat) =>
    (p.1.words.zipIdx).map (fun (w : Word × Nat) => ⟨0x200 + 32 * p.2 + 8 * w.2, 8, w.1.toNat, false⟩)) ++
  (List.range 31).map (fun n => ⟨0x400 + 8 * n, 8, (~~~vget 0 t.xdead n).toNat, false⟩) ++
  latFields lat latpois ++
  (List.range 31).flatMap (fun n => ((List.range 64).filter (fun l => !(vget 0 t.xdead n).getLsbD l)).map (fun l =>
    ⟨0x1000 + 512 * n + 8 * l, 8, (t.xr n l).toNat, (vget 0 t.xpois n).getLsbD l⟩)) ++
  (List.range (32 * t.nblk)).flatMap (fun i => (List.range 64).map (fun l =>
    ⟨0x5000 + 256 * i + 4 * l, 4, (t.ar i l).toNat, (vget 0 t.accpois i).getLsbD l⟩)) ++
  portFields 0xD000 south ++ portFields 0xE000 north

/-- How an image is read: the value of `n` bytes at an offset, and whether their sector is poisoned. -/
structure ImgRead where
  rd : Nat → Nat → Nat
  pois : Nat → Bool

/-- The stack that an image holds. -/
def ImgRead.stack (r : ImgRead) : Option (List MaskEntry) :=
  stackOf ((List.range (r.rd 0x0A 1)).map (fun i =>
    let w (k : Nat) : Word := BitVec.ofNat 64 (r.rd (0x200 + 32 * i + 8 * k) 8)
    MaskEntry.ofWords (w 0) (w 1) (w 2) (w 3)))

/-- The latches that an image holds. -/
def ImgRead.latches (r : ImgRead) : Vector Latch 4 :=
  tab 4 (fun k =>
    if !(r.rd 0x0B 1).testBit k then .invalid
    else if (r.rd 0x0B 1).testBit (k + 4) then .scalar (BitVec.ofNat 64 (r.rd (0x500 + 512 * k) 8))
    else .lane (tab 64 (fun l => BitVec.ofNat 64 (r.rd (0x500 + 512 * k + 8 * l) 8))))

/-- The lanes of 8-byte parts from an offset whose sectors are poisoned. -/
def ImgRead.poisMask (r : ImgRead) (off size : Nat) : Word := laneMask ((List.range 64).filter (fun l => r.pois (off + size * l)))

/-- The latches' error marks. -/
def ImgRead.latPois (r : ImgRead) : Vector Word 4 :=
  tab 4 (fun k => match vget Latch.invalid r.latches k with
    | .lane _ => r.poisMask (0x500 + 512 * k) 8
    | .scalar _ => if r.pois (0x500 + 512 * k) then BitVec.allOnes 64 else 0
    | .invalid => 0)

/-- Port entries from an image, readable at a reader's clock. -/
def ImgRead.ports (r : ImgRead) (base count ready : Nat) : List PortEntry :=
  (List.range count).map (fun e =>
    { v := tab 64 (fun l => BitVec.ofNat 64 (r.rd (base + 512 * e + 8 * l) 8)), act := BitVec.allOnes 64
      pois := r.poisMask (base + 512 * e) 8, ready := ready })

/-- The seat with what an image holds beside PC, MODE and the latches (14 R352, R353). The pending matrix flags, one field
in the image, are put under the batch that its counter names, the last closed (log 83); a codebook entry is taken bit
for bit, a NaN too (log 82). -/
def Seat.loadImage (t : Seat) (r : ImgRead) : Seat :=
  let slive : BitVec 31 := BitVec.ofNat 31 (r.rd 0x0C 4)
  let xlive (n : Nat) : Word := BitVec.ofNat 64 (r.rd (0x400 + 8 * n) 8)
  let b : Word := BitVec.ofNat 64 (r.rd 0x28 8)
  { t with
    fstat := BitVec.ofNat 6 (r.rd 0x10 8)
    mflags := Sparse.set 0 [] (r.rd 0x1C 4) (BitVec.ofNat 6 (r.rd 0x18 1))
    batch := BitVec.ofNat 32 (r.rd 0x1C 4)
    tail := { a := BitVec.ofNat 64 (r.rd 0x20 8), b := b, i := BitVec.ofNat 32 (r.rd 0x30 4), on := b.getLsbD 48 }
    s := tab 31 (fun n => if slive.getLsbD n then BitVec.ofNat 64 (r.rd (0x40 + 8 * n) 8) else t.sr n)
    sdead := ~~~slive
    spois := (List.range 31).foldl (fun x n =>
      if slive.getLsbD n && r.pois (0x40 + 8 * n) then x ||| (1#31 <<< n) else x) 0
    m := tab 8 (fun n => BitVec.ofNat 64 (r.rd (0x140 + 8 * n) 8))
    mpois := (List.range 8).foldl (fun x n => if r.pois (0x140 + 8 * n) then x ||| (1#8 <<< n) else x) 0
    cb := tab 4 (fun k => tab 16 (fun j => BitVec.ofNat 16 (r.rd (0x180 + 32 * k + 2 * j) 2)))
    cbpois := (List.range 4).foldl (fun x k => if r.pois (0x180 + 32 * k) then x ||| (1#4 <<< k) else x) 0
    stack := (r.stack).getD t.stack
    x := tab 31 (fun n => tab 64 (fun l =>
      if (xlive n).getLsbD l then BitVec.ofNat 64 (r.rd (0x1000 + 512 * n + 8 * l) 8) else t.xr n l))
    xdead := tab 31 (fun n => ~~~xlive n)
    xpois := tab 31 (fun n => xlive n &&& r.poisMask (0x1000 + 512 * n) 8)
    acc := tab 128 (fun i => tab 64 (fun l =>
      if i < 32 * t.nblk then BitVec.ofNat 32 (r.rd (0x5000 + 256 * i + 4 * l) 4) else t.ar i l))
    accpois := tab 128 (fun i => if i < 32 * t.nblk then r.poisMask (0x5000 + 256 * i) 4 else 0) }

/-- The offsets of the granules that a load of an image reads (14 R352): the header and tables, and what they say is in
use. -/
def ImgRead.used (r : ImgRead) (nblk : Nat) : List Nat :=
  (List.range 7).map (fun i => 8 * i) ++
  ((List.range 31).filter (fun n => (r.rd 0x0C 4).testBit n)).map (fun n => 0x40 + 8 * n) ++
  (List.range 24).map (fun i => 0x140 + 8 * i) ++
  (List.range (4 * r.rd 0x0A 1)).map (fun i => 0x200 + 8 * i) ++
  (List.range 31).map (fun n => 0x400 + 8 * n) ++
  ((List.range 4).filter (fun k => (r.rd 0x0B 1).testBit k)).flatMap (fun k =>
    (List.range (if (r.rd 0x0B 1).testBit (k + 4) then 1 else 64)).map (fun l => 0x500 + 512 * k + 8 * l)) ++
  (List.range 31).flatMap (fun n => ((List.range 64).filter (fun l => (r.rd (0x400 + 8 * n) 8).testBit l)).map (fun l =>
    0x1000 + 512 * n + 8 * l)) ++
  (List.range (1024 * nblk)).map (fun i => 0x5000 + 8 * i)

/-- An operand group is read from registers as the steps run (06 R153, R155). -/
def OpGroup.live : OpGroup → Bool
  | .xregs _ | .sregs _ => true
  | .vals _ => false

/-- A context load writes every register: a seat's queued items that still read registers end undefined, the others keep
what they sampled, and those done no longer count (06 R161; log 40). -/
def State.dropWindows (s : State) (sid : Nat) : State :=
  let r := s.row (sid / 4)
  s.setRow (sid / 4) { r with mat := r.mat.filterMap (fun i =>
    if i.seat ≠ sidSeat sid then some i
    else if i.steps ≤ i.done then none
    else if i.a.live || i.b.live then some { i with undef := i.allLanes } else some i) }

end Sys2Proof.Machine
end

