-- ==== Sys2Proof/Machine/System.lean ====
section
/-! DEFINITION. System instructions (14 R347 to R353): MODE, the CSRs, TRAP and RETT, mask-stack spills, and contexts. -/
namespace Sys2Proof.Machine

/-- An instruction or CSR open at handler level only freezes a seat at user level with PRIV_INSTR (14 R347). -/
def privCheck (t : Seat) : Except Stop Unit := if t.hl then .ok () else freezeC vPRIV_INSTR

/-! ### MODE (14 R348) -/

/-- A value checked for MODE or TMODE. -/
def modeCheck (t : Seat) (m : BitVec 16) : Except Stop Unit :=
  match t.modeBad m with
  | some c => trapC c
  | none => .ok ()

/-- SETMODE (14 R348). -/
def execSetmode (m : BitVec 16) (s : State) : Host.Outcome State Fault Refusal :=
  s.ctl false [] [] fun sid t s1 => do
    modeCheck t m
    return (s1.setSeat sid { s1.seat sid with mode := m }).next sid

/-- GETMODE (14 R348). -/
def execGetmode (d : Dst) (s : State) : Host.Outcome State Fault Refusal :=
  s.ctl false [] [] fun sid t s1 => .ok ((s1.putScalar sid d (t.mode.setWidth 64)).next sid)

/-! ### CSRs (14 R342, R349) -/

/-- The issue budget in force (11 R284, 21 R387). -/
def CoreUnit.budgetNow (u : CoreUnit) : Nat := if u.halveFrom ≤ u.clkc ∧ u.clkc < u.halveUntil then u.budget / 2 else u.budget

/-- SPEED (11 R289). -/
def State.speed (s : State) (core : Nat) : Word :=
  BitVec.ofNat 64 ((s.core core).budgetNow * 2 ^ 32 + (vget 0 s.steps core).toNat * 2 ^ 16 + s.weight core)

/-- TLAT (14 R342). -/
def Seat.tlat (t : Seat) : Nat := latKinds t.shadow

/-- A CSR that the table lists (14 R342). -/
def csrKnown (n : Nat) : Bool := decide (n ≤ 5) || (decide (0x10 ≤ n) && decide (n ≤ 0x1C))
/-- A CSR open at handler level only. -/
def csrPriv (n : Nat) : Bool := decide (0x10 ≤ n)

/-- The value a CSR reads as. -/
def State.csr (s : State) (sid : Nat) (t : Seat) (n : Nat) : Word :=
  match n with
  | 0x00 => t.fstat.setWidth 64
  | 0x01 => s.speed (sidCore sid)
  | 0x02 => t.mode.setWidth 64
  | 0x03 => t.batch.setWidth 64
  | 0x04 => t.mfl.setWidth 64
  | 0x05 => BitVec.ofNat 64 t.stack.length
  | 0x10 => t.tvec
  | 0x11 => t.tpc
  | 0x12 => t.tcause
  | 0x13 => t.tinfol
  | 0x14 => t.tinfod
  | 0x15 => t.taddr
  | 0x16 => t.tmode.setWidth 64
  | 0x17 => BitVec.ofNat 64 t.tlat
  | 0x18 => BitVec.ofNat 64 t.hl.toNat
  | _ => vget 0 t.hs (n - 0x19)

/-- The freeze of a CSR access at user level (14 R347). -/
def csrGate (c : BitVec 7) (t : Seat) : Except Stop Unit := if csrPriv c.toNat then privCheck t else .ok ()

/-- CSRR (14 R349). -/
def execCsrr (d : Dst) (c : BitVec 7) (s : State) : Host.Outcome State Fault Refusal :=
  s.ctl (!csrKnown c.toNat) [] [] (mid := fun _ => csrGate c) fun sid t s1 =>
    .ok ((s1.putScalar sid d (s.csr sid t c.toNat)).next sid)

/-- A TLAT write's effect on one shadow entry (14 R342): `v` are free values. -/
def tlatEntry (v : Nat → Word) (old : Latch) (valid kind : Bool) : Latch :=
  if !valid then .invalid
  else
    let fresh : Latch := if kind then .scalar (v 0) else .lane (tab 64 v)
    match old with
    | .invalid => fresh
    | .lane _ => if kind then fresh else old
    | .scalar _ => if kind then old else fresh

/-- A value stored in TPC (14 R343): bit 3 is reserved, and slot 0 is stored as 1. -/
def tpcWord (b : Word) : Word := (b &&& ~~~11#64) ||| (if b &&& 3 = 0 then 1 else b &&& 3)

/-- The error marks of a shadow entry after a TLAT write: an entry made invalid, or undefined afresh, has none. -/
def tlatPois (old : Latch) (p : Word) (valid kind : Bool) : Word :=
  match old with
  | .invalid => 0
  | .lane _ => if valid && !kind then p else 0
  | .scalar _ => if valid && kind then p else 0

/-- The seat with a CSR written (14 R342, R343, R349); `v` are free values. -/
def Seat.csrw (t : Seat) (n : Nat) (b : Word) (v : Nat → Word) : Seat :=
  match n with
  | 0x00 => { t with fstat := b.setWidth 6 }
  | 0x02 => { t with mode := b.setWidth 16 }
  | 0x10 => { t with tvec := b &&& ~~~15#64 }
  | 0x11 => { t with tpc := tpcWord b }
  | 0x12 => { t with tcause := b &&& 0xFF#64 }
  | 0x13 => { t with tinfol := b }
  | 0x14 => { t with tinfod := b &&& 0xFFFFFF#64 }
  | 0x15 => { t with taddr := b }
  | 0x16 => { t with tmode := b.setWidth 16 }
  | 0x17 => { t with
      shadow := tab 4 (fun k => tlatEntry (fun l => v (64 * k + l)) (vget .invalid t.shadow k) (b.getLsbD k) (b.getLsbD (k + 4)))
      shpois := tab 4 (fun k => tlatPois (vget .invalid t.shadow k) (vget 0 t.shpois k) (b.getLsbD k) (b.getLsbD (k + 4))) }
  | 0x19 | 0x1A | 0x1B | 0x1C => { t with hs := vset t.hs (n - 0x19) b }
  | _ => t

/-- CSRW (14 R348, R349). -/
def execCsrw (c : BitVec 7) (b : Src) (s : State) : Host.Outcome State Fault Refusal :=
  s.ctl (!csrKnown c.toNat) [b] [] (mid := fun _ => csrGate c) fun sid t s1 => do
    let v := s.scalar t b
    if c.toNat = 0x02 ∨ c.toNat = 0x16 then do
      trapIf (v >>> 16 != 0) { code := cILLEGAL_OP }
      modeCheck t (v.setWidth 16)
    let s2 := s1.setSeat sid ((s1.seat sid).csrw c.toNat v (fun k => s1.free k))
    return (if c.toNat = 0x17 then s2.useFree 256 else s2).next sid

/-! ### TRAP and RETT (14 R350) -/

/-- TRAP (14 R350): the resume point is the slot after it. -/
def execTrap (a : Src) (k : BitVec 4) (s : State) : Host.Outcome State Fault Refusal :=
  s.ctl false [a] [] fun _ t _ =>
    .error (.trap
      { code := cTRAP, k := k.toNat, addr := s.scalar t a
        resume := some (if t.slot < 3 then (t.pc, t.slot + 1) else (t.pc + 16, 1)) })

/-- RETT (14 R350). -/
def execRett (s : State) : Host.Outcome State Fault Refusal :=
  s.ctl false [] [] (mid := fun _ => privCheck) fun sid _ s1 =>
    .ok (s1.setSeat sid (s1.seat sid).rett)

/-! ### Global records of a row: lists of granules -/

/-- `n` granules of eight bytes from an address. -/
def granules (a : Word) (n : Nat) : List (Nat × Word) := (List.range n).map (fun i => (0, a + BitVec.ofNat 64 (8 * i)))

/-- MSPILL (14 R351). -/
def execMspill (a : Src) (s : State) : Host.Outcome State Fault Refusal :=
  s.ctl false [a] [] (mid := fun _ => privCheck) fun sid t s1 => do
    let addr := s.scalar t a
    let gs := granules addr (4 * t.stack.length)
    let ws := t.stack.reverse.flatMap MaskEntry.words
    let (ls, s2) ← s1.gcheck t.bind.part (sidCore sid / 8) (some sid) gs
      (if addr.toNat % 32 = 0 then [] else [(0, addr)]) 8 true false (fun i => some (.store 3 (ws.getD i 0) false))
    return (s2.gstores sid 8 (ls.zip (ws.map BitVec.toNat))).next sid

/-- MFILL (14 R351, 12 R302). -/
def execMfill (a : Src) (n : BitVec 4) (s : State) : Host.Outcome State Fault Refusal :=
  s.ctl false [a] [] (mid := fun _ => privCheck) fun sid t s1 => do
    let addr := s.scalar t a
    let gs := granules addr (4 * (n.toNat + 1))
    let (ls, s2) ← s1.gcheck t.bind.part (sidCore sid / 8) (some sid) gs
      (if addr.toNat % 32 = 0 then [] else [(0, addr)]) 8 false true (loadOp 8)
    let (vs, s3) := s2.gloads t.bind.part (sidCore sid) false 8 ls
    let w (i : Nat) : Word := BitVec.ofNat 64 ((vs.getD i (0, 0)).2)
    match stackOf ((List.range (n.toNat + 1)).map (fun i =>
      MaskEntry.ofWords (w (4 * i)) (w (4 * i + 1)) (w (4 * i + 2)) (w (4 * i + 3)))) with
    | none => trapC cILLEGAL_OP
    | some st => return s3.setSeat sid { s3.seat sid with stack := st }.settle

/-! ### Contexts (14 R353) -/

/-- The granule of an image that fields give, for a peer, poisoned where one of them is (14 R346); none where they leave it
unwritten (14 R352). -/
def imageOp (fs : List ImgField) (i : Nat) : Option PeerOp :=
  match fs.filter (fun f => f.off / 8 == i) with
  | [] => none
  | gs => some (.store 3 (BitVec.ofNat 64 (gs.foldl (fun v f => v + f.v % 2 ^ (8 * f.n) * 2 ^ (8 * (f.off % 8))) 0))
    (gs.any (fun f => f.pois)))

/-- The 8192 granules of an image, checked as one global access of 64 KiB aligned to 4 KiB. -/
def State.imageCheck (s : State) (sid : Nat) (t : Seat) (addr : Word) (write : Bool) (op : Nat → Option PeerOp) :
    Except Stop (List LaneLoc × State) :=
  s.gcheck t.bind.part (sidCore sid / 8) (some sid) (granules addr 8192)
    (if addr.toNat % 4096 = 0 then [] else [(0, addr)]) 8 write false op

/-- Where the byte at an offset of an image goes. -/
def locAt (ls : List LaneLoc) (off : Nat) : Loc := (ls.getD (off / 8) (0, 0, .peer (.data 0))).2.2

/-- An image's fields written by a row, its poisoned parts as poisoned sectors (14 R346). -/
def State.writeImage (s : State) (sid : Nat) (ls : List LaneLoc) (fs : List ImgField) : State :=
  let ms := fs.filterMap (fun f => match locAt ls f.off with
    | .mem pa _ => some (pa + f.off % 8, f.n, f.v)
    | .peer _ => none)
  let es := fs.flatMap (fun f => match locAt ls f.off with
    | .mem pa nc => leased pa nc
    | .peer _ => [])
  let s1 := s.puts (some (sidCore sid)) ms
  let s2 := (fs.filter (fun f => f.pois)).foldl (fun s f => match locAt ls f.off with
    | .mem pa _ => s.setSecPois pa true
    | .peer _ => s) s1
  if ms = [] then s2 else s2.noteGwct sid (s.gwct es)

/-- CTXSV (14 R353): it waits for the seat's batches and accesses. -/
def execCtxsv (a : Src) (s : State) : Host.Outcome State Fault Refusal :=
  s.ctl false [a] [] (mid := fun _ => privCheck) fun sid t s1 => do
    let fs := t.image t.tpc t.tmode t.shadow t.shpois [] [] t.bind.ports.toNat
    let (ls, s2) ← s1.imageCheck sid t (s.scalar t a) true (imageOp fs)
    fenceWait (!s.matBusy sid && s.allDone sid t && s.past t.gwct)
    return (s2.writeImage sid ls fs).next sid

/-- How CTXLD reads its image. -/
def State.imgRead (s : State) (ls : List LaneLoc) : ImgRead where
  rd := fun off n => match locAt ls off with
    | .mem pa _ => s.hread (pa + off % 8) n
    | .peer (.data v) => v.toNat / 2 ^ (8 * (off % 8)) % 2 ^ (8 * n)
    | .peer _ => 0
  pois := fun _ => false

/-- CTXLD's image checks (14 R353). -/
def Seat.imageBad (t : Seat) (r : ImgRead) : Bool :=
  r.rd 0x34 1 != 1 || r.rd 0x19 1 != t.nblk || r.rd 0x0A 1 == 0 || decide (16 < r.rd 0x0A 1) ||
  (t.modeBad (BitVec.ofNat 16 (r.rd 8 2))).isSome || r.stack.isNone || r.rd 0x1A 1 != 0 || r.rd 0x1B 1 != 0

/-- The first poisoned or uncorrectable granule of those an image load reads. -/
def State.imagePois (s : State) (ls : List LaneLoc) (used : List Nat) : Except Stop Unit := do
  let mems := used.filterMap (fun o => match locAt ls o, (ls.getD (o / 8) (0, 0, .peer .poison)).2.1 with
    | .mem pa _, va => some (pa, va)
    | .peer _, _ => none)
  match mems.find? (fun m => s.secUE m.1) with
  | some m => .error (.after (s.meetUE m.1) .stall)
  | none => .ok ()
  failTrap s cPOISON false 0 ((mems.filter (fun m => s.secPois m.1)).map (fun m => (0, m.2)) ++
    ((used.filter (fun o => locAt ls o == .peer .poison)).map (fun o => (0, (ls.getD (o / 8) (0, 0, .peer .poison)).2.1))))

/-- The sectors of memory that a load of an image reads. -/
def imageSecs (ls : List LaneLoc) (used : List Nat) : List Nat :=
  used.filterMap (fun o => match locAt ls o with
    | .mem pa _ => some (paSector pa)
    | .peer _ => none)

/-- CTXLD (14 R353). -/
def execCtxld (a : Src) (s : State) : Host.Outcome State Fault Refusal :=
  s.ctl false [a] [] (mid := fun _ => privCheck) fun sid t s1 => do
    let (ls, s2) ← s1.imageCheck sid t (s.scalar t a) false (loadOp 8)
    let r := s2.imgRead ls
    s2.imagePois ls (r.used t.nblk)
    trapIf (t.imageBad r) { code := cILLEGAL_OP }
    let u := (s2.seat sid).loadImage r
    let u1 := { u with tpc := tpcWord (BitVec.ofNat 64 (r.rd 0 8)), tmode := BitVec.ofNat 16 (r.rd 8 2), shadow := r.latches
                       shpois := vrep 4 0 }
    return ((((s2.setSeat sid u1).dropWindows sid).flushLines (sidCore sid)).elide (imageSecs ls (r.used t.nblk))).next sid

end Sys2Proof.Machine
end

