-- ==== Sys2Proof/Machine/Queue.lean ====
section
/-! DEFINITION. Queues (09 R254 to R256, R263): headers and rings in memory, registration, QPUT, external submission,
halts and freezes. -/
namespace Sys2Proof.Machine

/-! ### The control port (13 R336) -/

/-- The module changed. -/
def State.mapModule (s : State) (f : Module → Module) : State := { s with module := f s.module }
/-- The control port answers. -/
def State.answer (s : State) (a : Answer) : State := s.mapModule (fun m => { m with out := m.out ++ [a] })

/-- The control port takes commands: a session is open on a module that is ready (13 R336, 21 R390, R393). -/
def State.commanded (s : State) : Bool := s.module.session && decide (s.module.phase = .ready)

/-- A command of the control node, or of a supervisor, both of which reach the module through the control port (00 R3, 13
R336): refused where the port takes none. -/
def State.byPort (s : State) (f : State → State) : State := if s.commanded then f s else s.answer .refused

/-! ### Queues in memory -/

/-- The die whose walker a keel master uses: the partition's lowest (log 22). -/
def State.walker (s : State) (p : Nat) : Nat := ((List.range 8).find? (fun d => (s.part p).dies.getLsbD d)).getD 0

/-- A partition's registered queue by its header's address, and a queue replaced. -/
def State.queue (s : State) (p : Nat) (hdr : Word) : Option Queue := (s.part p).queues.find? (fun q => q.hdr == hdr)
def State.setQueue (s : State) (p : Nat) (q : Queue) : State :=
  let u := s.part p
  s.setPart p { u with queues := u.queues.map (fun x => if x.hdr = q.hdr then q else x) }

/-! ### The header's fields (09 R254) -/

def State.status (s : State) (q : Queue) : Nat := s.hread (q.pa + 0x0C) 4
def State.claim (s : State) (q : Queue) : Nat := s.hread (q.pa + 0x10) 8
def State.widx (s : State) (q : Queue) : Nat := s.hread (q.pa + 0x18) 8
def State.ridx (s : State) (q : Queue) : Nat := s.hread (q.pa + 0x20) 8
def State.doneIdx (s : State) (q : Queue) : Nat := s.hread (q.pa + 0x28) 8

/-- A field of the header written at its home. -/
def State.hdrPut (s : State) (q : Queue) (o n v : Nat) : State := s.puts none [(q.pa + o, n, v)]

/-- KIND's low bits and EXT (09 R254). -/
def Queue.sort (q : Queue) : Nat := q.kind.toNat % 4
def Queue.ext (q : Queue) : Bool := q.kind.getLsbD 7

/-- The queue has stopped on an error. -/
def State.halted (s : State) (q : Queue) : Bool := s.status q % 2 == 1

/-- Slots in the ring. -/
def Queue.size (q : Queue) : Nat := 2 ^ q.log2n

/-- The physical address of a ring slot, through the translation held from registration. -/
def Queue.slotPa (q : Queue) (i : Nat) : Nat :=
  let va := q.base.toNat + 64 * (i % q.size)
  q.pages.getD (va / 4096 - q.base.toNat / 4096) 0 + va % 4096

/-- The packet in a ring slot. -/
def State.slotPacket (s : State) (q : Queue) (i : Nat) : Vector Word 8 :=
  tab 8 (fun k => BitVec.ofNat 64 (s.hread (q.slotPa i + 8 * k) 8))

/-- A physical address lies on a fenced die (14 R365). -/
def State.cutOff (s : State) (pa : Nat) : Bool := s.fenced.getLsbD (stackDie (paStack pa))

/-- The queue's header lies on a fenced die (14 R365). -/
def State.hdrFenced (s : State) (q : Queue) : Bool := s.cutOff q.pa || s.cutOff (q.pa + 32)
/-- A ring slot lies on a fenced die. -/
def State.slotFenced (s : State) (q : Queue) (i : Nat) : Bool := s.cutOff (q.slotPa i) || s.cutOff (q.slotPa i + 32)

/-- Accesses to the queue's header wait: for its stack or its unit (07 R197, 14 R364), or until its die rejoins (14 R365;
log 99). -/
def State.hdrHeld (s : State) (q : Queue) : Bool := s.held q.pa || s.held (q.pa + 32) || s.hdrFenced q
/-- Accesses to a ring slot wait for its stack or its unit. -/
def State.slotHeld (s : State) (q : Queue) (i : Nat) : Bool := s.held (q.slotPa i) || s.held (q.slotPa i + 32)

/-- The sectors of the header, and those of a ring slot. -/
def Queue.hdrPas (q : Queue) : List Nat := [q.pa, q.pa + 32]
def Queue.slotPas (q : Queue) (i : Nat) : List Nat := [q.slotPa i, q.slotPa i + 32]

/-- What a queue holds for the command processor: nothing to take, a packet that cannot be read yet, a slot that halts the
queue with a CODE, or a packet. -/
inductive Offer where
  | none
  | wait
  | code (c : Nat)
  | packet (k : Vector Word 8)
  deriving DecidableEq, Repr

/-- What the queue offers at RIDX. Nothing, where the queue has stopped, no packet is published, or its header is out of
reach behind a fence or poisoned (14 R365; log 85, log 99); a wait, where its header or slot is on a stack or a unit that
takes no access (07 R197, 14 R364); CODE 0x0C, where its slot is on a fenced die (14 R365), and 0x01, where the slot is
poisoned (log 85). -/
def State.offer (s : State) (q : Queue) : Offer :=
  if q.frozen || q.stalled || s.hdrFenced q then .none
  else if s.hdrHeld q then .wait
  else if q.hdrPas.any s.secPois || s.halted q || decide (s.widx q ≤ s.ridx q) then .none
  else if s.slotFenced q (s.ridx q) then .code 0x0C
  else if s.slotHeld q (s.ridx q) then .wait
  else if (q.slotPas (s.ridx q)).any s.secPois then .code 0x01
  else .packet (s.slotPacket q (s.ridx q))

/-- The packet that the queue offers. -/
def State.offered (s : State) (q : Queue) : Option (Vector Word 8) :=
  match s.offer q with
  | .packet k => some k
  | _ => none

/-- Reading the header, and the slot at RIDX where a packet is published, meets their errors (14 R362). -/
def State.metQueue (s : State) (q : Queue) : State :=
  if s.hdrHeld q then s
  else
    let s1 := q.hdrPas.foldl State.meetUE s
    if s1.widx q ≤ s1.ridx q ∨ s1.slotHeld q (s1.ridx q) ∨ s1.slotFenced q (s1.ridx q) then s1
    else (q.slotPas (s1.ridx q)).foldl State.meetUE s1
/-- The same for each of a partition's queues of a kind. -/
def State.metQueues (s : State) (p sort : Nat) : State :=
  ((s.part p).queues.filter (fun q => q.sort == sort)).foldl State.metQueue s

/-- The sectors that an acceptance reads, of the header and of the slot, count for elision (21 R386; log 81). -/
def State.elideSlot (s : State) (q : Queue) : State := s.elide ((q.hdrPas ++ q.slotPas (s.ridx q)).map paSector)

/-- STATUS.POIS set (09 R260). -/
def State.markPois (s : State) (q : Queue) : State :=
  let v := s.status q
  if v / 2 % 2 = 1 then s else s.hdrPut q 0x0C 4 (v + 2)

/-- The queue halts with a CODE; the supervisor is told (09 R263). -/
def State.halt (s : State) (p : Nat) (q : Queue) (code : Nat) : State :=
  (s.hdrPut q 0x0C 4 (s.status q / 2 % 2 * 2 + 1 + code * 256)).report p (.halt q.hdr (s.ridx q) code)

/-- The queue freezes at the packet of a slot with a violation (13 R331, R332). -/
def State.freezeQueue (s : State) (p : Nat) (q : Queue) (slot code : Nat) (codes : BitVec 16) (addr : Word) :
    State :=
  ((s.setQueue p { q with frozen := true })).addVio p
    { code := code, mkind := if q.sort = 0 then 5 else q.sort, codes := codes, mid := 0, owner := q.hdr
      pc := BitVec.ofNat 64 slot, addr := addr, lanes := 0, time := s.time, slot := 0, lvl := false }

/-- The supervisor is told of a page that a master, walking on die `d`, waits for: once for each page met (09 R260, 10
R394, 12 R314). The walk has read the entry that it found not present (21 R386). -/
def State.tell (s : State) (p d : Nat) (told : Option Word) (hdr : Word) (slot : Nat) (va : Word) : State :=
  if told = some va then s else (s.elideWalks p d [va]).report p (.fault hdr slot va)

/-- The queue waits for a page, which the supervisor is told of (09 R260, 10 R394). -/
def State.stallQueue (s : State) (p : Nat) (q : Queue) (addr : Word) : State :=
  (s.setQueue p { q with stalled := true, told := some addr }).tell p (s.walker p) q.told q.hdr (s.ridx q) addr

/-- The queue no longer waits. -/
def Queue.unstall (q : Queue) : Queue := { q with stalled := false, told := none }

/-- RIDX, or DONE, one further. -/
def State.stepRidx (s : State) (q : Queue) : State := s.hdrPut q 0x20 8 (s.ridx q + 1)
def State.stepDone (s : State) (q : Queue) : State := s.hdrPut q 0x28 8 (s.doneIdx q + 1)

/-- RIDX goes back to an accepted packet that a violation has frozen (13 R331), and forward again once that packet is
resumed or dropped. -/
def State.backTo (s : State) (p : Nat) (q : Queue) (slot : Nat) : State :=
  if s.ridx q ≤ slot then s
  else (s.setQueue p { q with back := some (q.back.getD (s.ridx q)) }).hdrPut q 0x20 8 slot
def State.forth (s : State) (p : Nat) (q : Queue) : State :=
  match q.back with
  | some r => (s.setQueue p { q with back := none }).hdrPut q 0x20 8 r
  | none => s

/-! ### Registration (09 R254) -/

/-- The entries on an engine's walk of an address that have an uncorrectable error are met: at most one to a level (14
R362). -/
def State.metWalk (s : State) (p d : Nat) (va : Word) : Nat → State
  | 0 => s
  | n + 1 =>
    match s.xlate p d va .read with
    | .lost pa => (s.meetUE pa).metWalk p d va n
    | _ => s
/-- The same for each address of a list, walked for on a die. -/
def State.metOn (s : State) (p d : Nat) (vas : List Word) : State := vas.foldl (fun s va => s.metWalk p d va 4) s
/-- The same for a keel master. -/
def State.metWalks (s : State) (p : Nat) (vas : List Word) : State := s.metOn p (s.walker p) vas

/-- The physical address of a page that holds a virtual address, for the command processor. -/
def State.physOf (s : State) (p : Nat) (va : Word) : Option Nat :=
  match s.xlate p (s.walker p) va .read with
  | .mem pa _ => some pa
  | _ => none

/-- A header's reserved fields hold what 09 R254 gives them: KIND is not 3, and KIND[6:2], the byte at 0x0B, STATUS[31:16],
the last 16 bytes and, in a launch queue, ENGINE are zero (log 84). -/
def State.hdrOk (s : State) (pa : Nat) : Bool :=
  let kind := s.hread (pa + 9) 1
  decide (kind % 4 ≠ 3) && decide (kind / 4 % 32 = 0) && decide (s.hread (pa + 0x0B) 1 = 0) &&
    decide (s.hread (pa + 0x0E) 2 = 0) && decide (s.hread (pa + 0x30) 16 = 0) &&
    (decide (kind % 4 ≠ 0) || decide (s.hread (pa + 0x0A) 1 = 0))

/-- What the command processor captures of a header: none where an address of it or of its ring is not mapped, BASE or
LOG2N is outside R254's values, a reserved field is not zero (log 84), or it is poisoned (log 85). -/
def State.capture (s : State) (p : Nat) (hdr : Word) : Option Queue := do
  let pa ← s.physOf p hdr
  let base : Word := BitVec.ofNat 64 (s.hread pa 8)
  let n := s.hread (pa + 8) 1
  if hdr &&& 63 ≠ 0 ∨ base &&& 63 ≠ 0 ∨ n < 2 ∨ 16 < n ∨ !s.hdrOk pa ∨ s.secPois pa ∨ s.secPois (pa + 32) then none
  let first := base.toNat / 4096
  let last := (base.toNat + 64 * 2 ^ n - 1) / 4096
  let pages ← (List.range (last - first + 1)).mapM (fun i => s.physOf p (BitVec.ofNat 64 (4096 * (first + i))))
  return { hdr := hdr, pa := pa, base := base, log2n := n, pages := pages, kind := BitVec.ofNat 8 (s.hread (pa + 9) 1)
           engine := BitVec.ofNat 8 (s.hread (pa + 10) 1) }

/-- The pages that registration walks: the header's, and those of the ring that it names. -/
def State.ringPages (s : State) (p : Nat) (hdr : Word) : List Word :=
  match s.physOf p hdr with
  | none => []
  | some pa =>
    let base := s.hread pa 8
    let first := base / 4096
    (List.range ((base + 64 * 2 ^ min 16 (s.hread (pa + 8) 1) - 1) / 4096 - first + 1)).map (fun i =>
      BitVec.ofNat 64 (4096 * (first + i)))

/-- The header at an address can be read now: its page is mapped, and its stack, unit and die take accesses (07 R197; 14
R364, R365). -/
def State.hdrOpen (s : State) (p : Nat) (hdr : Word) : Bool :=
  match s.physOf p hdr with
  | some pa => !s.held pa && !s.held (pa + 32) && !s.cutOff pa && !s.cutOff (pa + 32)
  | none => false

/-- The errors that reading a header and walking to its ring meet (14 R362). -/
def State.metHeader (s : State) (p : Nat) (hdr : Word) : State :=
  let s1 := s.metWalks p [hdr]
  match s1.physOf p hdr with
  | some pa =>
    let s2 := if s1.hdrOpen p hdr then [pa, pa + 32].foldl State.meetUE s1 else s1
    s2.metWalks p (s2.ringPages p hdr)
  | none => s1

/-- A walk to the header's page or to one of its ring waits (07 R197, 14 R364). -/
def State.walksWait (s : State) (p : Nat) (hdr : Word) : Bool :=
  (hdr :: s.ringPages p hdr).any (fun va => s.xlate p (s.walker p) va .read == .wait)

/-- A queue registered by the supervisor of a partition that exists (09 R254; 13 R320); one whose header cannot be read
yet is brought again (log 9). -/
def State.register (s : State) (p : Nat) (hdr : Word) : State :=
  if !(s.part p).en then s
  else
    let s := s.metHeader p hdr
    if !s.hdrOpen p hdr || s.walksWait p hdr then s
    else
      match s.queue p hdr, s.capture p hdr with
      | none, some q => s.setPart p { s.part p with queues := (s.part p).queues ++ [q] }
      | _, _ => s

/-- QUEUE_REGISTER (09 R254): the queue stands behind those registered before it (10 R265). -/
def execQueueRegister (p : Fin 8) (hdr : Word) (s : State) : Host.Outcome State Fault Refusal :=
  .next (s.byPort (fun s => s.register p hdr))

/-- A queue's HALT cleared (09 R263). -/
def State.clearHalt (s : State) (p : Nat) (hdr : Word) : State :=
  match s.queue p hdr with
  | none => s
  | some q =>
    let s := s.metHeader p hdr
    if s.hdrHeld q || s.walksWait p hdr then s
    else
      let q1 := match s.capture p hdr with
        | some c => { q with base := c.base, log2n := c.log2n, pages := c.pages, kind := c.kind, engine := c.engine }
        | none => q
      (s.hdrPut q 0x0C 4 (s.status q / 2 * 2)).setQueue p q1.unstall

/-- QUEUE_HALT_CLEAR (09 R263): HALT clears, the fields the supervisor may have rewritten are captured again, and the
queue reads its slot again. -/
def execQueueHaltClear (p : Fin 8) (hdr : Word) (s : State) : Host.Outcome State Fault Refusal :=
  .next (s.byPort (fun s => s.clearHalt p hdr))

/-! ### QPUT (09 R255) -/

/-- The packet that a register's lanes 0 to 7 supply: lanes not live supply zero. -/
def State.qputPacket (s : State) (t : Seat) (b : Src) : Vector Word 8 :=
  let v := s.srcVal t false (vrep 64 0) 1 b
  tab 8 (fun l => if t.live.getLsbD l then vget 0 v l else 0)

/-- The header that a QPUT names, checked as a global load (09 R255, step 1), both its sectors where it is one; not again
once the row has claimed its slot, for then the instruction has made an access (08 R233). -/
def State.qputQueue (s : State) (sid : Nat) (t : Seat) (hdr : Word) : Except Stop (Queue × State) := do
  let p := t.bind.part
  let foreign : Except Stop (Queue × State) := freezeC vQUEUE_FOREIGN hdr
  if hdr.getLsbD 63 then
    match s.xlate p (sidCore sid / 8) hdr .read with
    | .vio c => freezeC c hdr
    | _ => foreign
  else
    let q := s.queue p hdr
    let (_, s1) ←
      if t.qput.isSome then .ok ([], s)
      else
        s.gcheck p (sidCore sid / 8) (some sid) ((0, hdr) :: (if q.isSome then [(0, hdr + 32)] else [])) [] 8 false true
          (loadOp 8)
    match q with
    | none => foreign
    | some q => if q.ext then foreign else return (q, s1)

/-- A slot not yet claimed that lies on a fenced die raises DIE_FENCED (14 R365). -/
def State.qputFence (s : State) (t : Seat) (q : Queue) : Except Stop Unit :=
  let n := s.claim q
  let d := stackDie (paStack (q.slotPa n))
  failTrap s cDIE_FENCED true d
    (if t.qput.isNone && s.slotFenced q n then [(0, q.base + BitVec.ofNat 64 (64 * (n % q.size)))] else [])

/-- The slot that a row claims, once: CLAIM moves past it (09 R255 step 2). -/
def State.qputClaim (s : State) (sid : Nat) (t : Seat) (q : Queue) : Nat × State :=
  match t.qput with
  | some n => (n, s)
  | none =>
    let n := s.claim q
    (n, (s.hdrPut q 0x10 8 (n + 1)).setSeat sid { t with qput := some n })

/-- A packet written to a claimed slot, and WIDX moved past it (09 R255 steps 4 to 6). -/
def State.qputWrite (s : State) (t : Seat) (q : Queue) (slot : Nat) (pkt : Vector Word 8) : State :=
  let s1 := s.puts none ((List.range 8).map (fun k => (q.slotPa slot + 8 * k, 8, (vget 0 pkt k).toNat)))
  ((s1.hdrPut q 0x18 8 (slot + 1)).elide (q.hdrPas.map paSector)).setQueue t.bind.part { q with
    subs := q.subs ++ [(slot, t.bind.lid, if t.bind.spawned then none else some t.bind.string)] }

/-- QPUT (09 R255): its steps 1 to 6; a slot once claimed stays claimed while the row waits, for a fenced die too (log
99). -/
def execQput (a b : Src) (f : BitVec 4) (s : State) : Host.Outcome State Fault Refusal :=
  s.run fun sid t => do
    let scope := f.toNat % 8
    let reads := [(b, t.live &&& 0xFF#64)]
    t.check sid true
      (!scalarOk a || b.l || b.n == 31 || (f.getLsbD 3 && badScope scope) || (!f.getLsbD 3 && scope != 0)) false false
      [(a, 1)] (reads.map (fun x => (false, x)))
    let hdr := s.scalar t a
    let (q, s1) ← s.qputQueue sid t hdr
    fenceWait ((!f.getLsbD 3 || s.released sid t scope) && !s1.hdrHeld q)
    s1.qputFence t q
    let (slot, s2) := s1.qputClaim sid t q
    if q.size ≤ slot - s2.ridx q then .error (.after s2 (.park (.ring hdr) true))
    else if s2.widx q ≠ slot || s2.slotHeld q slot || s2.slotFenced q slot then .error (.after s2 .stall)
    else
      let s3 := s2.qputWrite t q slot (s.qputPacket t b)
      let u := ((s3.seat sid).lastUse true 1 [a]).lastUse false (t.live &&& 0xFF#64) [b]
      return (s3.setSeat sid { u.dropLatches with qput := none }.advance).useFree
        (t.freeUsed true [(a, 1)] + t.freeUsed false reads)

/-! ### External submission (09 R256) -/

/-- WIDX is out of range (09 R256). -/
def State.badWidx (s : State) (q : Queue) : Bool :=
  let r := q.back.getD (s.ridx q)
  decide (s.widx q < r) || decide (r + q.size < s.widx q)

/-- Every queue whose WIDX an external writer has put out of range halts (09 R256), whatever wrote it, once its header can
be written. -/
def State.haltBad (s : State) : State :=
  (List.range 8).foldl (fun (s : State) p =>
    (s.part p).queues.foldl (fun (s : State) q =>
      if q.ext && s.badWidx q && !s.halted q && !s.hdrHeld q then s.halt p q 0x0A else s) s) s

/-- The packet of an external writer written to the slot at WIDX, then WIDX (09 R256): refused as any access of it to a
fenced die is (14 R365), and brought again while a stack takes no access (07 R197; log 9). -/
def State.submitExt (s : State) (p : Nat) (hdr : Word) (pkt : Vector Word 8) (widx : Word) : State :=
  match s.queue p hdr with
  | none => s
  | some q =>
    if !(s.part p).en || !q.ext then s
    else if s.hdrFenced q || s.slotFenced q (s.widx q) then s.answer .refused
    else if s.hdrHeld q || s.slotHeld q (s.widx q) then s
    else
      let s1 := s.puts none ((List.range 8).map (fun k => (q.slotPa (s.widx q) + 8 * k, 8, (vget 0 pkt k).toNat)))
      let s2 := s1.hdrPut q 0x18 8 widx.toNat
      if s2.badWidx q && !s2.halted q then s2.halt p q 0x0A else s2

/-- EXT_QUEUE_SUBMIT (09 R256): an external writer reaches the queue through the control port (13 R336). -/
def execExtQueueSubmit (p : Fin 8) (hdr : Word) (pkt : Vector Word 8) (widx : Word) (s : State) :
    Host.Outcome State Fault Refusal :=
  .next (s.byPort (fun s => s.submitExt p hdr pkt widx))

end Sys2Proof.Machine
end

