-- ==== Sys2Proof/Machine/Launch.lean ====
section
/-! DEFINITION. Launch packets (10 R264), rigs on the mesh (01 R15, R29), where strings fit (10 R268, R269, R272),
acceptance and its codes (10 R265), and bridle tables (10 R270, R271, R394). -/
namespace Sys2Proof.Machine

/-! ### The mesh (01 R15, R16, R29) -/

/-- The core at mesh (x, y). -/
def meshCore (x y : Nat) : Nat := if x < 8 then 8 * y + x else 8 * (y + 4) + (x - 8)
/-- The mesh coordinates of a core. -/
def meshX (c : Nat) : Nat := c % 8 + (if c / 8 < 4 then 0 else 8)
def meshY (c : Nat) : Nat := c / 8 % 4

/-- The cores of a rectangle by role (01 R29). -/
def rigCores (x0 y0 w h : Nat) : List Nat := (List.range (w * h)).map (fun n => meshCore (x0 + n % w) (y0 + n / w))

/-- The cores lie on one die. -/
def oneDie (cs : List Nat) : Bool := cs.all (fun c => c / 8 == cs.headD 0 / 8)

/-- The candidate rectangles of a launch's shape in a partition, in the order of 10 R272. -/
def State.rigs (s : State) (p w h : Nat) (one : Bool) : List (List Nat) :=
  (List.range (5 - h)).flatMap (fun y => (List.range (17 - w)).filterMap (fun x =>
    let cs := rigCores x y w h
    if y + h ≤ 4 ∧ x + w ≤ 16 ∧ cs.all (fun c => s.usable c && s.owns p c) ∧ (one → oneDie cs) then some cs else none))

/-! ### Rows and strings (01 R26, R28; 10 R268, R269, R272) -/

/-- A physical row is usable: neither it nor its core is marked (01 R28). -/
def State.rowUsable (s : State) (k : Nat) : Bool := s.usable (k / 64) && !Sparse.get false s.badRows k

/-- A seat is usable: the defect map does not mark it (01 R28). -/
def State.seatUsable (s : State) (sid : Nat) : Bool := !Sparse.get false s.badSeats sid

/-- A taken seat: its key, the first block and the number of blocks of its accumulators. -/
abbrev Taken := Nat × Nat × Nat

/-- The seats that hold rows. -/
def State.taken (s : State) : List Taken :=
  s.seats.filterMap (fun (e : Nat × Seat) => if e.2.resident then some (e.1, e.2.ablk, e.2.nblk) else none)

/-- A seat is free. -/
def seatFree (occ : List Taken) (sid : Nat) : Bool := !occ.any (fun e => e.1 == sid)

/-- Blocks `b` to `b + n - 1` of a physical row are free. -/
def blockFree (occ : List Taken) (k b n : Nat) : Bool :=
  !occ.any (fun e => e.1 / 4 == k && decide (e.2.1 < b + n) && decide (b < e.2.1 + e.2.2))

/-- The physical rows of a string from its head's (01 R26). -/
def stringRows (core head len : Nat) : List Nat :=
  (List.range len).map (fun k => (core + 8 * ((head + k) / 64)) * 64 + (head + k) % 64)

/-- The lowest block, a multiple of `n`, that is free on every row (10 R269). -/
def findBlock (occ : List Taken) (ks : List Nat) (n : Nat) : Option Nat :=
  [0, 1, 2, 3].find? (fun b => b % n == 0 && decide (b + n ≤ 4) && ks.all (fun k => blockFree occ k b n))

/-- The lowest seat of a mask that is usable and free on every row (10 R272, 01 R28). -/
def State.findSeat (s : State) (occ : List Taken) (ks : List Nat) (seats : BitVec 4) : Option Nat :=
  [0, 1, 2, 3].find? (fun q => seats.getLsbD q && ks.all (fun k => s.seatUsable (k * 4 + q) && seatFree occ (k * 4 + q)))

/-- Where a string stands: its head's core and physical row, its seat and its first block. -/
structure Place where
  core : Nat
  head : Nat
  seat : Nat
  ablk : Nat
  deriving DecidableEq, Repr

/-- The core leaves room to its south, within a rig, for a string of a length (10 R272, 01 R26). -/
def roomSouth (rig : List Nat) (core len : Nat) : Bool := (List.range ((len + 63) / 64)).all (fun i => rig.contains (core + 8 * i))

/-- The string's place in one core, if it fits there (10 R272). -/
def State.fitCore (s : State) (occ : List Taken) (rig : List Nat) (len acc : Nat) (seats : BitVec 4) (core : Nat) :
    Option Place :=
  if 64 < len ∧ !roomSouth rig core len then none
  else
    (List.range (if 64 < len then 1 else 65 - len)).findSome? (fun head =>
      let ks := stringRows core head len
      if !ks.all s.rowUsable then none
      else
        match s.findSeat occ ks seats, findBlock occ ks acc with
        | some q, some b => some { core := core, head := head, seat := q, ablk := b }
        | _, _ => none)

/-- The place of string `j` on a rig: role j mod n first, then the roles after it in cyclic order (10 R272). -/
def State.fit (s : State) (occ : List Taken) (rig : List Nat) (len acc : Nat) (seats : BitVec 4) (j : Nat) : Option Place :=
  (List.range rig.length).findSome? (fun i => s.fitCore occ rig len acc seats (rig.getD ((j + i) % rig.length) 0))

/-- The seats that a placed string takes. -/
def Place.seats (x : Place) (len acc : Nat) : List Taken :=
  (stringRows x.core x.head len).map (fun k => (k * 4 + x.seat, x.ablk, acc))

/-- The places of strings `j` to `j + n - 1` on a rig, if they all fit beside what is taken. -/
def State.fitAll (s : State) (rig : List Nat) (len acc : Nat) (seats : BitVec 4) : Nat → Nat → List Taken → Option (List Place)
  | 0, _, _ => some []
  | n + 1, j, occ =>
    match s.fit occ rig len acc seats j with
    | none => none
    | some x => (s.fitAll rig len acc seats n (j + 1) (x.seats len acc ++ occ)).map (fun xs => x :: xs)

/-! ### The packet (10 R264) -/

/-- The launch that a packet asks for, as partition `p` accepts it from a queue or a counter. -/
def asLaunch (p : Nat) (k : Vector Word 8) (queue : Option Word) (counter order : Nat) : Launch where
  part := p
  lid := pktWord k 0x30
  cls := pktField k 1 1 % 4
  ports := pktField k 1 1 / 4 % 2 == 1
  pin := pktField k 1 1 / 8 % 2 == 1
  onedie := pktField k 1 1 / 16 % 2 == 1
  skew := pktField k 2 1 % 16
  acc := pktField k 3 1
  lanes := pktField k 4 1
  seats := BitVec.ofNat 4 (pktField k 5 1)
  slen := pktField k 6 2
  nstr := pktField k 8 4
  rigw := pktField k 0x0C 1
  righ := pktField k 0x0D 1
  entry := pktWord k 0x10
  arg := pktWord k 0x18
  spad := pktField k 0x20 4
  done := BitVec.ofNat 32 (pktField k 0x24 4)
  bridle := pktWord k 0x28
  queue := queue
  order := order
  roles := []
  nextString := 0
  pinned := []
  killed := false
  placed := false
  counter := counter

/-- DONE has a reserved bit set (10 R264, 09 R261). -/
def doneBad (d : Half) : Bool := d.extractLsb' 12 19 != 0

/-- The values of R264. -/
def Launch.inRange (l : Launch) : Bool :=
  decide (1 ≤ l.lanes) && decide (l.lanes ≤ 64) && (l.acc == 1 || l.acc == 2 || l.acc == 4) &&
  ((decide (1 ≤ l.slen) && decide (l.slen ≤ 64)) || l.slen == 128 || l.slen == 192 || l.slen == 256) &&
  decide (1 ≤ l.nstr) && decide (l.nstr ≤ 2 ^ 20) && decide (1 ≤ l.rigw) && decide (l.rigw ≤ 16) &&
  decide (1 ≤ l.righ) && decide (l.righ ≤ 4) && decide (l.spad ≤ 0xC00000) && decide (l.rigw * l.righ ≤ 12) && l.seats != 0

/-- A string of the launch fits in some core of the rig when nothing else is there. -/
def State.fitsSome (s : State) (l : Launch) (rig : List Nat) : Bool :=
  rig.any (fun c => (s.fitCore [] rig l.slen 1 l.seats c).isSome)

/-- The codes of 10 R265 that a packet fails, without those that read its bridle table. -/
def State.launchCodes (s : State) (k : Vector Word 8) (l : Launch) : List Nat :=
  let rigs := s.rigs l.part l.rigw l.righ l.onedie
  let flags := pktField k 1 1
  [(0x01, pktKind k != 0x20),
   (0x02, l.cls == 3 || decide (32 ≤ flags) || decide (16 ≤ pktField k 2 1) || decide (16 ≤ pktField k 5 1) ||
      pktField k 0x0E 2 != 0 || pktWord k 0x38 != 0 || doneBad l.done),
   (0x03, l.entry &&& 15 != 0 || l.bridle &&& 63 != 0),
   (0x05, !l.inRange),
   (0x10, (l.cls == 0 && l.ports) || (decide (1 < l.slen) && !l.ports)),
   (0x11, rigs.isEmpty),
   (0x12, !rigs.any (s.fitsSome l)),
   (0x13, l.cls == 2 && !rigs.any (fun r => (s.fitAll r l.slen l.acc l.seats l.nstr 0 []).isSome)),
   (0x14, if l.ports then l.seats != 1 else l.seats.getLsbD 0),
   (0x15, (Sparse.get none s.launches (launchKey l.part l.lid)).isSome),
   (0x16, l.pin && l.bridle == 0)].filterMap (fun (c : Nat × Bool) => if c.2 then some c.1 else none)

/-! ### Bridle tables (10 R270, R271, R394) -/

/-- The bytes of a launch's table. -/
def Launch.tableSize (l : Launch) : Nat := 64 + 4 * l.nstr

/-- The first byte of each page that a range touches. -/
def pagesOf (va n : Nat) : List Nat :=
  (List.range ((va + n - 1) / 4096 + 1 - va / 4096)).map (fun i => max va (4096 * (va / 4096 + i)))

/-- The sectors with an uncorrectable error in a range that a keel master reads, and on the walks to it, are met (14
R362). -/
def State.metRange (s : State) (p : Nat) (va : Word) (n : Nat) : State :=
  let s1 := s.metWalks p ((pagesOf va.toNat n).map (BitVec.ofNat 64))
  (List.range ((va.toNat % 32 + n + 31) / 32)).foldl (fun (s : State) i =>
    match s.physOf p (BitVec.ofNat 64 (va.toNat / 32 * 32 + 32 * i)) with
    | some pa => s.meetUE pa
    | none => s) s1

/-- A range that a keel master reads holds a poisoned sector. -/
def State.poisRange (s : State) (p : Nat) (va : Word) (n : Nat) : Bool :=
  (List.range ((va.toNat % 32 + n + 31) / 32)).any (fun i =>
    match s.physOf p (BitVec.ofNat 64 (va.toNat / 32 * 32 + 32 * i)) with
    | some pa => s.secPois pa
    | none => false)

/-- What a check comes to: a code to halt with, a page not present, a violation with its code and every code met, a wait, or an answer. -/
inductive Verdict (α : Type) where
  | code (c : Nat)
  | fault (va : Word)
  | vio (code : Nat) (codes : BitVec 16) (va : Word)
  | wait
  | ok (a : α)
  deriving DecidableEq, Repr

/-- The sectors that `n` bytes from an address touch, by their first bytes. -/
def sectorsOf (pa n : Nat) : List Nat := (List.range ((pa % 32 + n + 31) / 32)).map (fun i => pa / 32 * 32 + 32 * i)

/-- Accesses to some of `n` bytes of one page wait (07 R197, 14 R364). -/
def State.heldRange (s : State) (pa n : Nat) : Bool :=
  let u := s.stack (paStack pa)
  u.hBusy || (u.retBusy && (sectorsOf pa n).any s.held)

/-- The bytes of a range from an address of it to the end of its page. -/
def pagePart (va n a : Nat) : Nat := min (4096 * (a / 4096 + 1)) (va + n) - a

/-- Every page of a range checked for a master that walks on die `d` and finds the dies of a mask fenced: violations decide
(13 R330), then a stack or unit that takes no access (07 R197, 14 R364), a fenced die (14 R365), and a page not present, as one behind a
poisoned entry counts (log 85). A peer's range is none that it reaches (log 23). -/
def State.checkRange (s : State) (p d : Nat) (va : Word) (n : Nat) (k : AccKind) (fen : BitVec 8) : Verdict Unit :=
  let xs := (pagesOf va.toNat n).map (fun a => (BitVec.ofNat 64 a, s.xlate p d (BitVec.ofNat 64 a) k))
  let vs := xs.filterMap (fun (x : Word × Xlate) => match x.2 with
    | .vio c => some (c, x.1)
    | .peer => some (vPARTITION_BOUND, x.1)
    | _ => none)
  match vs with
  | (c, a) :: _ => .vio c (vs.foldl (fun m (v : Nat × Word) => m ||| codeBit v.1) 0) a
  | [] =>
    if xs.any (fun (x : Word × Xlate) => match x.2 with
        | .wait | .lost _ => true
        | .mem pa _ => s.heldRange pa (pagePart va.toNat n x.1.toNat)
        | _ => false) then .wait
    else if xs.any (fun (x : Word × Xlate) => match x.2 with
        | .mem pa _ => fen.getLsbD (stackDie (paStack pa))
        | _ => false) then .code 0x0C
    else
      match xs.find? (fun (x : Word × Xlate) => x.2 == .absent || x.2 == .poison) with
      | some x => .fault x.1
      | none => .ok ()

/-- The same for a keel master (log 22). -/
def State.checkPages (s : State) (p : Nat) (va : Word) (n : Nat) (k : AccKind) : Verdict Unit :=
  s.checkRange p (s.walker p) va n k s.fenced

/-- A byte range of memory at a virtual address, byte by byte through the translation, for a keel master. -/
def State.vread (s : State) (p : Nat) (va : Word) (n : Nat) : Nat :=
  match s.physOf p va with
  | some pa => s.hread pa n
  | none => 0

/-- The fields of a bridle entry (10 R270). -/
def entryPlace (e : Half) : Place where
  core := (e.extractLsb' 0 6).toNat
  head := (e.extractLsb' 6 6).toNat
  seat := (e.extractLsb' 12 2).toNat
  ablk := (e.extractLsb' 14 2).toNat
/-- The entry word of a place. -/
def Place.entry (x : Place) : Half :=
  BitVec.ofNat 32 (2 ^ 31 + x.ablk * 2 ^ 14 + x.seat * 2 ^ 12 + (x.head % 64) * 2 ^ 6 + x.core)

/-- An entry of a pinned table is placeable by itself (10 R271). -/
def State.entryOk (s : State) (l : Launch) (rig : List Nat) (e : Half) : Bool :=
  let x := entryPlace e
  e.getLsbD 31 && e.extractLsb' 16 15 == 0 && rig.contains x.core &&
  (if 64 < l.slen then x.head == 0 && roomSouth rig x.core l.slen else decide (x.head + l.slen ≤ 64)) &&
  (stringRows x.core x.head l.slen).all (fun k => s.rowUsable k && s.seatUsable (k * 4 + x.seat)) && l.seats.getLsbD x.seat &&
  x.ablk % l.acc == 0 && decide (x.ablk + l.acc ≤ 4)

/-- No two of the places share a seat of a physical row or, where all stand at once, an accumulator block. -/
def disjoint (l : Launch) : List Place → List Taken → Bool
  | [], _ => true
  | x :: xs, occ =>
    let ks := stringRows x.core x.head l.slen
    ks.all (fun k => seatFree occ (k * 4 + x.seat) && (l.cls != 2 || blockFree occ k x.ablk l.acc)) &&
      disjoint l xs (x.seats l.slen l.acc ++ occ)

/-- The rig that a pinned table's roles bind, if they bind one as 10 R271 requires. -/
def State.pinnedRig (s : State) (l : Launch) : Option (List Nat) :=
  let role (n : Nat) : Nat := s.vread l.part (l.bridle + 0x10 + BitVec.ofNat 64 n) 1
  let c0 := role 0 % 64
  let cs := rigCores (meshX c0) (meshY c0) l.rigw l.righ
  if (s.rigs l.part l.rigw l.righ l.onedie).contains cs ∧
      (List.range 12).all (fun n => role n == if n < l.rigw * l.righ then 0x40 + cs.getD n 0 else 0) then some cs
  else none

/-- A pinned table read at acceptance: its rig and entries; none where it breaks R270 or R271, or cannot be read whole
(log 85). -/
def State.readPinned (s : State) (l : Launch) : Option (List Nat × List Half) :=
  let rd (o n : Nat) : Nat := s.vread l.part (l.bridle + BitVec.ofNat 64 o) n
  let es := (List.range l.nstr).map (fun j => BitVec.ofNat 32 (rd (0x40 + 4 * j) 4))
  match s.pinnedRig l with
  | none => none
  | some rig =>
    if rd 0 8 = l.lid.toNat ∧ rd 8 4 = l.nstr ∧ rd 0x0C 2 = l.slen ∧ rd 0x0E 1 = l.rigw ∧ rd 0x0F 1 = l.righ ∧
        rd 0x1C 4 < 8 ∧ (List.range 4).all (fun i => rd (0x20 + 8 * i) 8 == 0) ∧ es.all (s.entryOk l rig) ∧
        !s.poisRange l.part l.bridle l.tableSize ∧
        disjoint l (es.map entryPlace) [] then some (rig, es)
    else none

/-! ### Acceptance (10 R265, R394) -/

/-- The lowest number of a list. -/
def lowest (cs : List Nat) : Option Nat := cs.foldl (fun m c => some (min c (m.getD c))) none

/-- The acceptance of a launch packet. A code of 10 R265 is looked for before the pages of the bridle (log 86). -/
def State.accept (s : State) (p : Nat) (k : Vector Word 8) (queue : Option Word) (counter : Nat) : Verdict Launch :=
  let l := asLaunch p k queue counter (s.part p).order
  match lowest (s.launchCodes k l) with
  | some c => .code c
  | none =>
    if l.bridle = 0 then .ok l
    else
      match s.checkPages p l.bridle l.tableSize (if l.pin then .read else .write) with
      | .fault va => .fault va
      | .vio c cs va => .vio c cs va
      | .wait => .wait
      | .code c => .code c
      | .ok () =>
        if !l.pin then .ok l
        else
          match s.readPinned l with
          | none => .code 0x16
          | some (rig, es) => .ok { l with roles := rig, pinned := es }

/-- A launch put into its partition's table, or taken out. -/
def State.setLaunch (s : State) (key : Nat) (l : Option Launch) : State :=
  { s with launches := Sparse.set none s.launches key l }

/-- An accepted launch takes its place in the placement order. -/
def State.addLaunch (s : State) (l : Launch) : State :=
  let s1 := s.setLaunch (launchKey l.part l.lid) (some l)
  s1.setPart l.part { s1.part l.part with order := l.order + 1 }

/-- The errors that the acceptance of a packet meets in its bridle table (14 R362). -/
def State.metBridle (s : State) (p : Nat) (k : Vector Word 8) : State :=
  let l := asLaunch p k none 0 0
  if !(s.launchCodes k l).isEmpty || l.bridle == 0 then s
  else if l.pin then s.metRange p l.bridle l.tableSize
  else s.metWalks p ((pagesOf l.bridle.toNat l.tableSize).map (BitVec.ofNat 64))

/-- What the outcome of the acceptance of the packet at the head of a launch queue does to the queue; a launch keeps the
slot of its packet (10 R394). -/
def State.accepted (s : State) (p : Nat) (q : Queue) : Verdict Launch → State
  | .code c => s.halt p q c
  | .fault va => s.stallQueue p q va
  | .vio c cs va => s.freezeQueue p { q with atAccept := true } (s.ridx q) c cs va
  | .wait => s
  | .ok l => (s.stepRidx q).addLaunch { l with slot := s.ridx q }

/-- The next launch queue in the rotation that offers something: its place in the registration order (10 R265). A queue
whose packet cannot be read yet is not passed over (07 R197, 14 R364). -/
def State.nextLaunch (s : State) (p : Nat) : Option (Nat × Queue × Offer) :=
  let u := s.part p
  let n := u.queues.length
  (List.range n).findSome? (fun i =>
    let j := (u.rot + i) % n
    match u.queues[j]? with
    | none => none
    | some q => if q.sort ≠ 0 ∨ s.offer q = .none then none else some (j, q, s.offer q))

/-- An acceptance of the partition waits for a page: of a launch queue, or of a counter's launch (10 R394). -/
def Part.acceptStalled (u : Part) : Bool :=
  u.queues.any (fun q => q.sort == 0 && q.stalled) || u.counters.any (fun (e : Nat × Counter) => e.2.hold)

/-- The packet that a launch queue offers brought to acceptance: the state, and whether it has been taken; one that waits
has not (10 R265; log 103). -/
def State.tryAccept (s : State) (p : Nat) (q : Queue) : Offer → State × Bool
  | .packet k =>
    let s1 := s.metBridle p k
    match s1.accept p k (some q.hdr) 0 with
    | .wait => (s1, false)
    | v => ((s1.elideSlot q).accepted p q v, true)
  | .code c => (s.halt p q c, true)
  | _ => (s, false)

/-- LAUNCH_ACCEPT (10 R265): the rotation goes on to the queue registered after the one whose packet was taken, though it
be registered later; a rejected, stalled or frozen packet counts as taken (log 103). -/
def execLaunchAccept (p : Fin 8) (s : State) : Host.Outcome State Fault Refusal :=
  if (s.part p).acceptStalled then .next s
  else
    let s := s.metQueues p 0
    match s.nextLaunch p with
    | none => .next s
    | some (j, q, x) =>
      let (s1, taken) := s.tryAccept p q x
      .next (if taken then s1.setPart p { s1.part p with rot := j + 1 } else s1)

end Sys2Proof.Machine
end

