-- ==== Sys2Proof/Machine/Tasks.lean ====
section
/-! DEFINITION. The checks of a girth packet (09 R261, R263), and dependence counters with their tasks (12 R311 to
R314). -/
namespace Sys2Proof.Machine

/-! ### Girth packets (09 R261, R263) -/

/-- N, and the ranges that a command uses, each with whether it is written. -/
def girthN (k : Vector Word 8) : Nat := pktField k 4 4
def girthRanges (k : Vector Word 8) : List (Word × Nat × Bool) :=
  let n := 4 * girthN k
  let y := (pktWord k 8, n, true)
  let x := (pktWord k 0x10, n, false)
  let m := (pktWord k 0x18, n, true)
  let v := (pktWord k 0x18 + BitVec.ofNat 64 n, n, true)
  match pktKind k with
  | 0x10 => [y, x]
  | 0x12 => [y, x, m]
  | 0x13 => [y, x, m, v]
  | _ => [y]

/-- How many constants a command has (09 R262). -/
def girthConsts (cmd : Nat) : Nat :=
  match cmd with
  | 0x10 | 0x11 => 1
  | 0x12 => 3
  | 0x13 => 7
  | _ => 0

/-- Two ranges have a byte in common. -/
def rangesMeet (a b : Word × Nat × Bool) : Bool :=
  decide (a.1.toNat < b.1.toNat + b.2.1) && decide (b.1.toNat < a.1.toNat + a.2.1)

/-- Some two ranges of a list meet. -/
def anyMeet : List (Word × Nat × Bool) → Bool
  | [] => false
  | r :: rs => rs.any (rangesMeet r) || anyMeet rs

/-- The codes of 09 R263 that a girth packet fails without its translation being looked at; `stackOk`: the queue's
ENGINE names a stack of the partition. -/
def girthCodes (k : Vector Word 8) (stackOk : Bool) : List Nat :=
  let cmd := pktKind k
  let x := cmd == 0x10 || cmd == 0x12 || cmd == 0x13
  let m := cmd == 0x12 || cmd == 0x13
  let rs := girthRanges k
  [(0x01, decide (cmd < 0x10) || decide (0x15 < cmd)),
   (0x02, pktField k 1 1 != 0 || pktField k 2 2 != 0 || doneBad (BitVec.ofNat 32 (pktField k 0x20 4)) ||
      (!x && pktWord k 0x10 != 0) || (!m && pktWord k 0x18 != 0) ||
      (List.range 7).any (fun j => decide (girthConsts cmd ≤ j) && pktField k (0x24 + 4 * j) 4 != 0)),
   (0x03, rs.any (fun (r : Word × Nat × Bool) => r.1 &&& 3 != 0)),
   (0x05, girthN k == 0),
   (0x07, anyMeet rs),
   (0x08, !stackOk || rs.any (fun (r : Word × Nat × Bool) => r.1.getLsbD 63))].filterMap
    (fun (c : Nat × Bool) => if c.2 then some c.1 else none)

/-- The first of the checks that is not passed, a violation deciding before a page not present. -/
def worst : List (Verdict Unit) → Verdict Unit
  | [] => .ok ()
  | v :: vs =>
    match v, worst vs with
    | .ok (), w => w
    | .vio c cs a, .vio _ ds _ => .vio c (cs ||| ds) a
    | .vio c cs a, _ => .vio c cs a
    | _, .vio c cs a => .vio c cs a
    | v, _ => v

/-- A girth packet checked for a stack: its codes, then every page of its ranges, and only then whether they lie on the
stack, which the pages tell (09 R260, R261, R263; log 86). -/
def State.girthCheck (s : State) (p stack : Nat) (stackOk : Bool) (k : Vector Word 8) : Verdict Unit :=
  match lowest (girthCodes k stackOk) with
  | some c => .code c
  | none =>
    let rs := girthRanges k
    match worst (rs.map (fun (r : Word × Nat × Bool) => s.checkPages p r.1 r.2.1 (if r.2.2 then .write else .read))) with
    | .ok () =>
      if rs.all (fun (r : Word × Nat × Bool) => (pagesOf r.1.toNat r.2.1).all (fun a =>
        (s.physOf p (BitVec.ofNat 64 a)).map paStack == some stack)) then .ok () else .code 0x08
    | v => v

/-! ### Counters (12 R311) -/

/-- A counter of a partition, and a counter replaced. -/
def State.counter (s : State) (p n : Nat) : Counter := Sparse.get {} (s.part p).counters n
def State.setCounter (s : State) (p n : Nat) (c : Counter) : State :=
  let u := s.part p
  s.setPart p { u with counters := Sparse.set {} u.counters n c }

/-- An operation refused: ERR is set, and the supervisor is told, with a cause code where a task failed (12 R312 to
R314). -/
def State.refuse (s : State) (p n cause : Nat) : State :=
  (s.setCounter p n { s.counter p n with err := true }).report p (.counter n cause)

/-- The violation of a counter's task: FROZEN, with its record (12 R314, 13 R331, R332). -/
def State.freezeCounter (s : State) (p n code : Nat) (codes : BitVec 16) (addr : Word) : State :=
  (s.setCounter p n { s.counter p n with frozen := true }).addVio p
    { code := code, mkind := 4, codes := codes, mid := BitVec.ofNat 32 n, owner := 0, pc := 0, addr := addr
      lanes := 0, time := s.time, slot := 0, lvl := false }

/-- The oldest issued task of a counter leaves it. -/
def State.taskDone (s : State) (p n : Nat) : State :=
  let c := s.counter p n
  s.setCounter p n { c with pend := c.pend.tail, hold := false, told := none }

/-- The stack that a girth packet's Y address names (12 R314). -/
def State.stackOfY (s : State) (p : Nat) (k : Vector Word 8) : Option Nat := (s.physOf p (pktWord k 8)).map paStack

/-- Another acceptance of the partition than counter `n`'s waits for a page, so that its own waits too (10 R394). -/
def Part.acceptHeld (u : Part) (n : Nat) : Bool :=
  u.queues.any (fun q => q.sort == 0 && q.stalled) ||
    u.counters.any (fun (e : Nat × Counter) => e.1 != n && e.2.hold)

/-- The errors that a girth packet's walks meet (14 R362). -/
def State.metGirth (s : State) (p : Nat) (k : Vector Word 8) : State :=
  s.metWalks p ((girthRanges k).flatMap (fun (r : Word × Nat × Bool) =>
    if r.1.getLsbD 63 then [] else (pagesOf r.1.toNat r.2.1).map (BitVec.ofNat 64)))

/-- A task's packet. -/
def State.taskPacket (s : State) (p : Nat) (task : Word) : Vector Word 8 :=
  tab 8 (fun i => BitVec.ofNat 64 (s.vread p (task + BitVec.ofNat 64 (8 * i)) 8))

/-- The errors that reading and checking a task's packet meets (14 R362). -/
def State.metTask (s : State) (p : Nat) (task : Word) : State :=
  let s := s.metRange p task 64
  let k := s.taskPacket p task
  if pktKind k = 0x20 then s.metBridle p k
  else if (girthCodes k true).isEmpty then s.metGirth p k else s

/-- What taking the packet of an issued task at an address comes to: the packet is in use, or why not. -/
inductive Taken1 where
  | launch (l : Launch)
  | girth (stack : Nat) (k : Vector Word 8)
  deriving DecidableEq, Repr

/-- A task's packet read and checked (12 R314); the flag tells whether a page that it waits for is a bridle table's. A
poisoned packet is none (log 85). -/
def State.taskVerdict (s : State) (p n : Nat) (task : Word) : Verdict Taken1 × Bool :=
  match s.checkPages p task 64 .read with
  | .fault va => (.fault va, false)
  | .vio c cs va => (.vio c cs va, false)
  | .wait => (.wait, false)
  | .code c => (.code c, false)
  | .ok () =>
    let k := s.taskPacket p task
    if s.poisRange p task 64 then (.code 0x01, false)
    else if pktKind k = 0x20 then
      if (s.part p).acceptHeld n then (.wait, false)
      else match s.accept p k none n with
      | .code c => (.code c, false)
      | .fault va => (.fault va, true)
      | .vio c cs va => (.vio c cs va, false)
      | .wait => (.wait, false)
      | .ok l => (.ok (.launch l), false)
    else
      let st := (s.stackOfY p k).getD 0
      match s.girthCheck p st true k with
      | .code c => (.code c, false)
      | .fault va => (.fault va, false)
      | .vio c cs va => (.vio c cs va, false)
      | .wait => (.wait, false)
      | .ok () => (.ok (.girth st k), false)

/-- The scheduler takes the oldest issued task of a counter (12 R314): a page not present is reported, once. -/
def State.takeTask (s : State) (p n : Nat) : State :=
  let c := s.counter p n
  match c.pend with
  | [] => s
  | task :: _ =>
    if c.frozen then s
    else
      let s := s.metTask p task
      match s.taskVerdict p n task with
      | (.wait, _) => s
      | (.fault va, h) => (s.setCounter p n { c with hold := h, told := some va }).tell p (s.walker p) c.told 0 n va
      | (.vio code codes va, _) => (s.setCounter p n { c with atTask := true }).freezeCounter p n code codes va
      | (.code code, _) => (s.taskDone p n).refuse p n code
      | (.ok (.launch l), _) => (s.taskDone p n).addLaunch l
      | (.ok (.girth st k), _) =>
        let s1 := s.taskDone p n
        let u := s1.part p
        s1.setPart p { u with tasks := u.tasks ++ [{ stack := st, counter := n, task := task, pkt := k }] }

/-- A counter that is armed with a count of 0 issues its task (12 R314). -/
def State.issueTask (s : State) (p n : Nat) : State :=
  let c := s.counter p n
  if c.armed ∧ c.count = 0 then
    let s1 := s.setCounter p n { c with armed := false, issued := true, pend := c.pend ++ [c.task] }
    if c.pend = [] then s1.takeTask p n else s1
  else s

/-- An arming (12 R312). -/
def State.arm (s : State) (p n count : Nat) (task : Word) : State :=
  let c := s.counter p n
  if c.armed || c.frozen then s.refuse p n 0
  else (s.setCounter p n { c with task := task, count := count, armed := true, issued := false }).issueTask p n

/-- A decrement (12 R313): a frozen counter accepts none (12 R311). -/
def State.decrement (s : State) (p n : Nat) : State :=
  let c := s.counter p n
  if !c.armed || c.frozen then s.refuse p n 0
  else (s.setCounter p n { c with count := c.count - 1 }).issueTask p n

/-- A DONE target taken (09 R261, 10 R264). -/
def State.takeDone (s : State) (p : Nat) (d : Half) : State :=
  if d.getLsbD 31 then s.decrement p (d.extractLsb' 0 12).toNat else s

/-! ### TARM and TDEC (12 R312, R313) -/

/-- TARM (12 R312); a misaligned TASK is recorded with TINFOL 1, as of a slot that executes once for the row (log 32). -/
def execTarm (a b : Src) (s : State) : Host.Outcome State Fault Refusal :=
  s.ctl false [a, b] [] fun sid t s1 => do
    let v := s.scalar t a
    let w := s.scalar t b 1
    trapIf (v.extractLsb' 12 4 != 0 || v >>> 40 != 0) { code := cILLEGAL_OP }
    trapIf (w &&& 63 != 0) { code := cMISALIGN_DATA, lanes := 1, addr := w }
    fenceWait (s.released sid t 4)
    return (s1.arm t.bind.part (v.extractLsb' 0 12).toNat (v.extractLsb' 16 24).toNat w).next sid

/-- TDEC (12 R313). -/
def execTdec (a : Src) (s : State) : Host.Outcome State Fault Refusal :=
  s.ctl false [a] [] fun sid t s1 => do
    let v := s.scalar t a
    trapIf (v >>> 12 != 0) { code := cILLEGAL_OP }
    return (s1.decrement t.bind.part (v.extractLsb' 0 12).toNat).next sid

/-! ### What the supervisor does with a counter -/

/-- FROZEN cleared by the supervisor (12 R311): the task is dropped unissued. -/
def State.clearFrozen (s : State) (p n : Nat) : State :=
  let c := s.counter p n
  if c.frozen then
    let pend := if c.atTask then c.pend.tail else c.pend
    (s.setCounter p n { c with frozen := false, atTask := false, pend := pend, hold := false, told := none }).takeTask p n
  else s

/-- COUNTER_FROZEN_CLEAR (12 R311). -/
def execCounterFrozenClear (p : Fin 8) (n : Fin 4096) (s : State) : Host.Outcome State Fault Refusal :=
  .next (s.byPort (fun s => s.clearFrozen p n))

/-- The acceptance of the packet at the head of a stalled launch queue, made again with every check (10 R394). -/
def State.retryLaunch (s : State) (p : Nat) (q : Queue) : State :=
  let s := s.metQueue q
  match s.offer q.unstall with
  | .packet k =>
    let s1 := s.metBridle p k
    match s1.accept p k (some q.hdr) 0 with
    | .fault va => s1.stallQueue p q va
    | .wait => s1
    | v => ((s1.elideSlot q).setQueue p q.unstall).accepted p q.unstall v
  | .code c => (s.setQueue p q.unstall).halt p q.unstall c
  | _ => s

/-- BRIDLE_FAULT_RESUME (10 R394; 12 R314): acceptances and issues that waited for a page which is present now are made
with every check; the first launch queue in order, and the counters. A page that the retry finds absent is reported. -/
def execBridleFaultResume (p : Fin 8) (s : State) : Host.Outcome State Fault Refusal :=
  let s1 := (s.part p).counters.foldl (fun (s : State) (e : Nat × Counter) => s.takeTask p e.1) s
  match (s1.part p).queues.find? (fun q => q.sort == 0 && q.stalled) with
  | none => .next s1
  | some q => .next (s1.retryLaunch p q)

end Sys2Proof.Machine
end

