-- ==== Sys2Proof/Machine/Place.lean ====
section
/-! DEFINITION. The work distributor: placing rigs, strings and spawned rows (10 R272 to R276), what a row holds at its
start (10 R273, R274), bridle writes (10 R271, R394), releasing seats and finishing launches (10 R279, R280). -/
namespace Sys2Proof.Machine

/-! ### Writes of a bridle table (10 R271, R394) -/

/-- Writes at offsets from a virtual address, through the partition's translation: each an offset, bytes and a value. -/
def State.vputs (s : State) (p : Nat) (va : Word) (ws : List (Nat × Nat × Nat)) : State :=
  s.puts none (ws.filterMap (fun (w : Nat × Nat × Nat) =>
    match s.xlate p (s.walker p) (va + BitVec.ofNat 64 w.1) .write with
    | .mem pa _ => some (pa, w.2.1, w.2.2)
    | _ => none))

/-- The pages that writes to a launch's table meet, and no other; none to check where it has no table (10 R394). -/
def State.bridleGate (s : State) (l : Launch) (ws : List (Nat × Nat × Nat)) : Verdict Unit :=
  if l.bridle = 0 then .ok ()
  else worst (ws.map (fun (w : Nat × Nat × Nat) => s.checkPages l.part (l.bridle + BitVec.ofNat 64 w.1) w.2.1 .write))

/-- The errors that the walks of these writes meet (14 R362). -/
def State.metWrites (s : State) (l : Launch) (ws : List (Nat × Nat × Nat)) : State :=
  if l.bridle = 0 then s
  else s.metWalks l.part (ws.map (fun (w : Nat × Nat × Nat) => l.bridle + BitVec.ofNat 64 w.1))

/-- A launch of a partition put back into its place. -/
def State.updLaunch (s : State) (l : Launch) : State := s.setLaunch (launchKey l.part l.lid) (some l)

/-- A bridle write that cannot be made: the step waits, for a page that is reported once, or frozen by a violation, whose
record names the slot of the launch's packet, and whose RIDX stays past it (10 R394, 13 R332; log 50). -/
def State.bridleStop (s : State) (l : Launch) (v : Verdict Unit) : State :=
  match v with
  | .fault va =>
    (s.updLaunch { l with bstall := some va }).tell l.part (s.walker l.part) l.bstall (l.queue.getD 0)
      (if l.queue.isSome then l.slot else l.counter) va
  | .vio c cs va =>
    let s1 := s.updLaunch { l with bfrozen := true }
    match l.queue.bind (s.queue l.part) with
    | some q => s1.freezeQueue l.part q l.slot c cs va
    | none => s1.freezeCounter l.part l.counter c cs va
  | _ => s

/-- The header of a table (10 R270). -/
def Launch.header (l : Launch) (rig : List Nat) (state : Nat) : List (Nat × Nat × Nat) :=
  [(0, 8, l.lid.toNat), (8, 4, l.nstr), (0x0C, 2, l.slen), (0x0E, 1, l.rigw), (0x0F, 1, l.righ)] ++
  (List.range 12).map (fun n => (0x10 + n, 1, if n < rig.length then 0x40 + rig.getD n 0 else 0)) ++
  [(0x1C, 4, state)] ++ (List.range 4).map (fun i => (0x20 + 8 * i, 8, 0))

/-! ### A row's start (10 R273, R274) -/

/-- Bits 0 to n - 1 set. -/
def lowMask (n : Nat) : Word := BitVec.ofNat 64 (2 ^ n - 1)

/-- The seat of a row as it begins: `role` of its core, its string and string row, its place, its core's clock. -/
def Launch.start (l : Launch) (u : Part) (string srow role ablk clk : Nat) : Seat :=
  { Seat.blank with
    status := .ready
    bind := { part := l.part, lid := l.lid, string := string, srow := srow, slen := l.slen, role := role, ports := l.ports }
    pc := l.entry
    s := tab 31 (fun i => match i with
      | 0 => l.arg
      | 1 => BitVec.ofNat 64 srow
      | 2 => BitVec.ofNat 64 string
      | 3 => BitVec.ofNat 64 role
      | 4 => l.lid
      | _ => 0)
    ablk := ablk
    nblk := l.acc
    m := tab 8 (fun i => if i = 0 then lowMask l.lanes else 0)
    stack := [{ kind := .base, mask := lowMask l.lanes }]
    mode := BitVec.ofNat 16 (9 + ablk * 2 ^ 12)
    tvec := u.tvecdef
    stamp := clk
    startClk := if srow = 0 ∨ l.skew = 0 then some 0 else none }

/-- A physical row whose port seat a string takes: its ports empty and linked, its matrix queue as it is. -/
def RowUnit.link (r : RowUnit) : RowUnit := { RowUnit.empty with mat := r.mat, nextItem := r.nextItem }

/-- A string's rows put into their seats, the line caches of their cores invalidated (08 R220). -/
def State.placeString (s : State) (l : Launch) (rig : List Nat) (j : Nat) (x : Place) : State :=
  (List.range l.slen).foldl (fun s k =>
    let row := (stringRows x.core x.head l.slen).getD k 0
    let core := row / 64
    let t := l.start (s.part l.part) j k (rig.findIdx (· == core)) x.ablk (s.core core).clkc
    let s1 := (s.setSeat (row * 4 + x.seat) t).flushLines core
    if l.ports then s1.setRow row (s1.row row).link else s1) s

/-! ### Placement (10 R272) -/

/-- The bytes of scratchpad reserved on a core: a launch's go with its completion, and with a reset of the core's die
(10 R272, R280; 14 R365). -/
def State.reserved (s : State) (core : Nat) : Nat :=
  s.launches.foldl (fun n (e : Nat × Option Launch) => match e.2 with
    | some l => if l.placed && l.closing == 0 && l.roles.contains core && !l.lost.getLsbD (core / 8) then n + l.spad else n
    | none => n) 0

/-- The rectangle has the launch's scratchpad free on every core. -/
def State.spadRoom (s : State) (l : Launch) (rig : List Nat) : Bool :=
  rig.all (fun c => decide (s.reserved c + l.spad ≤ 0xC00000))

/-- Strings still to be placed. -/
def Launch.waiting (l : Launch) : Bool := !l.killed && l.closing == 0 && decide (l.nextString < l.nstr)

/-- The earliest launch of a partition with a rig or string not yet placed. -/
def State.firstWaiting (s : State) (p : Nat) : Option Launch :=
  s.launches.foldl (fun m (e : Nat × Option Launch) => match e.2 with
    | some l =>
      if l.part = p ∧ l.waiting then
        match m with
        | some (k : Launch) => if l.order < k.order then some l else some k
        | none => some l
      else m
    | none => m) none

/-- The places that the table names for strings `j` to `j + n - 1`, if all are free (10 R271). -/
def Launch.pinnedPlaces (l : Launch) (occ : List Taken) (j n : Nat) : Option (List Place) :=
  let xs := ((l.pinned.drop j).take n).map entryPlace
  if xs.all (fun x => (stringRows x.core x.head l.slen).all (fun k =>
    seatFree occ (k * 4 + x.seat) && blockFree occ k x.ablk l.acc)) then some xs else none

/-- The rig and the places of a launch's next step: its rig with the first step's strings, or its next string. -/
def State.nextPlaces (s : State) (l : Launch) : Option (List Nat × List Place) :=
  let occ := s.taken
  let n := if l.placed ∨ l.cls ≠ 2 then 1 else l.nstr
  let fit (rig : List Nat) : Option (List Place) :=
    if l.pin then l.pinnedPlaces occ l.nextString n else s.fitAll rig l.slen l.acc l.seats n l.nextString occ
  if l.placed then (fit l.roles).map (fun xs => (l.roles, xs))
  else
    (if l.pin then [l.roles] else s.rigs l.part l.rigw l.righ l.onedie).findSome? (fun rig =>
      if s.spadRoom l rig then (fit rig).map (fun xs => (rig, xs)) else none)

/-- The writes of a placement step to the table (10 R271). -/
def Launch.placeWrites (l : Launch) (rig : List Nat) (xs : List Place) : List (Nat × Nat × Nat) :=
  if l.bridle = 0 then []
  else if l.pin then (if l.placed then [] else [(0x1C, 4, 1)])
  else (if l.placed then [] else l.header rig 1) ++
    (xs.zipIdx).map (fun (x : Place × Nat) => (0x40 + 4 * (l.nextString + x.2), 4, x.1.entry.toNat))

/-- Some of the places, of strings of a length, stand on a die that is fenced: the step that takes them waits (14 R365; log
90). -/
def State.placesFenced (s : State) (xs : List Place) (len : Nat) : Bool :=
  xs.any (fun x => (stringRows x.core x.head len).any (fun k => s.fenced.getLsbD (k / 512)))

/-- LAUNCH_PLACE (10 R272): the next step of the earliest launch that waits, its table written before its rows can
issue; another follows it at once, until a step finds no room. -/
def execLaunchPlace (p : Fin 8) (s : State) : Host.Outcome State Fault Refusal :=
  match s.firstWaiting p with
  | none => .next s
  | some l =>
    if l.bfrozen then .next s
    else
      match s.nextPlaces l with
      | none => .next s
      | some (rig, xs) =>
        if s.placesFenced xs l.slen then .next s
        else
        let ws := l.placeWrites rig xs
        let s := s.metWrites l ws
        match s.bridleGate l ws with
        | .ok () =>
          let s1 := (xs.zipIdx).foldl (fun s (x : Place × Nat) => s.placeString l rig (l.nextString + x.2) x.1)
            (s.vputs p l.bridle ws)
          let s2 := s1.updLaunch { l with placed := true, roles := rig, nextString := l.nextString + xs.length, bstall := none }
          .next { s2 with agenda := .event (.launchPlace p) :: s2.agenda }
        | v => .next (s.bridleStop l v)

/-! ### Spawned rows (10 R275, R276) -/

/-- SPAWN_BIN_TIMER (10 R275): the pairs held become a pending row; they wait where one waits already. -/
def execSpawnBinTimer (core : Fin 64) (bin : Fin 16) (s : State) : Host.Outcome State Fault Refusal :=
  let x := s.bin core bin
  if x.args = [] ∨ s.time.toNat < x.fire then .next s
  else
    match x.flush with
    | some y => .next (s.setBin core bin y)
    | none => .next s

/-- The place of a pending row on its core (10 R276, 01 R28). -/
def State.fitPending (s : State) (core acc : Nat) : Option Place :=
  let occ := s.taken
  (List.range 64).findSome? (fun r =>
    let k := core * 64 + r
    if !s.rowUsable k then none
    else
      match s.findSeat occ [k] 0b1110, findBlock occ [k] acc with
      | some q, some b => some { core := core, head := r, seat := q, ablk := b }
      | _, _ => none)

/-- The whole launch is being pre-empted or stands pre-empted, so that its pending rows stay in their bins (14 R354). -/
def Part.heldWhole (u : Part) (lid : Word) : Bool :=
  u.saved.any (fun x => x.lid == lid && x.str == 0xFFFFFFFF#32) ||
    (u.pre.map (fun x => x.lid == lid && x.str == 0xFFFFFFFF#32)).getD false

/-- PENDING_ROW_PLACE (10 R276; 14 R354): an acquire at CORE scope (12 R317; 08 R211). -/
def execPendingRowPlace (core : Fin 64) (bin : Fin 16) (s : State) : Host.Outcome State Fault Refusal :=
  let x := s.bin core bin
  match x.pending with
  | none => .next s
  | some (key, entry, args) =>
    match Sparse.get none s.launches key with
    | none => .next s
    | some l =>
      if (s.part l.part).heldWhole l.lid then .next s
      else
      match s.fitPending core l.acc with
      | none => .next s
      | some y =>
        if s.placesFenced [y] 1 then .next s
        else
        let u := s.core core
        let serial := Sparse.get 0 u.serial key
        let t := { l with ports := false, slen := 1, lanes := args.length, entry := entry }.start (s.part l.part) serial 0
          (l.roles.findIdx (· == core.val)) y.ablk u.clkc
        let t := { t with
          bind := { t.bind with spawned := true }
          gwct := u.gwct
          x := tab 31 (fun n => if n = 0 then tab 64 (fun i => args.getD i 0) else vrep 64 0) }
        let s1 := s.setCore core { u with serial := Sparse.set 0 u.serial key ((serial + 1) % 2 ^ 32) }
        .next (((s1.setBin core bin { x with pending := none }).setSeat ((core * 64 + y.head) * 4 + y.seat) t).flushLines core)

/-! ### Retirement (10 R279, R280) -/

/-- No row of the launch is resident, and no pending row or bin of it holds anything. -/
def State.rowsGone (s : State) (key : Nat) : Bool :=
  !s.seats.any (fun (e : Nat × Seat) => e.2.resident && launchKey e.2.bind.part e.2.bind.lid == key) &&
  (List.range 64).all (fun c => (List.range 16).all (fun b =>
    let x := s.bin c b
    (x.args.isEmpty || x.launch != key) && !((x.pending.map (fun (q : Nat × Word × List Word) => q.1 == key)).getD false)))

/-- A launch's record ends, and its spawn serial numbers with it (10 R276, R280). -/
def State.dropLaunch (s : State) (key : Nat) : State :=
  ((List.range 64).foldl (fun (s : State) c =>
    let u := s.core c
    s.setCore c { u with serial := Sparse.set 0 u.serial key 0 }) s).setLaunch key none

/-- The write of STATE that ends a launch, then the end of its record (10 R280, 13 R334). -/
def State.lastStep (s : State) (key : Nat) : State :=
  match Sparse.get none s.launches key with
  | none => s
  | some l =>
    if l.closing = 0 ∨ l.bfrozen then s
    else
      let s := s.metWrites l [(0x1C, 4, l.closing)]
      match s.bridleGate l [(0x1C, 4, l.closing)] with
      | .ok () => (if l.bridle = 0 then s else s.vputs l.part l.bridle [(0x1C, 4, l.closing)]).dropLaunch key
      | v => s.bridleStop l v

/-- A launch whose rows are gone completes: as KILLED where it has been ended, else with its targets taken in the order
of 10 R280, once the queue's header can be written (07 R197). -/
def State.finish (s : State) (key : Nat) : State :=
  match Sparse.get none s.launches key with
  | none => s
  | some l =>
    if l.closing ≠ 0 then s.lastStep key
    else if !s.rowsGone key then s
    else if l.killed then (s.updLaunch { l with closing := 4 + l.placed.toNat }).lastStep key
    else if l.waiting ∨ (s.part l.part).saved.any (fun x => x.lid == l.lid) then s
    else
      let q := l.queue.bind (s.queue l.part)
      if (q.map s.hdrHeld).getD false then s
      else
        let s1 := (s.updLaunch { l with closing := 3 }).takeDone l.part l.done
        let s2 := match q with
          | some q => s1.stepDone q
          | none => s1
        s2.lastStep key

/-- A seat's resources are free again: its matrix work's windows are gone, and its neighbours' ports know of it. -/
def State.freeSeat (s : State) (sid : Nat) : State :=
  let t := s.seat sid
  let k := sid / 4
  let r := s.row k
  let s1 := (s.setSeat sid Seat.blank).setRow k { r with mat := r.mat.filter (fun i => i.seat != sidSeat sid) }
  if !t.bind.ports then s1
  else
    let s2 := if t.isTail || r.consGone then s1
      else let b := s1.row (rowBelow k); s1.setRow (rowBelow k) { b with prodGone := true }
    let s3 := if t.isHead || r.prodGone then s2
      else let u := s2.row (rowAbove k); s2.setRow (rowAbove k) { u with consGone := true }
    s3.setRow k (s3.row k).link

/-- What holds an exited row's seat (10 R279) is gone. -/
def State.drained (s : State) (sid : Nat) : Bool :=
  let t := s.seat sid
  !s.matBusy sid && s.allDone sid t && s.past t.gwct &&
    (!t.bind.ports || (s.row (sid / 4)).south.isEmpty)

/-- SEAT_RELEASE (10 R279, R280). -/
def execSeatRelease (sid : Fin 16384) (s : State) : Host.Outcome State Fault Refusal :=
  let t := s.seat sid
  if t.status = .exited ∧ s.drained sid then
    .next ((s.freeSeat sid).finish (launchKey t.bind.part t.bind.lid))
  else .next s

end Sys2Proof.Machine
end

