-- ==== Sys2Proof/Machine/Copy.lean ====
section
/-! DEFINITION. Copy engines (09 R257 to R260, R263; 08 R223 to R226): acceptance, COPY, FILL and GATHER row by row,
FEED entry by entry, and the two targets. -/
namespace Sys2Proof.Machine

/-! ### Engines and codes (09 R254, R257, R259, R263) -/

/-- The physical core of a core copy engine; none for a keel engine. -/
def Queue.core (q : Queue) : Option Nat := if q.engine.getLsbD 7 then none else some (q.engine.extractLsb' 0 6).toNat

/-- ENGINE names a copy engine of the partition. -/
def State.engineOk (s : State) (p : Nat) (q : Queue) : Bool :=
  match q.core with
  | some c => s.owns p c && s.usable c
  | none => (s.part p).keel.getLsbD (q.engine.extractLsb' 0 4).toNat

/-- The kinds of copy packet. -/
def kCOPY : Nat := 1
def kFEED : Nat := 2
def kFILL : Nat := 3
def kGATHER : Nat := 4

/-- A target's kind, and whether it breaks 09 R257: a bit beside its fields, or the unassigned kind 3, which counts as a
reserved value of the field (log 88). -/
def targetKind (t : Word) : Nat := (t.extractLsb' 62 2).toNat
def targetBad (t : Word) : Bool :=
  match targetKind t with
  | 0 => t != 0
  | 1 => t.extractLsb' 32 30 != 0
  | 2 => t.extractLsb' 12 50 != 0
  | _ => true

/-- The targets of a packet. -/
def pktTargets (k : Vector Word 8) : List Word := [pktWord k 0x28, pktWord k 0x30]

/-- A scratchpad address of a packet is in the local form (09 R257). -/
def localForm (a : Word) : Bool := a >>> 30 == 2

/-- The head that a FEED names on its engine's core: the physical row's key (09 R263: of a running launch). -/
def State.feedHead (s : State) (p core : Nat) (k : Vector Word 8) : Option Nat :=
  let d := pktWord k 0x10
  (s.seats.find? (fun (e : Nat × Seat) =>
    e.2.resident && !decide (e.2.status = .exited) && e.2.bind.ports && e.2.isHead && sidCore e.1 == core &&
    launchKey e.2.bind.part e.2.bind.lid == launchKey p (d >>> 32) && e.2.bind.string == (d.setWidth 32).toNat)).map
      (fun e => e.1 / 4)

/-- The packet's scratchpad addresses: its source, its destination, its barrier targets. -/
def pktSpads (k : Vector Word 8) : List Word :=
  (if pktSsp k then [pktWord k 8] else []) ++ (if pktDsp k then [pktWord k 0x10] else []) ++
  ((pktTargets k).filter (fun t => targetKind t == 1)).map (fun t => t.setWidth 32 |>.setWidth 64)

/-- The combination is none that the engine accepts (09 R259). -/
def comboBad (q : Queue) (k : Vector Word 8) : Bool :=
  let kind := pktKind k
  let peer (sp : Bool) (a : Word) : Bool := !sp && a.getLsbD 63
  match q.core with
  | none => kind == kFEED || !(pktSpads k).isEmpty
  | some _ =>
    ((kind == kCOPY || kind == kGATHER) && !pktSsp k && !pktDsp k) || (pktSpads k).any (fun a => !localForm a) ||
    (kind != kFILL && peer (pktSsp k) (pktWord k 8)) || (kind != kFEED && peer (pktDsp k) (pktWord k 0x10)) ||
    (kind == kGATHER && (pktWord k 0x38).getLsbD 63)

/-- The codes of 09 R263 that a copy packet fails. -/
def State.copyCodes (s : State) (p : Nat) (q : Queue) (k : Vector Word 8) : List Nat :=
  let kind := pktKind k
  let ts := pktTargets k
  [(0x01, kind == 0 || decide (4 < kind)),
   (0x02, decide (4 ≤ pktField k 1 1) || (kind == kFILL && pktSsp k) || (kind == kFEED && pktDsp k) ||
      decide (8 ≤ pktField k 2 1) || pktField k 3 1 != 0 || pktField k 0x24 4 != 0 ||
      (kind != kGATHER && pktWord k 0x38 != 0) || ts.any targetBad),
   (0x03, pktLen k % 8 != 0 || (kind == kGATHER && pktWord k 0x38 &&& 3 != 0) ||
      ts.any (fun t => targetKind t == 1 && t &&& 31 != 0)),
   (0x04, comboBad q k),
   (0x05, pktLen k == 0 || pktRows k == 0 || decide (2 ^ 32 ≤ pktLen k * pktRows k) || decide (6 ≤ pktField k 2 1 % 8) ||
      (kind == kFEED && decide (512 < pktLen k))),
   (0x06, kind == kFEED && ((q.core).bind (fun c => s.feedHead p c k)).isNone),
   (0x08, !s.engineOk p q)].filterMap (fun (c : Nat × Bool) => if c.2 then some c.1 else none)

/-! ### Rows (09 R258) -/

/-- An engine's scratchpad address decoded: no launch gives it roles, and it has no handler level (09 R257). -/
def State.engineDecode (s : State) (core : Nat) (a : Int) : Except Nat Nat :=
  s.spadDecode core { Seat.blank with bind := { part := 8 } } a

/-- The destination of row `r`, as an exact sum. -/
def pktDst (k : Vector Word 8) (r : Nat) : Int := ((pktWord k 0x10).toNat : Int) + r * pktInt k 0x20
/-- The source of row `r`; a GATHER's index is `idx`. -/
def pktSrc (k : Vector Word 8) (r idx : Nat) : Int :=
  ((pktWord k 8).toNat : Int) + (if pktKind k = kGATHER then idx else r) * pktInt k 0x1C

/-- Two ranges of addresses meet. -/
def spanMeets (a : Int) (n : Nat) (b : Int) (m : Nat) : Bool := decide (a < b + m) && decide (b < a + n)

/-- Some row of a packet from `r` on writes a byte of the unit of `u` bytes at `c`. -/
def rowsMeet (k : Vector Word 8) (r : Nat) (c : Int) (u : Nat) : Bool :=
  (List.range (pktRows k - r)).any (fun i => spanMeets (pktDst k (r + i)) (pktLen k) c u)

/-- The packet's rows together write every byte of the unit. -/
def rowsCover (k : Vector Word 8) (c : Int) (u : Nat) : Bool :=
  (List.range u).all (fun i => rowsMeet k 0 (c + i) 1)

/-- Where the bytes of a row's side are: scratchpad from a key, memory in pieces, each with whether its page is uncached,
or a peer from an address. -/
inductive Side where
  | spad (key : Nat)
  | mem (ps : List (Nat × Nat × Bool))
  | peer (va : Word)
  deriving DecidableEq, Repr

/-- Bytes at a peer. -/
def Side.isPeer : Side → Bool
  | .peer _ => true
  | _ => false

/-- The outcome of a check carried over to another answer. -/
def Verdict.map {α β : Type} (f : α → β) : Verdict α → Verdict β
  | .ok a => .ok (f a)
  | .code c => .code c
  | .fault va => .fault va
  | .vio c cs va => .vio c cs va
  | .wait => .wait

/-- The verdicts on two sides: a violation of either decides, then a fenced die, then a page not present (13 R330). -/
def Verdict.both {α β : Type} : Verdict α → Verdict β → Verdict (α × β)
  | .ok a, .ok b => .ok (a, b)
  | .vio c cs a, .vio _ ds _ => .vio c (cs ||| ds) a
  | .vio c cs a, _ => .vio c cs a
  | _, .vio c cs a => .vio c cs a
  | .code c, _ => .code c
  | _, .code c => .code c
  | .fault a, _ => .fault a
  | _, .fault a => .fault a
  | _, _ => .wait

/-- The dies whose memory a side reaches. -/
def Side.dies : Side → List Nat
  | .spad k => [k / 2 ^ 24 / 8]
  | .mem ps => ps.map (fun (x : Nat × Nat × Bool) => stackDie (paStack x.1))
  | .peer _ => []

/-- The dies that an engine finds fenced: a packet that an engine has accepted is performed on its own die until that die is
cut, since the engine accepts none after the fence (14 R365, steps 1 and 2). -/
def State.fencedFor (s : State) (core : Option Nat) : BitVec 8 :=
  match core with
  | some c => if (s.die (c / 8)).resetDone then s.fenced else s.fenced &&& ~~~(1#8 <<< (c / 8))
  | none => s.fenced

/-- One side of a row, checked (09 R260): a fenced die halts the queue (14 R365); an absent source line, a stack whose hash
is being changed, and a peer with no link UP are waited for. -/
def State.side (s : State) (p d : Nat) (core : Option Nat) (sp : Bool) (a : Int) (n : Nat) (k : AccKind) : Verdict Side :=
  let va : Word := BitVec.ofInt 64 a
  let found : Verdict Side :=
    match sp, core with
    | true, some c =>
      match s.engineDecode c a with
      | .error e => .vio e (codeBit e) va
      | .ok key =>
        if 0xC00000 < key % 2 ^ 24 + n then .vio vSPAD_HOLE (codeBit vSPAD_HOLE) (va + BitVec.ofNat 64 (0xC00000 - key % 2 ^ 24))
        else if k = .read ∧ (linesOf key n).any s.isAbsent then .wait
        else .ok (.spad key)
    | _, _ =>
      if va.getLsbD 63 && core.isNone then
        match s.xlate p d va k with
        | .vio c => .vio c (codeBit c) va
        | .peer => if (s.peerLink p va).isSome then .ok (.peer va) else .wait
        | _ => .wait
      else
        (s.checkRange p d va n k (s.fencedFor core)).map (fun _ =>
          .mem ((pagesOf va.toNat n).filterMap (fun b => match s.xlate p d (BitVec.ofNat 64 b) k with
            | .mem pa nc => some (pa, min (4096 * (b / 4096 + 1)) (va.toNat + n) - b, nc)
            | _ => none)))
  match found with
  | .ok x => if (x.dies).any (fun d => (s.fencedFor core).getLsbD d) then .code 0x0C else .ok x
  | v => v

/-- The addresses of a side's bytes. -/
def Side.bytes (n : Nat) : Side → List Nat
  | .spad k => (List.range n).map (fun i => k + i)
  | .mem ps => ps.flatMap (fun (x : Nat × Nat × Bool) => (List.range x.2.1).map (fun i => x.1 + i))
  | .peer _ => []

/-- The answers that peers give to `n` granules; none where too few stand, or one says RETRY. -/
def takeGranules (n : Nat) (rs : List PeerReply) : Option (List PeerReply × List PeerReply) :=
  if rs.length < n ∨ (rs.take n).contains .retry then none else some (rs.take n, rs.drop n)

/-- What peers' answers to the accesses of a row come to, each with its address; a violation decides (13 R330). -/
def peerVerdict (rs : List (Word × PeerReply)) : Verdict Unit :=
  worst (rs.map (fun (x : Word × PeerReply) => match x.2 with
    | .violation c => .vio c (codeBit c) x.1
    | .refused => .vio vPARTITION_BOUND (codeBit vPARTITION_BOUND) x.1
    | .fenced _ => .code 0x0C
    | .pageFault => .fault x.1
    | _ => .ok ()))

/-- The bytes that a peer's answer to a load of `n` bytes gives, each with whether it is poisoned. -/
def replyBytes (n : Nat) : PeerReply → List (Byte × Bool)
  | .data v => (List.range n).map (fun i => (BitVec.ofNat 8 (v.toNat / 2 ^ (8 * i)), false))
  | _ => List.replicate n (0, true)

/-- A row's source bytes, each with whether it is poisoned; uncorrectable sectors are met first (14 R362). -/
def State.sideRead (s : State) (n : Nat) (rs : List PeerReply) : Side → State × List (Byte × Bool)
  | .spad k => (s, (List.range n).map (fun i => (s.spad.byte (k + i), s.isPois ((k + i) / 128))))
  | .mem ps =>
    let as := (Side.mem ps).bytes n
    let s1 := as.foldl (fun (s : State) a => if s.secUE a then s.meetUE a else s) s
    (s1.elide (as.map paSector), as.map (fun a => (s1.hbyte a, s1.secPois a)))
  | .peer _ => (s, rs.flatMap (replyBytes (min n 8)))

/-- The granules of a side that lie at a peer, by their addresses. -/
def Side.granules (n : Nat) : Side → List Word
  | .peer va => (List.range (n / 8)).map (fun i => va + BitVec.ofNat 64 (8 * i))
  | _ => []

/-- The granules of a row's bytes, as the words that a peer is asked to store, each with whether it is poisoned (07
R199). -/
def granuleOps (bs : List (Byte × Bool)) (i : Nat) : Option PeerOp :=
  some (.store 3 (BitVec.ofNat 64 ((List.range 8).foldr (fun j v => (bs.getD (8 * i + j) (0, false)).1.toNat + 256 * v) 0))
    ((List.range 8).any (fun j => (bs.getD (8 * i + j) (0, false)).2)))

/-- The frames of accesses to peers, with their answers (13 R337). -/
def State.sent (s : State) (p : Nat) (op : Nat → Option PeerOp) (xs : List (Word × PeerReply)) (f : PeerReply → Bool) :
    List SpanFrame :=
  s.frames p op (xs.map (fun (x : Word × PeerReply) => (0, x.1, .peer, x.2))) f

/-! ### A row written -/

/-- The packets that a pre-emption has aborted and that have still to be issued again (14 R357). -/
def State.aborted (s : State) : List Packet :=
  (List.range 8).flatMap (fun p =>
    ((s.part p).pre.map (fun x => x.pkts)).getD [] ++ (s.part p).saved.flatMap (fun x => x.pkts))

/-- The packet writes the last byte of the line at `c` in row `r`, and no other packet, accepted or aborted, has still to
write it (07 R185, 14 R357). -/
def State.lineDone (s : State) (n : Nat) (k : Packet) (r : Nat) (c : Int) : Bool :=
  let owes (o : Packet) : Bool := o.core == k.core && pktKind o.pkt != kFEED && pktDsp o.pkt && rowsMeet o.pkt o.row c 128
  !rowsMeet k.pkt (r + 1) c 128 && !s.aborted.any owes &&
  !s.packets.any (fun (e : Nat × Option Packet) => e.1 != n && (e.2.map owes).getD false)

/-- A row's bytes written to its destination, with poison (07 R187, R199), presence (07 R185) and the leases that LANDED
waits for, of every sector written by whichever page (08 R223); then the packet is one row further. A peer has performed its stores where it answered. -/
def State.rowWrite (s : State) (n : Nat) (k : Packet) (dst : Side) (bs : List (Byte × Bool)) : State :=
  let len := pktLen k.pkt
  let as := dst.bytes len
  let d := pktDst k.pkt k.row
  let u : Nat := if pktDsp k.pkt then 128 else 32
  let unit (i : Nat) : Int := (d + i) / (u : Int) * (u : Int)
  let ws := (as.zip bs).map (fun (x : Nat × Byte × Bool) => (x.1, 1, x.2.1.toNat))
  let fed := (List.range len).filter (fun i => (bs.getD i (0, false)).2)
  let pois := (k.pois ++ fed.map unit).eraseDups
  let firsts := (List.range len).filter (fun i => i == 0 || unit i != unit (i - 1))
  let clear := firsts.filter (fun i => !rowsMeet k.pkt (k.row + 1) (unit i) u && !pois.contains (unit i) &&
    rowsCover k.pkt (unit i) u)
  let k' := { k with row := k.row + 1, pois := pois, gidx := none }
  match dst with
  | .spad _ =>
    let s1 := s.spadStore ws
    let s2 := fed.foldl (fun (s : State) i => s.setPois (as.getD i 0 / 128) true) s1
    let s3 := clear.foldl (fun (s : State) i => s.setPois (as.getD i 0 / 128) false) s2
    let s4 := (firsts.filter (fun i => s.lineDone n k k.row (unit i))).foldl
      (fun (s : State) i => s.setAbsent (as.getD i 0 / 128) false) s3
    s4.setPacket n (some k')
  | .mem _ =>
    let s1 := s.puts none ws
    let s2 := fed.foldl (fun (s : State) i => s.setSecPois (as.getD i 0) true) s1
    let s3 := clear.foldl (fun (s : State) i => s.setSecPois (as.getD i 0) false) s2
    s3.setPacket n (some { k' with waitE := as.foldl (fun e a => max e (s.leaseOf a)) k.waitE })
  | .peer _ => s.setPacket n (some k')

/-- The die on which a packet's engine walks. -/
def State.packetDie (s : State) (k : Packet) : Nat :=
  match k.core with
  | some c => c / 8
  | none => s.walker k.part

/-- The index of a GATHER's row, where it has one: where it stands, checked. -/
def State.idxSide (s : State) (k : Packet) : Verdict (Option Side) :=
  if pktKind k.pkt ≠ kGATHER then .ok none
  else
    (s.side k.part (s.packetDie k) k.core false ((pktWord k.pkt 0x38).toNat + 4 * k.row : Nat) 4 .read).map some

/-- The number that an index's bytes give, and whether it is poisoned: then its row's bytes are (07 R187; log 87). -/
def idxOf (bs : List (Byte × Bool)) : Nat × Bool :=
  (bs.foldr (fun (b : Byte × Bool) v => b.1.toNat + 256 * v) 0, bs.any (fun b => b.2))

/-- The source of the next row, checked; none for a FILL. -/
def State.rowSrc (s : State) (k : Packet) (idx : Nat) : Verdict (Option Side) :=
  if pktKind k.pkt = kFILL then .ok none
  else (s.side k.part (s.packetDie k) k.core (pktSsp k.pkt) (pktSrc k.pkt k.row idx) (pktLen k.pkt) .read).map some

/-- The destination of the next row, checked. -/
def State.rowDst (s : State) (k : Packet) : Verdict Side :=
  s.side k.part (s.packetDie k) k.core (pktDsp k.pkt) (pktDst k.pkt k.row) (pktLen k.pkt) .write

/-- The walks of a row's addresses, as far as they are known, meet their errors (14 R362). -/
def State.metRow (s : State) (k : Packet) : State :=
  let pages (a : Int) (n : Nat) : List Word := (pagesOf (BitVec.ofInt 64 a).toNat n).map (BitVec.ofNat 64)
  let s1 := if pktKind k.pkt = kGATHER then s.metOn k.part (s.packetDie k) (pages ((pktWord k.pkt 0x38).toNat + 4 * k.row : Nat) 4)
    else s
  let idx := match s1.idxSide k with
    | .ok (some x) => ((k.gidx).getD (idxOf (s1.sideRead 4 [] x).2)).1
    | _ => 0
  let s2 := if pktKind k.pkt = kFILL ∨ pktSsp k.pkt then s1
    else s1.metOn k.part (s.packetDie k) (pages (pktSrc k.pkt k.row idx) (pktLen k.pkt))
  if pktKind k.pkt = kFEED ∨ pktDsp k.pkt then s2
  else s2.metOn k.part (s.packetDie k) (pages (pktDst k.pkt k.row) (pktLen k.pkt))

/-- A packet that cannot go on: frozen with RIDX at it, halted for a fenced die, stalled on a page, or waiting (09 R260; 13
R331). -/
def State.rowStop {α : Type} (s : State) (n : Nat) (k : Packet) (v : Verdict α) : State :=
  match s.queue k.part k.hdr with
  | none => s
  | some q =>
    match v with
    | .vio c cs a =>
      let s1 := (s.setPacket n (some { k with frozen := true })).backTo k.part q k.slot
      s1.freezeQueue k.part ((s1.queue k.part k.hdr).getD q) k.slot c cs a
    | .code c => (s.setPacket n (some { k with fault := true })).halt k.part q c
    | .fault a => (s.setPacket n (some { k with fault := true, told := some a })).tell k.part (s.packetDie k) k.told k.hdr k.slot a
    | _ => s.metRow k

/-- What a row puts at its destination, each byte with its poison, and the state with its source read: the fill's bytes, or
the source's, all poisoned where the row's index was. -/
def State.rowBytes (s : State) (k : Packet) (src : Option Side) (rs : List PeerReply) (bad : Bool) :
    State × List (Byte × Bool) :=
  let len := pktLen k.pkt
  match src with
  | none => (s, (List.range len).map (fun i => (BitVec.ofNat 8 (pktField k.pkt (8 + i % 8) 1), false)))
  | some x =>
    let r := s.sideRead len rs x
    (r.1, r.2.map (fun (b : Byte × Bool) => (b.1, b.2 || bad)))

/-- One row moved, given its index. -/
def State.moveRow (s : State) (n : Nat) (k : Packet) (idx : Nat × Bool) : State :=
  let len := pktLen k.pkt
  match (s.rowSrc k idx.1).both (s.rowDst k) with
  | .ok (src, dst) =>
    let gs := (src.map (Side.granules len)).getD []
    let gd := dst.granules len
    match takeGranules (gs.length + gd.length) s.peerReplies with
    | none => s
    | some (mine, rest) =>
      let xs := gs.zip (mine.take gs.length)
      let xd := gd.zip (mine.drop gs.length)
      let (s1, bs) := s.rowBytes k src (mine.take gs.length) idx.2
      let out (f : PeerReply → Bool) : List SpanFrame := s.sent k.part (loadOp 8) xs f ++ s.sent k.part (granuleOps bs) xd f
      match peerVerdict (xs ++ xd) with
      | .ok () => ({ s1 with peerReplies := rest, spanOut := s.spanOut ++ out (fun _ => true) }).rowWrite n k dst bs
      | v => ({ s with peerReplies := rest, spanOut := s.spanOut ++ out (fun r => !r.isData) }).rowStop n k v
  | v => s.rowStop n k v

/-- One row of a COPY, FILL or GATHER packet (09 R258, R260). A keel engine's index may stand at a peer (09 R259): its
answer is kept until its row has moved, so that a row that waits for its source asks for none twice (log 87). -/
def State.copyRow (s : State) (n : Nat) (k : Packet) : State :=
  match s.idxSide k with
  | .ok none => s.moveRow n k (0, false)
  | .ok (some (.peer va)) =>
    match k.gidx, takeGranules 1 s.peerReplies with
    | some x, _ => s.moveRow n k x
    | none, some ([r], rest) =>
      let s1 := { s with peerReplies := rest, spanOut := s.spanOut ++ s.sent k.part (loadOp 4) [(va, r)] (fun _ => true) }
      match peerVerdict [(va, r)] with
      | .ok () =>
        let k' := { k with gidx := some (idxOf (replyBytes 4 r)) }
        (s1.setPacket n (some k')).moveRow n k' (idxOf (replyBytes 4 r))
      | v => s1.rowStop n k (Verdict.both v (s.rowDst k))
    | _, _ => s
  | .ok (some x) =>
    let (s1, bs) := s.sideRead 4 [] x
    s1.moveRow n k (idxOf bs)
  | v => s.rowStop n k (v.both (s.rowDst k))

/-! ### Targets (08 R223; 09 R248, R249, R258) -/

/-- The packet's byte count. -/
def pktBytes (k : Vector Word 8) : Nat := pktLen k * pktRows k

/-- A target is taken: a counter decrements, a barrier takes the arrival; on a poisoned line no step is made and POIS is
set (09 R248). -/
def State.takeTarget (s : State) (k : Packet) (t : Word) : State :=
  match targetKind t, k.core with
  | 2, _ => s.decrement k.part (t.extractLsb' 0 12).toNat
  | 1, some c =>
    match s.engineDecode c (t.setWidth 32).toNat with
    | .error _ => s
    | .ok key =>
      if s.isPois (key / 128) then
        match s.queue k.part k.hdr with
        | some q => s.markPois q
        | none => s
      else s.setBar key ((s.bar key).arrive false (pktBytes k.pkt) s.time.toNat 0x80 (k.slot % 2 ^ 16))
  | _, _ => s

/-- A packet with both targets taken is complete: DONE is one further (09 R258, R260). -/
def State.packetEnd (s : State) (n : Nat) : State :=
  match s.packet n with
  | none => s
  | some k =>
    if k.released && k.landed then
      let s1 := s.setPacket n none
      match s1.queue k.part k.hdr with
      | none => s1
      | some q =>
        let s2 := s1.stepDone q
        if k.pois = [] then s2 else s2.markPois q
    else s

/-- Every source read of the packet has its value (08 R223). -/
def Packet.readAll (k : Packet) : Bool := pktKind k.pkt == kFILL || decide (pktRows k.pkt ≤ k.row)

/-- The header of a packet's queue cannot be written (07 R197). -/
def State.packetHeld (s : State) (k : Packet) : Bool := ((s.queue k.part k.hdr).map s.hdrHeld).getD false

/-- No row of a packet moves: its queue has frozen, or its header cannot be written (13 R331, 07 R197). -/
def State.rowsHeld (s : State) (k : Packet) : Bool :=
  s.packetHeld k || ((s.queue k.part k.hdr).map (fun q => q.frozen)).getD false

/-- RELEASE (08 R223): what its engine acquired with the packet happens before it (08 R211). -/
def execRelease (n : Nat) (s : State) : Host.Outcome State Fault Refusal :=
  match s.packet n with
  | none => .next s
  | some k =>
    if k.released || !k.readAll || s.packetHeld k || !s.past k.acq then .next s
    else .next (((s.setPacket n (some { k with released := true })).takeTarget k (pktWord k.pkt 0x28)).packetEnd n)

/-- The packet's last write has been performed and its leases have expired, or its last entry has been popped (08 R223,
09 R258). -/
def State.landable (s : State) (n : Nat) (k : Packet) : Bool :=
  decide (pktRows k.pkt ≤ k.row) && s.past (if k.waitE = 0 then none else some k.waitE) && s.past k.acq &&
  (match k.head with
  | some h => (s.row h).feed != some n || (s.row h).north.isEmpty
  | none => true)

/-- LANDED (08 R223); a FEED is no longer bound (06 R170). -/
def execLanded (n : Nat) (s : State) : Host.Outcome State Fault Refusal :=
  match s.packet n with
  | none => .next s
  | some k =>
    if k.landed || !s.landable n k || s.packetHeld k then .next s
    else
      let s1 := match k.head with
        | some h => if (s.row h).feed = some n then s.setRow h { s.row h with feed := none } else s
        | none => s
      .next (((s1.setPacket n (some { k with landed := true, head := none })).takeTarget k (pktWord k.pkt 0x30)).packetEnd n)

/-! ### Acceptance (09 R256, R260, R263; 07 R185) -/

/-- The barrier targets' addresses checked (09 R260). -/
def State.targetsCheck (s : State) (q : Queue) (k : Vector Word 8) : Verdict Unit :=
  match q.core with
  | none => .ok ()
  | some c =>
    worst (((pktTargets k).filter (fun t => targetKind t == 1)).map (fun t =>
      let a : Word := (t.setWidth 32).setWidth 64
      match s.engineDecode c a.toNat with
      | .error e => .vio e (codeBit e) a
      | .ok _ => .ok ()))

/-- The scratchpad lines that a packet's rows write. -/
def State.dstLines (s : State) (core : Nat) (k : Vector Word 8) : List Nat :=
  ((List.range (pktRows k)).flatMap (fun r => match s.engineDecode core (pktDst k r) with
    | .ok key => if key % 2 ^ 24 + pktLen k ≤ 0xC00000 then linesOf key (pktLen k) else []
    | .error _ => [])).eraseDups

/-- Who submitted the packet of a slot (14 R356). -/
def Queue.sub (q : Queue) (slot : Nat) : Option (Word × Option Nat) :=
  (q.subs.find? (fun (x : Nat × Word × Option Nat) => x.1 == slot)).map (fun x => x.2)

/-- A packet in the table of accepted ones: its destination lines cleared (07 R185), a FEED bound (06 R170). -/
def State.bring (s : State) (k : Packet) : State :=
  let n := s.nextPacket
  let kind := pktKind k.pkt
  let s1 := { s with nextPacket := n + 1 }
  let s2 := match k.core with
    | some c =>
      if kind ≠ kFEED ∧ pktDsp k.pkt then (s1.dstLines c k.pkt).foldl (fun (s : State) l => s.setAbsent l true) s1 else s1
    | none => s1
  match if kind = kFEED then k.core.bind (fun c => s.feedHead k.part c k.pkt) else none with
  | some h => (s2.setRow h { s2.row h with feed := some n }).setPacket n (some { k with head := some h })
  | none => s2.setPacket n (some k)

/-- The acceptance of the packet at the head of a copy queue, an acquire by its engine (08 R209): a FEED to a head that is
bound waits, and so does the engine of a fenced die (14 R365). -/
def State.acceptCopy (s : State) (p : Nat) (q : Queue) (k : Vector Word 8) : State :=
  let s' := s.elideSlot q
  match lowest (s.copyCodes p q k) with
  | some c => s'.halt p q c
  | none =>
    match s.targetsCheck q k with
    | .vio c cs a => s'.freezeQueue p q (s.ridx q) c cs a
    | _ =>
      let bound := pktKind k == kFEED && (match q.core.bind (fun c => s.feedHead p c k) with
        | some h => (s.row h).feed.isSome
        | none => false)
      let cut := match q.core with
        | some c => s.fenced.getLsbD (c / 8)
        | none => false
      if bound || cut then s
      else
        let slot := s.ridx q
        let s1 := (s'.stepRidx q).setQueue p { q with subs := q.subs.filter (fun (x : Nat × Word × Option Nat) => slot < x.1) }
        s1.bring { part := p, hdr := q.hdr, slot := slot, pkt := k, core := q.core, sub := q.sub slot
                   acq := q.core.bind (fun c => (s.core c).gwct) }

/-- The packet of a queue that moves rows: the first accepted one, not a FEED, with rows left. -/
def State.moving (s : State) (p : Nat) (hdr : Word) : Option (Nat × Packet) :=
  s.packets.findSome? (fun (e : Nat × Option Packet) => match e.2 with
    | some k =>
      if k.part = p ∧ k.hdr = hdr ∧ pktKind k.pkt ≠ kFEED ∧ k.row < pktRows k.pkt then some (e.1, k) else none
    | none => none)

/-- One step of a copy queue by a kind of packet: the next row of the packet that moves, or the acceptance of the one
offered. A packet of no kind is taken, and halts its queue, as a COPY. -/
def State.copyStep (s : State) (p : Nat) (hdr : Word) (kind : Nat) : State :=
  match s.queue p hdr with
  | none => s
  | some q =>
    if q.sort ≠ 1 then s
    else
      match s.moving p hdr with
      | some (n, k) => if pktKind k.pkt = kind ∧ !k.fault ∧ !k.frozen ∧ !s.rowsHeld k then s.copyRow n k else s
      | none =>
        let s := s.metQueue q
        match s.offer q with
        | .packet k =>
          if pktKind k = kind ∨ (kind = kCOPY ∧ (pktKind k = 0 ∨ 4 < pktKind k)) then s.acceptCopy p q k else s
        | .code c => if kind = kCOPY then s.halt p q c else s
        | _ => s

/-- COPY (09 R258). -/
def execCopy (p : Fin 8) (hdr : Word) (s : State) : Host.Outcome State Fault Refusal := .next (s.copyStep p hdr kCOPY)
/-- FEED (09 R258). -/
def execFeed (p : Fin 8) (hdr : Word) (s : State) : Host.Outcome State Fault Refusal := .next (s.copyStep p hdr kFEED)
/-- FILL (09 R258). -/
def execFill (p : Fin 8) (hdr : Word) (s : State) : Host.Outcome State Fault Refusal := .next (s.copyStep p hdr kFILL)
/-- GATHER (09 R258). -/
def execGather (p : Fin 8) (hdr : Word) (s : State) : Host.Outcome State Fault Refusal := .next (s.copyStep p hdr kGATHER)

/-- FEED_ENTRY_PUSH (06 R170; 09 R258): the next source row becomes an entry of the head's north port. -/
def execFeedEntryPush (h : Fin 4096) (s : State) : Host.Outcome State Fault Refusal :=
  let r := s.row h
  match r.feed.bind (fun n => (s.packet n).map (fun k => (n, k))) with
  | none => .next s
  | some (n, k) =>
    if k.fault || k.frozen || s.rowsHeld k || decide (pktRows k.pkt ≤ k.row) || decide (16 ≤ r.north.length) then .next s
    else
      match s.rowSrc k 0 with
      | .ok (some x) =>
        let (s1, bs) := s.sideRead (pktLen k.pkt) [] x
        let word (l : Nat) : Word :=
          BitVec.ofNat 64 ((List.range 8).foldr (fun i v => (bs.getD (8 * l + i) (0, false)).1.toNat + 256 * v) 0)
        let bad (l : Nat) : Bool := (List.range 8).any (fun i => (bs.getD (8 * l + i) (0, false)).2)
        let e : PortEntry :=
          { v := tab 64 word, act := BitVec.allOnes 64, pois := laneMask ((List.range 64).filter bad)
            ready := (s.core (h / 64)).clkc + 1 }
        .next ((s1.setRow h { r with north := r.north ++ [e] }).setPacket n
          (some { k with row := k.row + 1, pois := if e.pois = 0 then k.pois else [0] }))
      | v => .next (s.rowStop n k v)

/-- What the sides of a stalled packet's next row come to now; granules at a peer, and an index that has no answer yet, are
asked for again. -/
def State.rowState (s : State) (k : Packet) : Verdict Unit :=
  if pktKind k.pkt = kFEED then (s.rowSrc k 0).map (fun _ => ())
  else
    match s.idxSide k with
    | .ok (some x) =>
      if x.isPeer && k.gidx.isNone then (s.rowDst k).map (fun _ => ())
      else ((s.rowSrc k ((k.gidx).getD (idxOf (s.sideRead 4 [] x).2)).1).both (s.rowDst k)).map (fun _ => ())
    | .ok none => ((s.rowSrc k 0).both (s.rowDst k)).map (fun _ => ())
    | v => (v.both (s.rowDst k)).map (fun _ => ())

/-- COPY_FAULT_RESUME (09 R260): a stalled packet goes on from its row once the page is mapped, and a further page found
absent is reported; after a fenced die has rejoined, once its queue's HALT is cleared. -/
def execCopyFaultResume (n : Nat) (s : State) : Host.Outcome State Fault Refusal :=
  match s.packet n with
  | none => .next s
  | some k =>
    if !k.fault || ((s.queue k.part k.hdr).map s.halted).getD false then .next s
    else
      match s.rowState k with
      | .fault a => .next (s.rowStop n k (.fault a : Verdict Unit))
      | .code _ => .next s
      | _ => .next (s.setPacket n (some { k with fault := false, told := none }))

end Sys2Proof.Machine
end

