-- ==== Sys2Proof/Machine/Girth.lean ====
section
/-! DEFINITION. Girth commands (09 R261 to R263; 04 R114; 08 R227): acceptance from a queue or a task stream, the
elements' arithmetic, XCLOSE, and completion. -/
namespace Sys2Proof.Machine

/-! ### Elements (09 R262) -/

/-- F32 operations rounded by RNE, as girth units perform them: no flags. -/
def gadd (a b : Nat) : Nat := (fadd f32 0 a b).1
def gsub (a b : Nat) : Nat := (fsub f32 0 a b).1
def gmul (a b : Nat) : Nat := (fmul f32 0 a b).1
def gdiv (a b : Nat) : Nat := (fdiv f32 0 a b).1
def gsqrt (a : Nat) : Nat := (fsqrt f32 0 a).1

/-- 1.0 in F32. -/
def gone : Nat := 0x3F800000

/-- The new y, m and v of an element: `y`, `g`, `m`, `v` are its old values and `k` the constants (09 R262). -/
def girthElem (cmd : Nat) (k : Nat → Nat) (y g m v : Nat) : Nat × Nat × Nat :=
  match cmd with
  | 0x10 => (gadd y (gmul (k 0) g), m, v)
  | 0x11 => (gmul (k 0) y, m, v)
  | 0x12 =>
    let h := gadd g (gmul (k 2) y)
    let m' := gadd (gmul (k 1) m) h
    (gsub y (gmul (k 0) m'), m', v)
  | 0x13 =>
    let m' := gadd (gmul (k 1) m) (gmul (gsub gone (k 1)) g)
    let v' := gadd (gmul (k 2) v) (gmul (gsub gone (k 2)) (gmul g g))
    let q := gdiv (gdiv m' (k 5)) (gadd (gsqrt (gdiv v' (k 6))) (k 3))
    (gsub y (gmul (k 0) (gadd q (gmul (k 4) y))), m', v')
  | _ => (0, m, v)

/-- The physical address of the element at an index of a range, for the girth units of a partition. -/
def State.elemPa (s : State) (p : Nat) (base : Word) (i : Nat) : Nat :=
  (s.physOf p (base + BitVec.ofNat 64 (4 * i))).getD 0

/-- The physical addresses of an element's parts: y, x, m, v where the command uses them. -/
def State.elemPas (s : State) (p : Nat) (k : Vector Word 8) (i : Nat) : List Nat :=
  (girthRanges k).map (fun (r : Word × Nat × Bool) => s.elemPa p r.1 i)

/-- The command reads its operands: all but ZERO and XCLOSE. -/
def girthReads (cmd : Nat) : Bool := decide (cmd < 0x14)

/-- The writes of an element, none where an operand's sector is poisoned (09 R262). -/
def State.elemWrites (s : State) (p : Nat) (k : Vector Word 8) (i : Nat) : List (Nat × Nat × Nat) :=
  let cmd := pktKind k
  let as := s.elemPas p k i
  if girthReads cmd && as.any s.secPois then []
  else
    let rd (j : Nat) : Nat := match as[j]? with
      | some a => s.hread a 4
      | none => 0
    let r := girthElem cmd (fun j => pktField k (0x24 + 4 * j) 4) (rd 0) (rd 1) (rd 2) (rd 3)
    let y := (as.getD 0 0, 4, r.1)
    match cmd with
    | 0x12 => [(as.getD 2 0, 4, r.2.1), y]
    | 0x13 => [(as.getD 2 0, 4, r.2.1), (as.getD 3 0, 4, r.2.2), y]
    | _ => [y]

/-- Operand sectors are read, and uncorrectable ones met, first (14 R362; 21 R386). -/
def State.elemsMeet (s : State) (p : Nat) (k : Vector Word 8) : State :=
  if girthReads (pktKind k) then
    let as := (List.range (girthN k)).flatMap (s.elemPas p k)
    (as.foldl (fun (s : State) a => if s.secUE a then s.meetUE a else s) s).elide (as.map paSector)
  else s

/-- XCLOSE's writes: the open accumulators of its range (04 R114). -/
def State.closeWrites (s : State) (p : Nat) (k : Vector Word 8) : List (Nat × Nat × Nat) :=
  (List.range (girthN k)).filterMap (fun i =>
    let a := s.elemPa p (pktWord k 8) i
    (s.accum a).map (fun x => (a, 4, x.word)))

/-- A command performed: the state, the latest lease of what it wrote, by whichever page (08 R227), and whether an operand
was poisoned. -/
def State.girthPerform (s : State) (p : Nat) (k : Vector Word 8) : State × Nat × Bool :=
  if pktKind k = 0x15 then
    let ws := s.closeWrites p k
    let s1 := { s with accums := ws.foldl (fun m (w : Nat × Nat × Nat) => Sparse.set none m w.1 none) s.accums }
    (s1.puts none ws, s.gwct (ws.map (fun (w : Nat × Nat × Nat) => w.1)), false)
  else
    let s1 := s.elemsMeet p k
    let ws := (List.range (girthN k)).flatMap (s1.elemWrites p k)
    let bad := girthReads (pktKind k) && (List.range (girthN k)).any (fun i => (s1.elemPas p k i).any s1.secPois)
    (s1.puts none ws, s1.gwct (ws.map (fun (w : Nat × Nat × Nat) => w.1)), bad)

/-! ### Queues and task streams (09 R254, R261; 12 R314) -/

/-- The stack that a girth queue names, and whether it is one of the partition's. -/
def Queue.stack (q : Queue) : Nat := (q.engine.extractLsb' 0 5).toNat
def State.stackOk (s : State) (p : Nat) (q : Queue) : Bool :=
  q.engine.extractLsb' 5 3 == 0 && decide (q.stack < 24) && (s.part p).dies.getLsbD (stackDie q.stack)

/-- A command is one of a kind; a packet of no kind is taken, and halts its queue, as an AXPY. -/
def girthKind (cmd kind : Nat) : Bool := cmd == kind || (cmd == 0x10 && (decide (kind < 0x10) || decide (0x15 < kind)))

/-- The acceptance and performance of the packet at the head of a girth queue. -/
def State.girthAccept (s : State) (p : Nat) (q : Queue) (k : Vector Word 8) : State :=
  let s := if (girthCodes k (s.stackOk p q)).isEmpty then s.metGirth p k else s
  match s.girthCheck p q.stack (s.stackOk p q) k with
  | .code c => (s.elideSlot q).halt p q c
  | .vio c cs a => (s.elideSlot q).freezeQueue p q (s.ridx q) c cs a
  | .fault a => s.stallQueue p q a
  | .wait => s
  | .ok () =>
    if s.fenced.getLsbD (stackDie q.stack) then s.halt p q 0x0C
    else if (s.stack q.stack).hBusy then s
    else
      let (s1, e, bad) := ((s.elideSlot q).stepRidx q).girthPerform p k
      let s2 := if bad then s1.markPois q else s1
      s2.setQueue p { q.unstall with run := some { done := BitVec.ofNat 32 (pktField k 0x20 4), waitE := e } }

/-- One step of a girth queue: the completion of the command that runs, once its leases have expired (08 R227), or the
next command. -/
def State.girthQueue (s : State) (p : Nat) (hdr : Word) (cmd : Nat) : State :=
  match s.queue p hdr with
  | none => s
  | some q =>
    if q.sort ≠ 2 then s
    else
      match q.run with
      | some r =>
        if r.waitE + 4 ≤ s.time.toNat && !s.hdrHeld q then
          ((s.setQueue p { q with run := none }).takeDone p r.done).stepDone q
        else s
      | none =>
        let s := s.metQueue q
        match s.offer { q with stalled := false } with
        | .packet k => if girthKind cmd (pktKind k) then s.girthAccept p q k else s
        | .code c => if cmd = 0x10 then s.halt p q c else s
        | _ => s

/-- One step of a stack's task stream: the completion of the command that runs, or the oldest task's checks and its
command. A page not present is reported, and a violation freezes the counter whose task it is, with that task's packet the
next to be read (12 R314, 13 R331). -/
def State.girthTask (s : State) (p stack cmd : Nat) : State :=
  let u := s.part p
  match u.tasks.find? (fun t => t.stack == stack) with
  | none => s
  | some t =>
    let put (t' : Option TaskRun) : List TaskRun :=
      let i := u.tasks.findIdx (fun t => t.stack == stack)
      match t' with
      | some x => u.tasks.set i x
      | none => u.tasks.eraseIdx i
    match t.run with
    | some r =>
      if r.waitE + 4 ≤ s.time.toNat then (s.setPart p { u with tasks := put none }).takeDone p r.done else s
    | none =>
      if pktKind t.pkt ≠ cmd ∨ (s.stack stack).hBusy then s
      else
        let s := s.metGirth p t.pkt
        let u := s.part p
        match s.girthCheck p stack true t.pkt with
        | .ok () =>
          let (s1, e, _) := s.girthPerform p t.pkt
          s1.setPart p { s1.part p with
            tasks := put (some { t with run := some { done := BitVec.ofNat 32 (pktField t.pkt 0x20 4), waitE := e } }) }
        | .code c => (s.setPart p { u with tasks := put none }).refuse p t.counter c
        | .vio c cs a =>
          let c0 := s.counter p t.counter
          ((s.setPart p { u with tasks := put none }).setCounter p t.counter
            { c0 with pend := t.task :: c0.pend, atTask := true }).freezeCounter p t.counter c cs a
        | .fault a => (s.setPart p { u with tasks := put (some { t with told := some a }) }).tell p (s.walker p) t.told 0 t.counter a
        | .wait => s

/-- A step of a girth stream by a command. -/
def State.girth (s : State) (p : Nat) (src : GirthSrc) (cmd : Nat) : State :=
  match src with
  | .queue hdr => s.girthQueue p hdr cmd
  | .task st => s.girthTask p st cmd

/-- AXPY (09 R262). -/
def execAxpy (p : Fin 8) (src : GirthSrc) (s : State) : Host.Outcome State Fault Refusal := .next (s.girth p src 0x10)
/-- SCALE (09 R262). -/
def execScale (p : Fin 8) (src : GirthSrc) (s : State) : Host.Outcome State Fault Refusal := .next (s.girth p src 0x11)
/-- MOMENTUM (09 R262). -/
def execMomentum (p : Fin 8) (src : GirthSrc) (s : State) : Host.Outcome State Fault Refusal := .next (s.girth p src 0x12)
/-- ADAMW (09 R262). -/
def execAdamw (p : Fin 8) (src : GirthSrc) (s : State) : Host.Outcome State Fault Refusal := .next (s.girth p src 0x13)
/-- GIRTH_ZERO (09 R262). -/
def execGirthZero (p : Fin 8) (src : GirthSrc) (s : State) : Host.Outcome State Fault Refusal := .next (s.girth p src 0x14)
/-- XCLOSE (04 R114). -/
def execXclose (p : Fin 8) (src : GirthSrc) (s : State) : Host.Outcome State Fault Refusal := .next (s.girth p src 0x15)

end Sys2Proof.Machine
end

