-- ==== Sys2Proof/Machine/Supervisor.lean ====
section
/-! DEFINITION. The supervisor's commands on frozen masters, queues and launches (13 R333, R334), and pre-emption and
restoration (14 R354 to R360). -/
namespace Sys2Proof.Machine

/-- SUPARG, SUPARG2 and SUPARG3 of a partition. -/
def State.arg (s : State) (p i : Nat) : Word := vget 0 (s.part p).suparg i

/-- A partition changed. -/
def State.mapPart (s : State) (p : Nat) (f : Part → Part) : State := s.setPart p (f (s.part p))

/-! ### RESUME, ABORT, SKIP (13 R333) -/

/-- A frozen seat executes its instruction afresh, from its first prefix; BRKB as 02 R47 gives: suppressed once at slot 1
where the freeze had passed it, or where the image of a restored seat says so. -/
def Seat.resume (t : Seat) : Seat :=
  { t.unhold.leave with
    status := .ready
    slot := t.firstSlot
    brkbSkip := (t.brkbSkip || (t.brkbPassed && t.brkb)) && decide (t.firstSlot ≤ 1) }

/-- A queue goes on from where it was frozen: its packet, and the bridle writes of its launches. RIDX may be written, so
that the command is brought again while the header takes no access (07 R197; log 9). -/
def State.thaw (s : State) (p : Nat) (hdr : Word) : State :=
  match s.queue p hdr with
  | none => s
  | some q =>
    if s.hdrHeld q then s
    else
    let s0 := s.forth p q
    let s1 := s0.setQueue p { q with frozen := false, atAccept := false, back := none }
    { s1 with
      packets := s1.packets.map (fun (e : Nat × Option Packet) => match e.2 with
        | some k => if k.part = p ∧ k.hdr = hdr then (e.1, some { k with frozen := false, gidx := none }) else e
        | none => e)
      launches := s1.launches.map (fun (e : Nat × Option Launch) => match e.2 with
        | some l => if l.part = p ∧ l.queue = some hdr then (e.1, some { l with bfrozen := false }) else e
        | none => e) }

/-- The seat that a record's MID names (13 R332). -/
def midSid (a : Word) : Nat :=
  (a.extractLsb' 0 6).toNat * 256 + (a.extractLsb' 6 6).toNat * 4 + (a.extractLsb' 12 2).toNat

/-- A frozen counter goes on: the bridle writes of a launch that was its task, and its task packet, read again. -/
def State.thawCounter (s : State) (p n : Nat) : State :=
  let c := s.counter p n
  if !c.frozen then s
  else
    let s1 := s.setCounter p n { c with frozen := false, atTask := false }
    ({ s1 with
      launches := s1.launches.map (fun (e : Nat × Option Launch) => match e.2 with
        | some l => if l.part = p ∧ l.queue = none ∧ l.counter = n then (e.1, some { l with bfrozen := false }) else e
        | none => e) } : State).takeTask p n

/-- The master that SUPARG names goes on: SUPARG holds MKIND in [63:56], and MID or the queue header's address below it
(log 24). -/
def State.resume (s : State) (p : Nat) : State :=
  let a := s.arg p 0
  match (a >>> 56).toNat with
  | 0 =>
    let t := s.seat (midSid a)
    if t.status = .frozen ∧ t.bind.part = p then s.setSeat (midSid a) t.resume else s
  | 1 | 2 | 5 => s.thaw p (a &&& 0xFFFFFFFFFFFFF#64)
  | 3 =>
    let key : Nat × Nat := ((a.extractLsb' 0 4).toNat, (a.extractLsb' 4 16).toNat)
    s.mapPart p (fun u => { u with spanFrozen := u.spanFrozen.filter (fun x => x != key) })
  | 4 => s.thawCounter p (a.extractLsb' 0 12).toNat
  | _ => s

/-- RESUME (13 R333). -/
def execResume (p : Fin 8) (s : State) : Host.Outcome State Fault Refusal := .next (s.byPort (fun s => s.resume p))

/-- An accepted packet dropped: a FEED is no longer bound. -/
def State.dropPacket (s : State) (n : Nat) (k : Packet) : State :=
  let s1 := match k.head with
    | some h => if (s.row h).feed = some n then s.setRow h { s.row h with feed := none } else s
    | none => s
  s1.setPacket n none

/-- A launch of a partition, other than one named, that came from a queue, or from a counter, is frozen at a write of its
bridle table (10 R394). -/
def State.othersFrozen (s : State) (p : Nat) (but : Option Word) (queue : Option Word) (counter : Nat) : Bool :=
  s.launches.any (fun (e : Nat × Option Launch) => match e.2 with
    | some l =>
      l.part == p && l.bfrozen && l.queue == queue && (queue.isSome || l.counter == counter) && some l.lid != but
    | none => false)

/-- The frozen packet of the queue that SUPARG names is dropped, and the queue halts with CODE 0x0B. A queue that is frozen
only at a bridle write of a launch holds no such packet, and one that is frozen there too stays so (10 R394; log 50). -/
def State.abort (s : State) (p : Nat) : State :=
  match s.queue p (s.arg p 0) with
  | none => s
  | some q =>
    let held := s.othersFrozen p none (some q.hdr) 0
    if !q.frozen || (held && !q.atAccept) || s.hdrHeld q then s
    else
      let s1 := (s.forth p q).setQueue p { q with frozen := held, atAccept := false, back := none }
      let s2 := match s1.packets.findSome? (fun (e : Nat × Option Packet) => match e.2 with
          | some k => if k.part = p ∧ k.hdr = q.hdr ∧ k.frozen then some (e.1, k) else none
          | none => none) with
        | some (n, k) => (s1.dropPacket n k).stepDone q
        | none => (s1.stepRidx q).stepDone q
      s2.halt p q 0x0B

/-- ABORT (13 R333). -/
def execAbort (p : Fin 8) (s : State) : Host.Outcome State Fault Refusal := .next (s.byPort (fun s => s.abort p))

/-- The packet at RIDX of the halted queue that SUPARG names is dropped. -/
def State.skip (s : State) (p : Nat) : State :=
  match s.queue p (s.arg p 0) with
  | none => s
  | some q =>
    if s.halted q ∧ s.ridx q < s.widx q ∧ !s.hdrHeld q then ((s.stepRidx q).stepDone q).setQueue p q.unstall else s

/-- SKIP (13 R333). -/
def execSkip (p : Fin 8) (s : State) : Host.Outcome State Fault Refusal := .next (s.byPort (fun s => s.skip p))

/-! ### KILL (13 R334) -/

/-- A row removed: its matrix work, its ports and its seat are gone; a contribution it waited for goes on without it. -/
def State.removeRow (s : State) (sid : Nat) : State :=
  let t := s.seat sid
  let k := sid / 4
  let s1 := if t.bind.ports && t.isHead then s.unbind k else s
  let s2 := s1.freeSeat sid
  { s2 with contribs := s2.contribs.map (fun c => if c.sid = some sid then { c with sid := none } else c) }

/-- The rows of a launch, by the keys of their seats. -/
def State.rowsOf (s : State) (key : Nat) : List Nat :=
  s.seats.filterMap (fun (e : Nat × Seat) =>
    if e.2.resident && launchKey e.2.bind.part e.2.bind.lid == key then some e.1 else none)

/-- A launch's spawn bins emptied on some cores. -/
def State.emptyBins (s : State) (key : Nat) (cores : List Nat) : State :=
  cores.foldl (fun (s : State) c => (List.range 16).foldl (fun (s : State) b =>
    let x := s.bin c b
    let y := if x.launch = key then { x with args := [] } else x
    s.setBin c b (match y.pending with
      | some (l, _, _) => if l = key then { y with pending := none } else y
      | none => y)) s) s

/-- The queue or counter that a launch's bridle write froze goes on without it, where nothing else holds it frozen: its own
packet, or a write of another launch. -/
def State.unfreezeFor (s : State) (l : Launch) : State :=
  if !l.bfrozen then s
  else
    let others := s.othersFrozen l.part (some l.lid) l.queue l.counter
    match l.queue with
    | some h => match s.queue l.part h with
      | some q => s.setQueue l.part { q with frozen := q.atAccept || others }
      | none => s
    | none =>
      let c := s.counter l.part l.counter
      s.setCounter l.part l.counter { c with frozen := c.atTask || others }

/-- A launch whose last write waits or is frozen is ended there (10 R394): STATE holds KILLED where it can be written, and
the launch ends without it where it cannot (log 89). -/
def State.endClosing (s : State) (l : Launch) : State :=
  let key := launchKey l.part l.lid
  let s1 := (s.unfreezeFor l).updLaunch { l with killed := true, bfrozen := false, closing := 4 + l.placed.toNat }
  match s1.bridleGate l [(0x1C, 4, 4 + l.placed.toNat)] with
  | .ok () => s1.lastStep key
  | _ => s1.dropLaunch key

/-- The launch that SUPARG names is ended (13 R334), its steps in order; a pre-emption of it is at an end with it. -/
def State.kill (s : State) (p : Nat) : State :=
  let key := launchKey p (s.arg p 0)
  match Sparse.get none s.launches key with
  | none => s
  | some l =>
    if l.lid ≠ s.arg p 0 then s
    else if l.closing ≠ 0 then s.endClosing l
    else
      let s2 := (s.unfreezeFor l).updLaunch { l with killed := true, bfrozen := false }
      let s3 := (s2.rowsOf key).foldl State.removeRow (s2.emptyBins key (List.range 64))
      let ended (u : Part) : Part :=
        let mine : Bool := match u.pre with
          | some x => x.lid == l.lid
          | none => false
        { u with
          saved := u.saved.filter (fun x => x.lid != l.lid)
          pre := if mine then none else u.pre
          supReason := if mine then 1 else u.supReason
          supRefused := u.supRefused || mine }
      (s3.mapPart p ended).finish key

/-- KILL (13 R334). -/
def execKill (p : Fin 8) (s : State) : Host.Outcome State Fault Refusal := .next (s.byPort (fun s => s.kill p))

/-! ### Pre-emption: which seats, and where they stop (14 R355, R356) -/

/-- The row is one of the unit of a launch and a string, or of the whole launch. -/
def Seat.inUnit (t : Seat) (p : Nat) (lid : Word) (str : Half) : Bool :=
  t.resident && t.bind.part == p && t.bind.lid == lid &&
    (str == 0xFFFFFFFF#32 || (!t.bind.spawned && t.bind.string == str.toNat))

/-- Seats in image order: by string, then string row, spawned rows last (14 R359). -/
def imageKey (t : Seat) : Nat := t.bind.spawned.toNat * 2 ^ 50 + t.bind.string * 2 ^ 16 + t.bind.srow
def insertSeat (x : Nat × Seat) : List (Nat × Seat) → List (Nat × Seat)
  | [] => [x]
  | y :: ys => if imageKey x.2 < imageKey y.2 then x :: y :: ys else y :: insertSeat x ys

/-- The seats of a unit, in image order. -/
def State.unitSeats (s : State) (p : Nat) (lid : Word) (str : Half) : List (Nat × Seat) :=
  (s.seats.filter (fun (e : Nat × Seat) => e.2.inUnit p lid str)).foldl (fun xs x => insertSeat x xs) []

/-- The opcode of the slot that runs next, where its bundle is in hand. -/
def Seat.opcode (t : Seat) : Option Nat := t.bundle.map (fun b => ((vget 0 b t.slot).extractLsb' 24 8).toNat)

/-- A latch is valid. -/
def Latch.valid : Latch → Bool
  | .invalid => false
  | _ => true

/-- The seat stands at a switch-out point (14 R355): no stalled seat does, and none between a QPUT's claim and its
publication or amid a SPAWN's pairs (11 R281; log 51). -/
def Seat.atSwitch (t : Seat) : Bool :=
  !t.hl && t.qput.isNone && t.slot == 1 && t.pslot == 0 &&
  (match t.status with
   | .ready => !t.lat.toList.any Latch.valid && !t.waits && t.spawned == 0
   | .parked (.yield _) | .parked .fetch => !t.lat.toList.any Latch.valid
   | .parked _ => !t.lat.toList.any Latch.valid || ((t.opcode.bind opInfo).map (fun i => i.park)).getD false
   | _ => false)

/-- What the next slot does with its ports: how many entries it reads of the north one at once (06 R158, R169), and whether
it writes the south one (06 R169, R174). -/
def Seat.portNeed (t : Seat) : Nat × Bool :=
  match t.bundle with
  | none => (0, false)
  | some b =>
    let w := vget 0 b t.slot
    let op := (w.extractLsb' 24 8).toNat
    let named (c : BitVec 7) : Bool := w.extractLsb' 11 7 == c || w.extractLsb' 4 7 == c
    let q : Bool := ((t.qsrc).map (fun c => c == 0x24 || c == 0x25)).getD false
    if t.uniform then (0, false)
    else if op = 0x90 then (1, true)
    else if op = 0x91 then (1, false)
    else if op = 0x80 ∨ op = 0x81 then
      (if named 0x24 then groupSize t.ety (2 ^ (w.extractLsb' 0 3).toNat)
        else (named 0x25 || (op == 0x81 && !w.getLsbD 3)).toNat, op == 0x81)
    else if 0x20 ≤ op ∧ op < 0xC0 then
      ((named 0x24 || named 0x25 || q).toNat,
       ((opInfo op).map (fun i => i.value)).getD false && w.extractLsb' 18 6 == 31)
    else (0, false)

/-- The seat is stalled on its path from the row above, or to the row below. -/
def State.stuckNorth (s : State) (sid : Nat) (t : Seat) : Bool :=
  decide (t.status = .ready) && (match s.popNorths sid t t.portNeed.1 with
    | .error .stall => true
    | _ => false)
def State.stuckSouth (s : State) (sid : Nat) (t : Seat) : Bool :=
  decide (t.status = .ready) && t.portNeed.2 && (match s.south sid t with
    | .error .stall => true
    | _ => false)

/-- An unstopped seat of the unit is stalled on a port path to or from the row (14 R356). -/
def State.wanted (s : State) (us : List (Nat × Seat)) (t : Seat) : Bool :=
  t.bind.ports && us.any (fun (u : Nat × Seat) =>
    u.2.bind.string == t.bind.string && u.2.bind.ports &&
    ((u.2.bind.srow == t.bind.srow + 1 && s.stuckNorth u.1 u.2) || (u.2.bind.srow + 1 == t.bind.srow && s.stuckSouth u.1 u.2)))

/-- The seat does not run: stopped, frozen or exited. -/
def Seat.halted (t : Seat) : Bool :=
  match t.status with
  | .stopped _ | .frozen | .exited | .blank => true
  | _ => false

/-- T1 is set once every seat of the unit has stopped (14 R356, step 4). -/
def State.markStop (s : State) (p : Nat) : State :=
  match (s.part p).pre with
  | none => s
  | some x =>
    if x.t1.isNone && (s.unitSeats p x.lid x.str).all (fun (u : Nat × Seat) => u.2.halted) then
      s.mapPart p (fun u => { u with pre := some { x with t1 := some s.time.toNat } })
    else s

/-- A stopped seat runs on. -/
def Seat.unstop (t : Seat) : Seat :=
  match t.status with
  | .stopped (some w) => { t with status := .parked w }
  | .stopped none => { t with status := .ready }
  | _ => t

/-- PREEMPT_SEAT_STOP (14 R355, R356): the seat stops at its switch-out point, and runs on while a neighbour in the unit
needs it. -/
def execPreemptSeatStop (sid : Fin 16384) (s : State) : Host.Outcome State Fault Refusal :=
  let t := s.seat sid
  match (s.part t.bind.part).pre with
  | none => .next s
  | some x =>
    if x.t1.isSome || !t.inUnit t.bind.part x.lid x.str then .next s
    else
      let need := s.wanted (s.unitSeats t.bind.part x.lid x.str) t
      let t' : Seat := match t.status with
        | .stopped _ => if need then t.unstop else t
        | .ready => if t.atSwitch && !need then { t with status := .stopped none } else t
        | .parked w => if t.atSwitch && !need then { t with status := .stopped (some w) } else t
        | _ => t
      .next ((s.setSeat sid t').markStop t.bind.part)

/-! ### PREEMPT (14 R354, R356) -/

/-- A command refused with its REASON. -/
def State.supRefuse (s : State) (p : Nat) (reason : BitVec 8) : State :=
  s.mapPart p (fun u => { u with supReason := reason, supRefused := true })

/-- A packet is bound to the unit: accepted, not complete, submitted by a row of it, with a barrier target (14 R356). -/
def Packet.boundTo (k : Packet) (p : Nat) (lid : Word) (str : Half) : Bool :=
  k.part == p && (match k.sub with
    | some (l, j) => l == lid && (str == 0xFFFFFFFF#32 || j == some str.toNat)
    | none => false) &&
  (pktTargets k.pkt).any (fun t => targetKind t == 1)

/-- A FEED that is bound to a head among some rows. -/
def Packet.feeds (k : Packet) (us : List (Nat × Seat)) : Bool :=
  match k.head with
  | some h => us.any (fun (u : Nat × Seat) => u.1 / 4 == h && u.2.bind.ports)
  | none => false

/-- The packets that a pre-emption settles, by number. -/
def State.boundPackets (s : State) (p : Nat) (lid : Word) (str : Half) : List (Nat × Packet) :=
  let us := s.unitSeats p lid str
  s.packets.filterMap (fun (e : Nat × Option Packet) => match e.2 with
    | some k => if k.boundTo p lid str || k.feeds us then some (e.1, k) else none
    | none => none)

/-- The bytes of a save area with so many images and packets (14 R359). -/
def saveSize (rows pkts : Nat) : Nat := 65536 * rows + 0x40 + 128 * pkts

/-- PREEMPT's checks and its acceptance (14 R354, R356); the probe of the save area waits for a stack whose hash is being
changed. -/
def State.preempt (s : State) (p : Nat) : State :=
  let lid := s.arg p 0
  let str : Half := (s.arg p 1).setWidth 32
  let area := s.arg p 2
  let u := s.part p
  let us := s.unitSeats p lid str
  let whole := str == 0xFFFFFFFF#32
  let size := saveSize us.length (s.boundPackets p lid str).length
  if u.pre.isSome || u.restoring.isSome then s.supRefuse p 6
  else
    match Sparse.get none s.launches (launchKey p lid) with
    | none => s.supRefuse p 1
    | some l =>
      if l.lid ≠ lid ∨ us = [] then s.supRefuse p 1
      else if l.cls = 2 ∧ !whole then s.supRefuse p 2
      else if area &&& 0xFFFF#64 ≠ 0 then s.supRefuse p 4
      else
        let s := s.metWalks p ((pagesOf area.toNat size).map (BitVec.ofNat 64))
        match s.checkPages p area size .write with
        | .ok () =>
          (s.mapPart p (fun u =>
            { u with pre := some { lid := lid, str := str, area := area, t0 := s.time.toNat }
                     supDone := false, supRefused := false })).markStop p
        | .wait => s
        | _ => s.supRefuse p 4

/-- PREEMPT (14 R354). -/
def execPreempt (p : Fin 8) (s : State) : Host.Outcome State Fault Refusal := .next (s.byPort (fun s => s.preempt p))

/-- PREEMPT_DEADLINE (14 R356): a unit not stopped by T0 + 200 µs runs on. -/
def execPreemptDeadline (p : Fin 8) (s : State) : Host.Outcome State Fault Refusal :=
  match (s.part p).pre with
  | none => .next s
  | some x =>
    if x.t1.isSome ∨ s.time.toNat < x.t0 + 200000 then .next s
    else
      let s1 := (s.unitSeats p x.lid x.str).foldl (fun (s : State) (u : Nat × Seat) => s.setSeat u.1 (s.seat u.1).unstop) s
      .next ((s1.mapPart p (fun u => { u with pre := none })).supRefuse p 3)

/-! ### Settling, aborting and saving (14 R356 to R359) -/

/-- A bound packet is aborted (14 R357): its scratchpad lines become absent, and it is kept to be reissued whole; a FEED
goes on later from its next row. -/
def State.abortPacket (s : State) (p n : Nat) (k : Packet) : State :=
  let s1 := s.dropPacket n k
  let s2 := match k.core with
    | some c =>
      if pktKind k.pkt ≠ kFEED ∧ pktDsp k.pkt then (s1.dstLines c k.pkt).foldl (fun (s : State) l => s.setAbsent l true) s1 else s1
    | none => s1
  let k' := if pktKind k.pkt = kFEED then { k with head := none, fault := false, told := none }
    else { k with row := 0, released := false, landed := false, fault := false, told := none, pois := [], waitE := 0 }
  s2.mapPart p (fun u => { u with pre := u.pre.map (fun x => { x with pkts := x.pkts ++ [k'] }) })

/-- The unit's seats have settled: no batch runs, accesses are performed, and leases have expired (14 R356, step 4). -/
def State.settled (s : State) (us : List (Nat × Seat)) : Bool :=
  us.all (fun (u : Nat × Seat) => !s.matBusy u.1 && s.allDone u.1 u.2 && s.past u.2.gwct)

/-- Where a stopped seat resumes, laid out as TPC: BP tells that the bundle's BRKB has been passed or is suppressed (14
R343, R352; 02 R47). -/
def Seat.resumePoint (t : Seat) : Word :=
  (t.pc &&& ~~~15#64) ||| BitVec.ofNat 64 (t.firstSlot + 4 * (t.brkbSkip || (t.brkbPassed && t.brkb)).toNat)

/-- Entries that stand filled in a FIFO. -/
def filledOf (xs : List PortSlot) : List PortEntry :=
  xs.filterMap (fun x => match x with
    | .filled e => some e
    | .reserved _ _ => none)

/-- The image of a seat of a unit, with its ports (14 R352, R358). -/
def State.unitImage (s : State) (sid : Nat) (t : Seat) : List ImgField :=
  let r := s.row (sid / 4)
  let south := if t.bind.ports then filledOf r.south else []
  let north := if t.bind.ports then r.north else []
  t.image t.resumePoint t.mode t.unhold.lat t.unhold.latpois south north
    (t.bind.ports.toNat + 2 * (decide (t.status = .frozen)).toNat)

/-- An image written by the device at a virtual address. -/
def State.putImage (s : State) (p : Nat) (va : Word) (fs : List ImgField) : State :=
  let s1 := s.vputs p va (fs.map (fun f => (f.off, f.n, f.v)))
  (fs.filter (fun f => f.pois)).foldl (fun (s : State) f => match s.physOf p (va + BitVec.ofNat 64 f.off) with
    | some pa => s.setSecPois pa true
    | none => s) s1

/-- A packet as it is to be reissued (14 R357): a FEED's remaining rows only. -/
def Packet.again (k : Packet) : Vector Word 8 :=
  if pktKind k.pkt = kFEED then
    vset (vset k.pkt 1 (BitVec.ofInt 64 (pktSrc k.pkt k.row 0))) 3
      (BitVec.ofNat 64 ((vget 0 k.pkt 3).toNat / 2 ^ 32 * 2 ^ 32 + (pktRows k.pkt - k.row)))
  else k.pkt

/-- The unit record (14 R359), as writes from its first byte. -/
def unitRecord (lid : Word) (str : Half) (rows tstop : Nat) (pkts : List Packet) : List (Nat × Nat × Nat) :=
  [(0, 8, lid.toNat), (8, 4, str.toNat), (0x0C, 4, rows), (0x10, 4, pkts.length), (0x14, 4, 0), (0x18, 8, tstop)] ++
  (List.range 4).map (fun i => (0x20 + 8 * i, 8, 0)) ++
  (pkts.zipIdx).flatMap (fun (x : Packet × Nat) =>
    let o := 0x40 + 128 * x.2
    (List.range 8).map (fun i => (o + 8 * i, 8, (vget 0 x.1.again i).toNat)) ++
    [(o + 0x40, 8, x.1.hdr.toNat), (o + 0x48, 8, x.1.slot)] ++ (List.range 6).map (fun i => (o + 0x50 + 8 * i, 8, 0)))

/-- What the device keeps of a seat of a unit. -/
def State.savedRow (s : State) (sid : Nat) (t : Seat) : SavedRow where
  bind := t.bind
  seat := t
  sid := sid
  ablk := t.ablk
  nblk := t.nblk
  exited := t.exited
  mflags := t.mflags
  startClk := t.startClk
  gone := decide (t.status = .exited)
  unit :=
    let r := s.row (sid / 4)
    { (if t.bind.ports then r else RowUnit.empty) with
      mat := r.mat.filter (fun i => i.seat == sidSeat sid), nextItem := r.nextItem, feed := none }

/-- A seat of a unit freed, with its ports. -/
def State.vacate (s : State) (sid : Nat) (t : Seat) : State :=
  let k := sid / 4
  let r := s.row k
  let r1 := { r with mat := r.mat.filter (fun i => i.seat != sidSeat sid) }
  (s.setSeat sid Seat.blank).setRow k (if t.bind.ports then r1.link else r1)

/-- The writes of the bridle entries of strings: none where the launch has no table, or its table is pinned (10 R271). -/
def Launch.entryWrites (l : Launch) (es : List (Nat × Half)) : List (Nat × Nat × Nat) :=
  if l.bridle = 0 ∨ l.pin then [] else es.map (fun (x : Nat × Half) => (0x40 + 4 * x.1, 4, x.2.toNat))

/-- The entries of a unit's strings as its release leaves them (14 R356, step 8; log 52). -/
def freedEntries (us : List (Nat × Seat)) : List (Nat × Half) :=
  (((us.filter (fun (u : Nat × Seat) => !u.2.bind.spawned)).map (fun (u : Nat × Seat) => u.2.bind.string)).eraseDups).map
    (fun j => (j, 0))

/-- The images, the record and the release of a unit (14 R356, steps 7 and 8). -/
def State.saveUnit (s : State) (p : Nat) (x : Preempt) (t1 : Nat) (us : List (Nat × Seat)) (l : Launch) : State :=
  let n := us.length
  let s1 := (us.zipIdx).foldl (fun (s : State) (u : (Nat × Seat) × Nat) =>
    s.putImage p (x.area + BitVec.ofNat 64 (65536 * u.2)) (s.unitImage u.1.1 u.1.2)) s
  let s2 := s1.vputs p (x.area + BitVec.ofNat 64 (65536 * n)) (unitRecord x.lid x.str n t1 x.pkts)
  let rows := us.map (fun (u : Nat × Seat) => s.savedRow u.1 u.2)
  let s3 := us.foldl (fun (s : State) (u : Nat × Seat) => s.vacate u.1 u.2) s2
  let s4 := (s3.vputs l.part l.bridle (l.entryWrites (freedEntries us))).updLaunch { l with bstall := none }
  (s4.mapPart p (fun u =>
    { u with pre := none, supDone := true
             saved := u.saved ++ [{ lid := x.lid, str := x.str, area := x.area, rows := rows, pkts := x.pkts, tstop := t1 }] })).addEv
    p { type := 8 }

/-- PREEMPT_DRAIN_END (14 R356, R357): from T1 + 20 µs unreleased bound packets and bound FEEDs are aborted; once the
others have completed and the seats have settled, the unit is saved, once its bridle entries can be written (10 R394). -/
def execPreemptDrainEnd (p : Fin 8) (s : State) : Host.Outcome State Fault Refusal :=
  match (s.part p).pre with
  | none => .next s
  | some x =>
    match x.t1 with
    | none => .next s
    | some t1 =>
      let bound := s.boundPackets p x.lid x.str
      let late := decide (t1 + 20000 ≤ s.time.toNat)
      let stop (k : Packet) : Bool := late && (!k.released || pktKind k.pkt == kFEED)
      let s1 := (bound.filter (fun (b : Nat × Packet) => stop b.2)).foldl (fun (s : State) (b : Nat × Packet) =>
        s.abortPacket p b.1 b.2) s
      let us := s1.unitSeats p x.lid x.str
      match (s1.part p).pre, Sparse.get none s1.launches (launchKey p x.lid) with
      | some x, some l =>
        if (s1.boundPackets p x.lid x.str) ≠ [] ∨ !s1.settled us ∨ l.bfrozen ∨
            s1.checkPages p x.area (saveSize us.length x.pkts.length) .write ≠ .ok () then .next s1
        else
          let ws := l.entryWrites (freedEntries us)
          let s2 := s1.metWrites l ws
          match s2.bridleGate l ws with
          | .ok () => .next (s2.saveUnit p x t1 us l)
          | v => .next (s2.bridleStop l v)
      | _, _ => .next s1

/-! ### RESTORE (14 R360) -/

/-- How the device reads an image at a virtual address. -/
def State.unitRead (s : State) (p : Nat) (va : Word) : ImgRead where
  rd := fun off n => s.vread p (va + BitVec.ofNat 64 off) n
  pois := fun off => ((s.physOf p (va + BitVec.ofNat 64 off)).map s.secPois).getD false

/-- An image that cannot be a seat's of the unit: a field of it, a reserved one among them, holds what no save writes (00 R2;
14 R352, R360). -/
def SavedRow.imageBad (x : SavedRow) (r : ImgRead) : Bool :=
  let t := { Seat.blank with ablk := x.ablk, nblk := x.nblk }
  r.rd 0x34 1 != 1 || r.rd 0x19 1 != x.nblk || r.rd 0x0A 1 == 0 || decide (16 < r.rd 0x0A 1) ||
  (t.modeBad (BitVec.ofNat 16 (r.rd 8 2))).isSome || r.stack.isNone || (r.rd 0x0C 4).testBit 31 ||
  (r.rd 0 8).testBit 3 || decide (64 ≤ r.rd 0x10 8) || decide (64 ≤ r.rd 0x18 1) ||
  decide (2 ^ 32 ≤ r.rd 0x20 8) || decide (2 ^ 49 ≤ r.rd 0x28 8) ||
  decide (4 ≤ r.rd 0x35 1) || r.rd 0x36 2 != 0 || r.rd 0x38 8 != 0 ||
  r.rd 0x1A 1 != (filledOf x.unit.south).length || r.rd 0x1B 1 != x.unit.north.length ||
  r.rd 0x35 1 % 2 != x.bind.ports.toNat

/-- The record in memory is the unit's (14 R360), and its images can be loaded. -/
def State.recordOk (s : State) (p : Nat) (x : SavedUnit) : Bool :=
  let n := x.rows.length
  decide (s.checkPages p x.area (saveSize n x.pkts.length) .read = .ok ()) &&
  !s.poisRange p (x.area + BitVec.ofNat 64 (65536 * n)) (saveSize 0 x.pkts.length) &&
  (unitRecord x.lid x.str n x.tstop x.pkts).all (fun (w : Nat × Nat × Nat) =>
    s.vread p (x.area + BitVec.ofNat 64 (65536 * n + w.1)) w.2.1 == w.2.2) &&
  (x.rows.zipIdx).all (fun (r : SavedRow × Nat) =>
    !r.1.imageBad (s.unitRead p (x.area + BitVec.ofNat 64 (65536 * r.2))))

/-- What a saved row is placed with: its string, or, spawned, itself alone, whose serial number is its core's (10 R276). -/
def SavedRow.group (r : SavedRow) : Bool × Nat :=
  (r.bind.spawned, if r.bind.spawned then sidCore r.sid * 2 ^ 32 + r.bind.string else r.bind.string)

/-- The strings and spawned rows of a saved unit, each once. -/
def SavedUnit.groups (x : SavedUnit) : List (Bool × Nat) := (x.rows.map SavedRow.group).eraseDups

/-- A place for each group on the core that its role held before (14 R360; 10 R272), or its old place where the table is
pinned (10 R271); none while one finds no room. -/
def State.fitUnit (s : State) (l : Launch) (x : SavedUnit) :
    List (Bool × Nat) → List Taken → Option (List ((Bool × Nat) × Place))
  | [], _ => some []
  | g :: gs, occ =>
    match x.rows.find? (fun r => r.group == g) with
    | none => s.fitUnit l x gs occ
    | some r =>
      let up := if 64 < r.bind.slen then r.bind.srow / 64 * 8 else 0
      let core := r.sid / 256 - up
      let old : Place :=
        { core := core, head := if 64 < r.bind.slen then 0 else sidRow r.sid - r.bind.srow, seat := sidSeat r.sid, ablk := r.ablk }
      let place : Option Place :=
        if l.pin && !g.1 then
          (if (stringRows old.core old.head r.bind.slen).all (fun k =>
            seatFree occ (k * 4 + old.seat) && blockFree occ k old.ablk r.nblk) then some old else none)
        else s.fitCore occ l.roles r.bind.slen r.nblk (if g.1 then 0b1110 else l.seats) core
      match place with
      | none => none
      | some y => (s.fitUnit l x gs (y.seats r.bind.slen r.nblk ++ occ)).map (fun ys => (g, y) :: ys)

/-- Port entries as an image gives them, with what the device kept of each. -/
def reload (es kept : List PortEntry) : List PortEntry :=
  (es.zip kept).map (fun (x : PortEntry × PortEntry) => { x.2 with v := x.1.v, pois := x.1.pois, ready := x.1.ready })

/-- What a frozen row keeps beside its image: its level, its trap CSRs and the progress of its instruction (13 R331, 14
R339). -/
def Seat.keepFrozen (t old : Seat) : Seat :=
  { t with
    hl := old.hl, tvec := old.tvec, tpc := old.tpc, tcause := old.tcause, tinfol := old.tinfol, tinfod := old.tinfod
    taddr := old.taddr, tmode := old.tmode, hs := old.hs, shadow := old.shadow, shpois := old.shpois
    qput := old.qput, spawned := old.spawned }

/-- A row of a unit loaded into its new seat (14 R360), with the windows of its matrix items still open (06 R161). -/
def State.loadRow (s : State) (l : Launch) (x : SavedRow) (r : ImgRead) (y : Place) : State :=
  let k := (stringRows y.core y.head x.bind.slen).getD x.bind.srow 0
  let core := k / 64
  let clk := (s.core core).clkc
  let base := l.start (s.part l.part) x.bind.string x.bind.srow x.bind.role y.ablk clk
  let t := { base with bind := x.bind, nblk := x.nblk }.loadImage r
  let m := BitVec.ofNat 16 (r.rd 8 2)
  let ab := (m.extractLsb' 12 2).toNat + y.ablk - x.ablk
  let pc : Word := BitVec.ofNat 64 (r.rd 0 8)
  let slot := (pc.extractLsb' 0 2).toNat
  let t1 := { t with
    status := if x.gone then .exited else if (r.rd 0x35 1).testBit 1 then .frozen else .ready
    pc := pc &&& ~~~15#64
    slot := if slot = 0 then 1 else slot
    brkbSkip := pc.getLsbD 2 && decide (slot ≤ 1)
    mode := (m &&& 0xCFFF#16) ||| BitVec.ofNat 16 (ab % 4 * 2 ^ 12)
    lat := r.latches
    latpois := r.latPois
    exited := x.exited
    mflags := x.mflags
    startClk := x.startClk }
  let t2 := if t1.status = .frozen then t1.keepFrozen x.seat else t1
  let s1 := (s.setSeat (k * 4 + y.seat) t2).flushLines core
  let u := s1.row k
  let mat := u.mat ++ x.unit.mat.map (fun i => { i with seat := y.seat })
  let next := max u.nextItem x.unit.nextItem
  if !x.bind.ports then s1.setRow k { u with mat := mat, nextItem := next }
  else
    s1.setRow k { x.unit with
      mat := mat, nextItem := next
      south := (reload (r.ports 0xD000 (r.rd 0x1A 1) (clk + 1)) (filledOf x.unit.south)).map PortSlot.filled
      north := reload (r.ports 0xE000 (r.rd 0x1B 1) (clk + 1)) x.unit.north }

/-- The writes of a unit's bridle entries at its new places. -/
def restoreWrites (l : Launch) (ys : List ((Bool × Nat) × Place)) : List (Nat × Nat × Nat) :=
  l.entryWrites ((ys.filter (fun (y : (Bool × Nat) × Place) => !y.1.1)).map (fun (y : (Bool × Nat) × Place) =>
    (y.1.2, y.2.entry)))

/-- The unit's bridle entries rewritten, its rows loaded, its packets handed to their engines (14 R360, steps 2 to 4). -/
def State.restoreUnit (s : State) (p : Nat) (l : Launch) (x : SavedUnit) (ys : List ((Bool × Nat) × Place)) : State :=
  let s1 := (s.vputs l.part l.bridle (restoreWrites l ys)).updLaunch { l with bstall := none }
  let s2 := (x.rows.zipIdx).foldl (fun (s' : State) (r : SavedRow × Nat) =>
    match ys.find? (fun (y : (Bool × Nat) × Place) => y.1 == r.1.group) with
    | some y => s'.loadRow l r.1 (s.unitRead p (x.area + BitVec.ofNat 64 (65536 * r.2))) y.2
    | none => s') s1
  let s3 := x.pkts.foldl State.bring s2
  s3.mapPart p (fun u =>
    { u with restoring := none, supDone := true
             saved := u.saved.filter (fun z => !(z.lid == x.lid && z.str == x.str)) })

/-- An earlier launch of a partition has a rig or a string not yet placed, and is placed first (10 R272, strict order). -/
def State.notFirst (s : State) (p : Nat) (l : Launch) : Bool :=
  match s.firstWaiting p with
  | some w => decide (w.order < l.order)
  | none => false

/-- A RESTORE that waits is tried: it is done where its record stands, no earlier launch is placed first, there is room,
and its entries can be written (14 R360; 10 R272, R394). -/
def State.tryRestore (s : State) (p : Nat) : State :=
  match (s.part p).restoring with
  | none => s
  | some (lid, str, area) =>
    let give (s : State) (reason : BitVec 8) : State := (s.mapPart p (fun u => { u with restoring := none })).supRefuse p reason
    match (s.part p).saved.find? (fun x => x.lid == lid && x.str == str), Sparse.get none s.launches (launchKey p lid) with
    | some x, some l =>
      let s := s.metRange p x.area (saveSize x.rows.length x.pkts.length)
      if x.area ≠ area then give s 5
      else if s.checkPages p x.area (saveSize x.rows.length x.pkts.length) .read = .wait then s
      else if !s.recordOk p x then give s 5
      else if l.bfrozen || s.notFirst p l then s
      else
        match s.fitUnit l x x.groups s.taken with
        | none => s
        | some ys =>
          if ys.any (fun (y : (Bool × Nat) × Place) => s.placesFenced [y.2] (if y.1.1 then 1 else l.slen)) then s
          else
          let s := s.metWrites l (restoreWrites l ys)
          match s.bridleGate l (restoreWrites l ys) with
          | .ok () => s.restoreUnit p l x ys
          | v => s.bridleStop l v
    | _, _ => give s 1

/-- RESTORE's acceptance (14 R354): what it was given is kept while it waits. -/
def State.restore (s : State) (p : Nat) : State :=
  let u := s.part p
  let lid := s.arg p 0
  let str : Half := (s.arg p 1).setWidth 32
  if u.pre.isSome || u.restoring.isSome then s.supRefuse p 6
  else
    (s.mapPart p (fun u => { u with restoring := some (lid, str, s.arg p 2), supDone := false, supRefused := false })).tryRestore p

/-- RESTORE (14 R354, R360). -/
def execRestore (p : Fin 8) (s : State) : Host.Outcome State Fault Refusal := .next (s.byPort (fun s => s.restore p))

end Sys2Proof.Machine
end

