-- ==== Sys2Proof/Machine/Recovery.lean ====
section
/-! DEFINITION. Recovery and reconfiguration: table updates (13 R327, R328), hash changes (07 R197), channel retirement
(14 R363, R364), die resets (14 R365), and uncorrectable SRAM errors (07 R184, 14 R346, R367). -/
namespace Sys2Proof.Machine

/-! ### Table updates (13 R325 to R328; 08 R232) -/

/-- The offset of the table at `level` on a virtual address's path, from one at `l` and offset `off`; none where a table
above is missing. -/
def State.tableAt (s : State) (base va level : Nat) : Nat → Nat → Option Nat
  | l, off =>
    if l ≤ level then some off
    else
      let e : Word := BitVec.ofNat 64 (s.hread (base + off + 8 * vaIndex va l) 8)
      if !e.getLsbD 0 || e.getLsbD 1 then none
      else
        match l with
        | 0 => none
        | m + 1 => s.tableAt base va level m (pteAddr e)

/-- Entries in a table of a level (13 R325). -/
def tableLen (level : Nat) : Nat := if level = 3 then 8192 else 512

/-- The value an update writes to entry `i` of those it covers (13 R327): OP 1 SET, 2 CLEAR, 3 SETRANGE. -/
def tuValue (op : Nat) (e : Word) (level i : Nat) : Word :=
  match op with
  | 1 => e
  | 3 => (e &&& 0xFFF0000000000FFF#64) ||| (((e &&& 0x000FFFFFFFFFF000#64) + BitVec.ofNat 64 (i * pageSize level)) &&&
      0x000FFFFFFFFFF000#64)
  | _ => 0

/-- A group of 16 level 0 entries is well formed (13 R326): all with C64, alike, and in order; or none with C64. -/
def groupOk (es : List Word) : Bool :=
  !es.any (fun e => e.getLsbD 5) ||
  (es.zipIdx).all (fun (x : Word × Nat) =>
    x.1.getLsbD 5 && (x.1 &&& ~~~0xF000#64) == (es.headD 0 &&& ~~~0xF000#64) && (x.1.extractLsb' 12 4).toNat == x.2)

/-- The update's outcome: an ERRC, or the table's offset. -/
def State.tuCheck (s : State) (p op cnt level : Nat) : Nat × Nat :=
  let u := s.part p
  let e := u.tupte
  let d := s.walker p
  let i0 := vaIndex u.tuva.toNat level
  let vals := (List.range (cnt + 1)).map (tuValue op e level)
  let leaf := e.getLsbD 1
  let set := op != 2
  let base := ((u.region d).map (fun (r : Nat × Nat) => r.1)).getD 0
  let tbl := s.tableAt base u.tuva.toNat level 3 0
  let off := tbl.getD 0
  let entry (j : Nat) : Word :=
    if i0 ≤ j ∧ j < i0 + (cnt + 1) then vals.getD (j - i0) 0 else BitVec.ofNat 64 (s.hread (base + off + 8 * j) 8)
  let groups := (List.range (tableLen 0 / 16)).filter (fun g => decide (16 * g < i0 + (cnt + 1)) && decide (i0 < 16 * g + 16))
  let regs := (List.range 8).filterMap (fun k => if u.dies.getLsbD k then u.region k else none)
  let codes : List (Nat × Bool) :=
    [(1, op == 0 || decide (3 < op) || (set && (e.extractLsb' 52 12 != 0 || e.extractLsb' 6 6 != 0)) ||
        decide (tableLen level < i0 + (cnt + 1))),
     (2, set && leaf && vals.any (fun v => pteAddr v % pageSize level != 0)),
     (3, (set && ((leaf && level == 3) || (!leaf && level == 0))) || tbl.isNone),
     (4, (set && e.getLsbD 5 && level != 0) ||
        (level == 0 && tbl.isSome && !groups.all (fun g => groupOk ((List.range 16).map (fun j => entry (16 * g + j)))))),
     (5, set && !leaf && vals.any (fun v => regs.any (fun (r : Nat × Nat) => decide (r.2 < pteAddr v + 4096)))),
     (6, set && leaf && vals.any (fun v => s.inRegion (pteAddr v) (pageSize level)))]
  ((lowest (codes.filterMap (fun (c : Nat × Bool) => if c.2 then some c.1 else none))).getD 0, off)

/-- TUCTL as it reads (13 R327). -/
def tuReg (errc : Nat) (busy : Bool) (cnt : BitVec 10) (level : BitVec 2) (op : Nat) : Half :=
  BitVec.ofNat 32 (errc * 2 ^ 28 + busy.toNat * 2 ^ 25 + cnt.toNat * 2 ^ 8 + level.toNat * 2 ^ 4 + op)

/-- Every line and bundle that the partition's cores hold is made invalid (08 R232; log 25). -/
def State.flushPart (s : State) (p : Nat) : State :=
  (coresOf (s.part p).dies).foldl (fun (s : State) c => (s.flushLines c).flushCode c) s

/-- A GO write of TUCTL (13 R327, R328): refused with an ERRC, or performed on every replica; a write while BUSY is
ignored. -/
def State.tuGo (s : State) (p op : Nat) (cnt : BitVec 10) (level : BitVec 2) : State :=
  let u := s.part p
  if u.tuctl.getLsbD 25 || !u.en then s
  else
    let (errc, off) := s.tuCheck p op cnt.toNat level.toNat
    if errc ≠ 0 then s.mapPart p (fun u => { u with tuctl := tuReg errc false cnt level op })
    else
      let i0 := vaIndex u.tuva.toNat level.toNat
      let s1 := (List.range 8).foldl (fun (s : State) d =>
        match if u.dies.getLsbD d then u.region d else none with
        | some (b, _) =>
          let at' (i : Nat) : Nat := b + off + 8 * (i0 + i)
          ((List.range (cnt.toNat + 1)).foldl (fun (s : State) i =>
            s.hwrite (at' i) 8 (tuValue op u.tupte level.toNat i).toNat) s).elide
              ((List.range (cnt.toNat + 1)).map (fun i => paSector (at' i)))
        | none => s) s
      (s1.flushPart p).mapPart p (fun u => { u with tuctl := tuReg 0 true cnt level op })

/-- TU_SET (13 R327). -/
def execTuSet (p : Fin 8) (cnt : BitVec 10) (level : BitVec 2) (s : State) : Host.Outcome State Fault Refusal :=
  .next (s.byPort (fun s => s.tuGo p 1 cnt level))
/-- TU_CLEAR (13 R327). -/
def execTuClear (p : Fin 8) (cnt : BitVec 10) (level : BitVec 2) (s : State) : Host.Outcome State Fault Refusal :=
  .next (s.byPort (fun s => s.tuGo p 2 cnt level))
/-- TU_SETRANGE (13 R327). -/
def execTuSetrange (p : Fin 8) (cnt : BitVec 10) (level : BitVec 2) (s : State) : Host.Outcome State Fault Refusal :=
  .next (s.byPort (fun s => s.tuGo p 3 cnt level))

/-- An access of the partition translated earlier has still to be performed: a FADDX contribution that waits, its master
frozen or not, for it may not be performed at its old address once the update is reported (13 R328, step 3; 08 R232;
log 25). -/
def State.tuOwed (s : State) (p : Nat) : Bool := s.contribs.any (fun c => c.part == p)

/-- TU_COMPLETE (13 R328, steps 3 and 4): BUSY clears once those accesses are performed. -/
def execTuComplete (p : Fin 8) (s : State) : Host.Outcome State Fault Refusal :=
  if s.tuOwed p then .next s
  else .next (s.mapPart p (fun u => { u with tuctl := u.tuctl &&& ~~~(1#32 <<< 25) }))

/-! ### Where a raw sector's data stands (07 R194, R195; 14 R364) -/

/-- The data sector index of a member's raw index with parity on; none at its parity sectors. -/
def dataIndex (i r : Nat) : Option Nat :=
  if r % 16 = i then none else some (15 * (r / 16) + (if r % 16 < i then r % 16 else r % 16 - 1))

/-- The stack-local address that pseudo-channel `pc` and data sector index `q` hold (07 R194). -/
def Stack.localOf (k : Stack) (pc q : Nat) : Nat :=
  (List.range 8).foldl (fun a i =>
    a + (pc.testBit i != parity (q % 2 ^ 28 &&& (vget 0 k.hmask i).toNat)).toNat * 2 ^ (5 + i)) (q * 2 ^ 13)

/-- The physical address of the data in a raw sector; none where it holds parity or nothing. -/
def State.rawPa (s : State) (raw : Nat) : Option Nat :=
  let k := raw / 2 ^ 37
  let pc := raw / 2 ^ 29 % 256
  let r := raw % 2 ^ 29
  let u := s.stack k
  let g := vget 0 u.retgrp (pc % 16)
  let m := (g.extractLsb' 0 4).toNat
  let q : Option (Nat × Nat) :=
    if g.getLsbD 7 then
      if r % 16 = pc / 16 then (dataIndex m r).map (fun q => (pc % 16 + 16 * m, q))
      else if pc / 16 = m then none
      else (dataIndex (pc / 16) r).map (fun q => (pc, q))
    else if u.par then (dataIndex (pc / 16) r).map (fun q => (pc, q))
    else some (pc, r)
  q.map (fun x => k * 2 ^ 41 + u.localOf x.1 x.2)

/-- The uncorrectable sectors of a stack that satisfy a test are met (14 R362), by their raw keys. -/
def State.meetAll (s : State) (f : Nat → Bool) : State :=
  (s.hue.filter (fun (e : Nat × Bool) => f e.1)).foldl (fun (s : State) (e : Nat × Bool) => match s.rawPa e.1 with
    | some pa => s.meetUE pa
    | none => s) s

/-! ### APPLY (07 R196, R197) -/

/-- A girth command that names the stack is queued or running. -/
def State.girthBusy (s : State) (k : Nat) : Bool :=
  (List.range 8).any (fun p =>
    (s.part p).queues.any (fun q => q.sort == 2 && q.stack == k && (q.run.isSome || decide (s.ridx q < s.widx q))) ||
    (s.part p).tasks.any (fun t => t.stack == k))

/-- An APPLY of a stack (07 R197, steps 1 and 2): ignored while one runs, refused, or BUSY is set and new accesses to the
stack wait. -/
def State.startApply (s : State) (k : Nat) : State :=
  let u := s.stack k
  if u.hBusy then s
  else if u.retBusy || s.girthBusy k || s.accums.any (fun (e : Nat × Option Accum) => e.2.isSome && paStack e.1 == k) then
    s.setStack k { u with hErr := true }
  else s.setStack k { u with hBusy := true }

/-- APPLY (07 R197). -/
def execApply (k : Fin 24) (s : State) : Host.Outcome State Fault Refusal := .next (s.byPort (fun s => s.startApply k))

/-- The table regions on a stack, each its first byte and its end. -/
def State.regionsOn (s : State) (k : Nat) : List (Nat × Nat) :=
  (List.range 8).filterMap (fun p =>
    if (s.part p).en && (s.part p).dies.getLsbD (stackDie k) then
      match (s.part p).region (stackDie k) with
      | some (b, z) => if paStack b = k then some (b, b + z) else none
      | none => none
    else none)

/-- A physical address lies in one of some ranges. -/
def inRanges (rs : List (Nat × Nat)) (pa : Nat) : Bool := rs.any (fun (r : Nat × Nat) => decide (r.1 ≤ pa) && decide (pa < r.2))

/-- The stack's bytes outside its table regions hold a new undefined filling; the regions keep theirs. -/
def State.refill (s : State) (k : Nat) : State :=
  let rs := s.regionsOn k
  let e := vget 0 s.epoch k
  let mine (x : Nat × Nat × Nat) : Bool := paStack x.1 == k
  let old := s.kept.filter mine
  let cut (r : Nat × Nat) : List (Nat × Nat × Nat) :=
    (old.filterMap (fun (x : Nat × Nat × Nat) =>
      if max r.1 x.1 < min r.2 x.2.1 then some (max r.1 x.1, min r.2 x.2.1, x.2.2) else none)) ++ [(r.1, r.2, e)]
  { s with
    kept := s.kept.filter (fun x => !mine x) ++ rs.flatMap cut
    epoch := vset s.epoch k (s.freeCtr + 1)
    freeCtr := s.freeCtr + 1
    hbm := s.hbm.filter (fun (c : Nat × Byte) => paStack c.1 != k || inRanges rs c.1)
    hpois := s.hpois.filter (fun (c : Nat × Bool) => paStack (c.1 * 32) != k || inRanges rs (c.1 * 32))
    hue := s.hue.filter (fun (c : Nat × Bool) => c.1 / 2 ^ 37 != k) }

/-- The line-cache sectors that hold a stack's data are made invalid on a partition's cores. -/
def State.dropStackLines (s : State) (p k : Nat) : State :=
  (coresOf (s.part p).dies).foldl (fun (s : State) c =>
    let u := s.core c
    s.setCore c { u with lcache := u.lcache.filter (fun (e : Nat × Option Sector) => paStack (e.1 * 32) != k) }) s

/-- APPLY_DONE (07 R197, steps 3 to 6). -/
def execApplyDone (k : Fin 24) (s : State) : Host.Outcome State Fault Refusal :=
  if !(s.stack k).hBusy then .next s
  else
    let rs := s.regionsOn k
    let s1 := s.meetAll (fun raw => raw / 2 ^ 37 == k.val && ((s.rawPa raw).map (inRanges rs)).getD false)
    let s2 := s1.refill k
    let u := s2.stack k
    let s3 := s2.setStack k { u with hmask := u.hmaskW, par := u.parW, hBusy := false }
    .next (match s3.ownerOf (stackDie k) with
      | some p => s3.dropStackLines p k
      | none => s3)

/-! ### Channel retirement (14 R363, R364) -/

/-- A GO of RETCTL (14 R363, R364): refused, or BUSY is set and the unit takes no new access. HCFG.PAR is the value last
written (07 R196); a stack with no parity in force has none to give up either (log 91). -/
def State.startRetire (s : State) (k : Nat) : State :=
  let u := s.stack k
  if !u.parW || !u.par || u.retBusy || u.hBusy || (vget 0 u.retgrp (u.pch.toNat % 16)).getLsbD 7 then s.setStack k { u with retErr := true }
  else s.setStack k { u with retBusy := true, retiring := u.pch }

/-- RETIRE_GO (14 R363, R364). -/
def execRetireGo (k : Fin 24) (s : State) : Host.Outcome State Fault Refusal := .next (s.byPort (fun s => s.startRetire k))

/-- RETIRE_SWITCH (14 R364, steps 3 to 5): the member's sectors stand in their stripes' parity sectors; accumulators move
with their addresses. -/
def execRetireSwitch (k : Fin 24) (s : State) : Host.Outcome State Fault Refusal :=
  if !(s.stack k).retBusy then .next s
  else
    let pc := (s.stack k).retiring.toNat
    let here (raw : Nat) : Bool := raw / 2 ^ 37 == k.val && raw / 2 ^ 29 % 256 == pc
    let parityOf (raw : Nat) : Bool :=
      raw / 2 ^ 37 == k.val && raw / 2 ^ 29 % 16 == pc % 16 && raw / 2 ^ 29 % 256 / 16 == raw % 16
    let s1 := s.meetAll here
    let s2 := { s1 with hue := s1.hue.filter (fun (c : Nat × Bool) => !here c.1 && !parityOf c.1) }
    let u := s2.stack k
    let s3 := s2.setStack k
      { u with retBusy := false, retgrp := vset u.retgrp (pc % 16) (BitVec.ofNat 8 (0x80 + pc / 16)) }
    .next (s3.addDieEv (stackDie k) { type := 4, die := stackDie k, stack := k, pch := pc })

/-- PEER_RETRY_RESEND (14 R364): an access answered RETRY is sent again, and awaits its next answer. -/
def execPeerRetryResend (s : State) : Host.Outcome State Fault Refusal :=
  .next { s with peerReplies := s.peerReplies.erase .retry }

/-! ### Die resets (14 R365) -/

/-- A seat's launch has lost a row: nothing more of it is placed, its reservations on the die are released, and it will end
as KILLED (14 R365; 13 R334, step 4). -/
def State.loseLaunch (s : State) (d key : Nat) : State :=
  match Sparse.get none s.launches key with
  | some l => s.updLaunch { l with killed := true, lost := l.lost ||| (1#8 <<< d) }
  | none => s

/-- Steps 1 and 2 of a reset: the die is fenced, and the rows on it are removed. -/
def State.startReset (s : State) (d : Nat) (therm : Bool) : State :=
  if (s.die d).reset.isSome then s
  else
    let s1 := { s.setDie d { s.die d with reset := some (s.time.toNat, therm), resetDone := false } with
      fenced := s.fenced ||| (1#8 <<< d) }
    let gone := s1.seats.filter (fun (e : Nat × Seat) => e.2.resident && sidCore e.1 / 8 == d)
    let keys := (gone.map (fun (e : Nat × Seat) => launchKey e.2.bind.part e.2.bind.lid)).eraseDups
    let s2 := keys.foldl (fun (s : State) k => s.loseLaunch d k) s1
    let s3 := (gone.map (fun (e : Nat × Seat) => e.1)).foldl State.removeRow s2
    let s4 := keys.foldl (fun (s : State) k => s.emptyBins k ((List.range 8).map (fun i => 8 * d + i))) s3
    keys.foldl State.finish s4

/-- DIERESET (14 R365): of a die that the partition owns. -/
def execDiereset (p : Fin 8) (s : State) : Host.Outcome State Fault Refusal :=
  .next (s.byPort (fun s =>
    let d := (s.arg p 0).toNat
    if d < 8 ∧ (s.part p).en ∧ (s.part p).dies.getLsbD d then s.startReset d false else s))

/-- DIE_FAULT (14 R365). -/
def execDieFault (d : Fin 8) (s : State) : Host.Outcome State Fault Refusal := .next (s.startReset d false)

/-- The neighbours of severed strings (14 R365, step 3; 06 R176): rows at the die's edges on the dies above and below. -/
def State.sever (s : State) (d : Nat) : State :=
  (List.range 8).foldl (fun (s : State) i =>
    let above := (8 * d + i - 8) * 64 + 63
    let below := (8 * d + i + 8) * 64
    let s1 :=
      if d % 4 ≠ 0 ∧ (s.seat (above * 4)).resident ∧ (s.seat (above * 4)).bind.ports ∧ !(s.seat (above * 4)).isTail then
        s.setRow above { s.row above with severedS := true }
      else s
    if d % 4 ≠ 3 ∧ (s1.seat (below * 4)).resident ∧ (s1.seat (below * 4)).bind.ports ∧ !(s1.seat (below * 4)).isHead then
      s1.setRow below { s1.row below with severedN := true }
    else s1) s

/-- The die's scratchpad, caches, bins, ports and queues as a reset leaves them (07 R184; 14 R365, step 4). -/
def State.wipeDie (s : State) (d : Nat) : State :=
  let s1 := { s with
    spad := Sparse.clear (fun k => k / 2 ^ 24 / 8 == d) s.spad
    absent := Sparse.clear (fun l => l / 2 ^ 17 / 8 == d) s.absent
    spois := Sparse.clear (fun l => l / 2 ^ 17 / 8 == d) s.spois
    rows := Sparse.clear (fun k => k / 64 / 8 == d) s.rows
    seats := Sparse.clear (fun k => k / 256 / 8 == d) s.seats
    accums := Sparse.clear (fun a => stackDie (paStack a) == d) s.accums }
  (List.range 8).foldl (fun (s : State) i =>
    let u := s.core (8 * d + i)
    s.setCore (8 * d + i) { u with lcache := [], icache := [], bins := vrep 16 {}, serial := [], idleNext := 0 }) s1

/-- Contributions that wait at the die's units are lost, their issuers acknowledged; a record counts them (14 R365, step
3). -/
def State.loseWrites (s : State) (d : Nat) : State :=
  let lost := s.contribs.filter (fun c => stackDie (paStack c.addr) == d)
  let s1 := lost.foldl (fun (s : State) c => match c.who with
    | .peer _ _ _ va => s.ackAt c.part va (.data 0) 0
    | _ => s) { s with contribs := s.contribs.filter (fun c => stackDie (paStack c.addr) != d) }
  if lost = [] then s1 else s1.addDieEv d { type := 6, die := d, count := lost.length }

/-- Packets of the die's copy engines that have rows left halt their queues (14 R365, step 2). -/
def State.haltEngines (s : State) (d : Nat) : State :=
  s.packets.foldl (fun (s : State) (e : Nat × Option Packet) => match e.2 with
    | some k =>
      match k.core with
      | some c => if c / 8 = d ∧ k.row < pktRows k.pkt ∧ !k.fault then s.rowStop e.1 k (.code 0x0C : Verdict Unit) else s
      | none => s
    | none => s) s

/-- One sector copied to another with its poison mark, an error of the first being met (14 R362). -/
def State.copySector (s : State) (dst src : Nat) : State :=
  let s1 := s.meetUE src
  let s2 := (List.range 32).foldl (fun (s : State) i => s.hput (dst + i) (s.hbyte (src + i))) s1
  let s3 := s2.setSecPois dst (s2.secPois src)
  ({ s3 with hue := Sparse.set false s3.hue (s3.rawOf dst) false } : State).elide [paSector src, paSector dst]

/-- A surviving die's replica of the tables copied into the die's region (14 R365, step 5). -/
def State.rebuildTables (s : State) (d : Nat) : State :=
  match s.ownerOf d with
  | none => s
  | some p =>
    let u := s.part p
    match u.region d, (List.range 8).find? (fun e => e != d && u.dies.getLsbD e && !s.fenced.getLsbD e) with
    | some (b, z), some e =>
      match u.region e with
      | some (b', z') => (List.range (min z z' / 32)).foldl (fun (s : State) i => s.copySector (b + 32 * i) (b' + 32 * i)) s
      | none => s
    | _, _ => s

/-- A die's power levels at power-on, after a scrub and after a reset, and its cores' clocks with them (21 R384). -/
def State.freshDie (s : State) (d : Nat) : State :=
  (List.range 8).foldl (fun (s : State) i =>
    let c := 8 * d + i
    s.setCore c { s.core c with freq := s.tableMHz c, budget := 384, next := none })
    (s.setDie d { s.die d with l := 0, q := 0, bst := 0, cappedPrev := true, first := true })

/-- CLKC counts from the die's reset (09 R247), and no droop window of the clocks before it stands. -/
def State.zeroClocks (s : State) (d : Nat) : State :=
  (List.range 8).foldl (fun (s : State) i =>
    let c := 8 * d + i
    s.setCore c { s.core c with
      clkc := 0, phase := 0, stretchFrom := 0, stretchUntil := 0, halveFrom := 0, halveUntil := 0 }) s

/-- The fence lifts, with its record (14 R365, step 6). -/
def State.rejoin (s : State) (d t0 : Nat) (therm : Bool) : State :=
  let now := s.time.toNat
  let dur := min ((now - t0) / 1000) (2 ^ 31 - 1)
  let s0 := s.freshDie d
  let s1 := { s0.setDie d { s0.die d with reset := none, resetDone := false, tripped := false } with
    fenced := s.fenced &&& ~~~(1#8 <<< d) }
  s1.addDieEv d
    { type := 5, die := d, detail := BitVec.ofNat 64 (t0 / 1000 % 2 ^ 32 * 2 ^ 32 + therm.toNat * 2 ^ 31 + dur) }

/-- A contribution into the die or out of it, by where it lies and the row that issued it. -/
def Contrib.crosses (c : Contrib) (d : Nat) : Bool :=
  stackDie (paStack c.addr) == d || (match c.who with
    | .row sid _ => sidCore sid / 8 == d
    | .peer _ _ _ _ => false)

/-- What was accepted before the fence is performed: no contribution into or out of the die waits, and nothing that the
die's engines have accepted moves any more (14 R365, step 2). -/
def State.quiet (s : State) (d : Nat) : Bool :=
  !s.contribs.any (fun c => c.crosses d) &&
  !s.packets.any (fun (e : Nat × Option Packet) => match e.2 with
    | some k => (k.core.map (fun c => c / 8 == d)).getD false && decide (k.row < pktRows k.pkt) && !k.fault
    | none => false)

/-- DIE_RESET_FORCE (14 R365, steps 3 to 6): at T0 + 100 µs, or once the die is quiet. A tripped die rejoins later (21
R388). -/
def execDieResetForce (d : Fin 8) (s : State) : Host.Outcome State Fault Refusal :=
  match (s.die d).reset with
  | none => .next s
  | some (t0, therm) =>
    if (s.die d).resetDone || !(s.quiet d || decide (t0 + 100000 ≤ s.time.toNat)) then .next s
    else
      let s1 := (((((s.haltEngines d).sever d).loseWrites d).wipeDie d).zeroClocks d).rebuildTables d
      .next (if therm then s1.setDie d { s1.die d with resetDone := true } else s1.rejoin d t0 therm)

/-! ### Uncorrectable SRAM errors (07 R184; 14 R346, R367) -/

/-- The part that an error meets is poisoned. -/
def State.spoil (s : State) : SramPlace → State
  | .spad c l => s.setPois (c * 2 ^ 17 + l) true
  | .x sid n l =>
    let t := s.seat sid
    if t.resident then s.setSeat sid { t with xpois := vset t.xpois n (vget 0 t.xpois n ||| (1#64 <<< l.val)) } else s
  | .s sid n =>
    let t := s.seat sid
    if t.resident then s.setSeat sid { t with spois := t.spois ||| (1#31 <<< n.val) } else s
  | .m sid n =>
    let t := s.seat sid
    if t.resident then s.setSeat sid { t with mpois := t.mpois ||| (1#8 <<< n.val) } else s
  | .cb sid n =>
    let t := s.seat sid
    if t.resident then s.setSeat sid { t with cbpois := t.cbpois ||| (1#4 <<< n.val) } else s
  | .acc sid n l =>
    let t := s.seat sid
    if t.resident then s.setSeat sid { t with accpois := vset t.accpois n (vget 0 t.accpois n ||| (1#64 <<< l.val)) } else s
  | .latch sid k l =>
    let t := s.seat sid
    if !t.resident then s
    else
      match vget .invalid t.lat k with
      | .invalid => s
      | .scalar _ => s.setSeat sid { t with latpois := vset t.latpois k (BitVec.allOnes 64) }
      | .lane _ => s.setSeat sid { t with latpois := vset t.latpois k (vget 0 t.latpois k ||| (1#64 <<< l.val)) }
  | .south k e l =>
    let r := s.row k
    match r.south[e.val]? with
    | some (.filled x) => s.setRow k { r with south := r.south.set e (.filled { x with pois := x.pois ||| (1#64 <<< l.val) }) }
    | _ => s
  | .north k e l =>
    let r := s.row k
    match r.north[e.val]? with
    | some x => s.setRow k { r with north := r.north.set e { x with pois := x.pois ||| (1#64 <<< l.val) } }
    | none => s
  | .cache c => (s.flushLines c).flushCode c

/-- The die of a place. -/
def placeDie : SramPlace → Nat
  | .spad c _ => c / 8
  | .x sid _ _ => sid / 256 / 8
  | .s sid _ => sid / 256 / 8
  | .m sid _ => sid / 256 / 8
  | .cb sid _ => sid / 256 / 8
  | .acc sid _ _ => sid / 256 / 8
  | .latch sid _ _ => sid / 256 / 8
  | .south k _ _ => k / 64 / 8
  | .north k _ _ => k / 64 / 8
  | .cache c => c / 8

/-- SRAM_UE (07 R184; 14 R346, R361, R367): the part is poisoned; an error under a trial is the voltage controller's, any
other is counted, and a line's recorded. -/
def execSramUe (place : SramPlace) (s : State) : Host.Outcome State Fault Refusal :=
  let d := placeDie place
  let s1 := s.spoil place
  if (s.die d).trial then .next { s1 with agenda := .event (.uvAbort (Fin.ofNat 8 d)) :: s1.agenda }
  else
    let s2 := s1.setDie d { s1.die d with health := (s1.die d).health + 1 }
    .next (match place with
      | .spad c l => s2.addDieEv d { type := 1, die := d, addr := BitVec.ofNat 64 (c * 2 ^ 24 + l * 128) }
      | _ => s2)

end Sys2Proof.Machine
end

