-- ==== Sys2Proof/Machine/Partition.lean ====
section
/-! DEFINITION. Partitions: forming, scrubbing and dissolving them (13 R320, R321, R324), their registers (00 R10 and the
rules that lay them out), and accesses from the control node and from peers (13 R336 to R338). -/
namespace Sys2Proof.Machine

/-! ### PARTCFG (13 R320, R321, R324) -/

/-- The dies joined to a die of a set by a boundary between members (13 R321). -/
def joinedTo (dies : BitVec 8) (d : Nat) : List Nat :=
  ((if d % 4 ≠ 3 then [d + 1] else []) ++ (if d % 4 ≠ 0 then [d - 1] else []) ++ (if d < 4 then [d + 4] else [d - 4])).filter
    (fun e => dies.getLsbD e)

/-- The dies reached from those in a mask, one step further. -/
def reachStep (dies m : BitVec 8) : BitVec 8 :=
  (List.range 8).foldl (fun x d =>
    if m.getLsbD d then (joinedTo dies d).foldl (fun x e => x ||| (1#8 <<< e)) x else x) m

/-- A set of dies is connected (13 R321). -/
def connected (dies : BitVec 8) : Bool :=
  match (List.range 8).find? (fun d => dies.getLsbD d) with
  | none => false
  | some d => (List.range 8).foldl (fun m _ => reachStep dies m) (1#8 <<< d) == dies

/-- The fields of a PARTCFG write. -/
def cfgDies (w : Word) : BitVec 8 := w.extractLsb' 0 8
def cfgKeel (w : Word) : BitVec 16 := w.extractLsb' 8 16
def cfgSpan (w : Word) : BitVec 16 := w.extractLsb' 24 16

/-- A region register configures a region on its die's own stacks (13 R326). -/
def Part.regionSet (u : Part) (d : Nat) : Bool :=
  match u.region d with
  | some (b, _) => stackDie (paStack b) == d
  | none => false

/-- A write that sets EN is refused (13 R320). -/
def State.enableBad (s : State) (p : Nat) (w : Word) : Bool :=
  cfgDies w == 0 ||
  (List.range 8).any (fun q => q != p && (s.part q).en &&
    ((s.part q).dies &&& cfgDies w != 0 || (s.part q).keel &&& cfgKeel w != 0 || (s.part q).span &&& cfgSpan w != 0)) ||
  !connected (cfgDies w) ||
  (List.range 8).any (fun d => (cfgDies w).getLsbD d && !(s.part p).regionSet d)

/-- A die scrubbed (13 R324). -/
def State.scrub (s : State) (d : Nat) : State :=
  let mine (k : Nat) : Bool := stackDie k == d
  let s1 := s.wipeDie d
  let s2 := { s1 with
    hbm := Sparse.clear (fun a => mine (paStack a)) s1.hbm
    hpois := Sparse.clear (fun c => mine (paStack (c * 32))) s1.hpois
    hue := Sparse.clear (fun r => mine (r / 2 ^ 37)) s1.hue
    kept := s1.kept.filter (fun (x : Nat × Nat × Nat) => !mine (paStack x.1))
    epoch := tab 24 (fun k => if mine k then 0 else vget 0 s1.epoch k)
    hbmStacks := tab 24 (fun k => if mine k then { s1.stack k with hmask := ({} : Stack).hmask, hmaskW := ({} : Stack).hmaskW }
      else s1.stack k) }
  s2.freshDie d

/-- A PARTCFG write that sets EN (13 R320, R324): a refusal sets ERR. -/
def State.enable (s : State) (p : Nat) (w : Word) : State :=
  if (s.part p).en then s
  else if s.enableBad p w then s.mapPart p (fun u => { u with err := true })
  else
    let s1 := (List.range 8).foldl (fun (s : State) d =>
      if (cfgDies w).getLsbD d then
        let s' := match (s.die d).owner with
          | some q => if q = p then s else s.scrub d
          | none => s
        s'.setDie d { s'.die d with owner := some p }
      else s) s
    s1.mapPart p (fun u => { u with en := true, dies := cfgDies w, keel := cfgKeel w, span := cfgSpan w })

/-- The partition has work: a launch, a queued or accepted packet, a frozen master, or an open accumulator (13 R320). -/
def State.partBusy (s : State) (p : Nat) : Bool :=
  let u := s.part p
  s.launches.any (fun (e : Nat × Option Launch) => (e.2.map (fun l => l.part == p)).getD false) ||
  u.queues.any (fun q => decide (s.ridx q < s.widx q) || q.frozen || q.run.isSome) ||
  s.packets.any (fun (e : Nat × Option Packet) => (e.2.map (fun k => k.part == p)).getD false) ||
  !u.spanFrozen.isEmpty || !u.tasks.isEmpty || u.counters.any (fun (e : Nat × Counter) => e.2.frozen) ||
  s.accums.any (fun (e : Nat × Option Accum) => e.2.isSome && u.dies.getLsbD (stackDie (paStack e.1)))

/-- A PARTCFG write that clears EN (13 R320). The partition's queue registrations end with it: they name pages of dies that
it no longer owns (13 R323; log 100). -/
def State.disable (s : State) (p : Nat) : State :=
  if s.partBusy p then s
  else s.mapPart p (fun u => { u with en := false, queues := [], rot := 0 })

/-- PARTITION_DISABLE (13 R320). -/
def execPartitionDisable (p : Fin 8) (s : State) : Host.Outcome State Fault Refusal := .next (s.byPort (fun s => s.disable p))

/-- A write changes a field that cannot be written while EN is set (13 R320). -/
def Part.fieldsMove (u : Part) (w : Word) : Bool := u.dies != cfgDies w || u.keel != cfgKeel w || u.span != cfgSpan w

/-- A PARTCFG write by the control node: ignored whole where EN is set and it changes DIES, KEEL or SPAN (13 R320). A 1 written to
ERR clears it before EN is looked at, whatever else the write does (00 R10). -/
def State.writePartcfg (s : State) (p : Nat) (w : Word) : State :=
  if (s.part p).en && (s.part p).fieldsMove w then s
  else
    let s1 := if w.getLsbD 41 then s.mapPart p (fun u => { u with err := false }) else s
    match (s1.part p).en, w.getLsbD 40 with
    | false, true => s1.enable p w
    | true, false => s1.disable p
    | true, true => s1
    | false, false => s1.mapPart p (fun u => { u with dies := cfgDies w, keel := cfgKeel w, span := cfgSpan w })

/-- PARTITION_ENABLE (13 R320): a PARTCFG write whose EN is 1. -/
def execPartitionEnable (p : Fin 8) (w : Word) (s : State) : Host.Outcome State Fault Refusal :=
  .next (s.byPort (fun s => s.writePartcfg p (w ||| 1#64 <<< 40)))

/-! ### PWRSHARE (21 R385) -/

/-- The sum of SHARE over enabled partitions, partition `p`'s being `w`. -/
def State.shareSum (s : State) (p : Nat) (w : BitVec 40) : Nat :=
  (List.range 8).foldl (fun n q =>
    if (s.part q).en then n + (if q = p then w else (s.part q).pwrshare).toNat else n) 0

/-- A write of PWRSHARE: refused where the sum would go above MODMLIM. -/
def State.writeShare (s : State) (p : Nat) (w : Word) : State :=
  if Config.modMlim < s.shareSum p (w.setWidth 40) then s.mapPart p (fun u => { u with pwrErr := true })
  else s.mapPart p (fun u => { u with pwrshare := w.setWidth 40, pwrErr := u.pwrErr && !w.getLsbD 41 })

/-- PWRSHARE_WRITE (21 R385). -/
def execPwrshareWrite (p : Fin 8) (w : Word) (s : State) : Host.Outcome State Fault Refusal :=
  .next (s.byPort (fun s => s.writeShare p w))

/-! ### Registers (00 R10) -/

/-- Records of a ring read up to a count: those unread, those read, of which the ring can still hold the last 64, and the
count (13 R332; 14 R361). -/
def readTo {α : Type} (ring old : List α) (tail head n : Nat) : List α × List α × Nat :=
  if tail ≤ n ∧ n ≤ head then
    let all := old ++ ring.take (n - tail)
    (ring.drop (n - tail), all.drop (all.length - 64), n)
  else (ring, old, tail)

/-- TUCTL written (13 R327): GO starts an update; without it the fields change, ERRC stays. -/
def State.writeTuctl (s : State) (p : Nat) (v : Word) : State :=
  let u := s.part p
  let cnt : BitVec 10 := v.extractLsb' 8 10
  let level : BitVec 2 := v.extractLsb' 4 2
  let op := (v.extractLsb' 0 3).toNat
  if u.tuctl.getLsbD 25 then s
  else if v.getLsbD 24 then s.tuGo p op cnt level
  else s.mapPart p (fun u => { u with tuctl := tuReg (u.tuctl.extractLsb' 28 4).toNat false cnt level op })

/-- The partition exists and owns a die, or the die of a stack (13 R320; 07 R196). -/
def State.ownsDie (s : State) (p d : Nat) : Bool := (s.part p).en && (s.part p).dies.getLsbD d
def State.ownsStack (s : State) (p k : Nat) : Bool := s.ownsDie p (stackDie k)

/-- HCFG written (07 R196): ERR is cleared by 1, PAR is kept for the APPLY that bit 1 starts; ignored while BUSY. -/
def State.writeHcfg (s : State) (k : Nat) (v : Word) : State :=
  let u := s.stack k
  if u.hBusy then s
  else
    let s1 := s.setStack k { u with parW := v.getLsbD 0, hErr := u.hErr && !v.getLsbD 3 }
    if v.getLsbD 1 then s1.startApply k else s1

/-- RETCTL written (14 R363): PCH is stored whatever runs, and a retirement in progress keeps the one it began with. -/
def State.writeRetctl (s : State) (k : Nat) (v : Word) : State :=
  let u := s.stack k
  let s1 := s.setStack k { u with pch := v.extractLsb' 8 8, retErr := u.retErr && !v.getLsbD 3 }
  if v.getLsbD 1 then s1.startRetire k else s1

/-- A counter's status word written (12 R311): ERR and FROZEN are cleared by 1. -/
def State.writeCounter (s : State) (p n : Nat) (v : Word) : State :=
  let s1 := if v.getLsbD 2 then s.setCounter p n { s.counter p n with err := false } else s
  if v.getLsbD 3 then s1.clearFrozen p n else s1

/-- A register of a partition's configuration space, or of the management block, written with its reserved bits dropped
(00 R10). -/
def State.writeReg (s : State) (p : Nat) (r : Reg) (v : Word) : State :=
  match r with
  | .leasecfg =>
    let n := v.setWidth 8
    if n = 0 ∨ 128 < n.toNat then s else s.mapPart p (fun u => { u with leaseLen := n })
  | .spawncfg => s.mapPart p (fun u => { u with bint := max 64 (v.setWidth 16).toNat })
  | .tvecdef => s.mapPart p (fun u => { u with tvecdef := v &&& ~~~15#64 })
  | .tregion d =>
    if (s.part p).en then s else s.mapPart p (fun u => { u with tregion := vset u.tregion d (v &&& 0x7FFFFC00000F#64) })
  | .tuva => if (s.part p).tuctl.getLsbD 25 then s else s.mapPart p (fun u => { u with tuva := v })
  | .tupte => if (s.part p).tuctl.getLsbD 25 then s else s.mapPart p (fun u => { u with tupte := v })
  | .tuctl => s.writeTuctl p v
  | .ogrant n => s.mapPart p (fun u => { u with ogrant := vset u.ogrant n (v &&& 0xC0000007FFFFFFFF#64) })
  | .igrant n => s.mapPart p (fun u => { u with igrant := vset u.igrant n (v &&& 0xC0000007FFFFFFFF#64) })
  | .suparg i => s.mapPart p (fun u => { u with suparg := vset u.suparg i v })
  | .supstat => s.mapPart p (fun u =>
      { u with supDone := u.supDone && !v.getLsbD 1, supRefused := u.supRefused && !v.getLsbD 2 })
  | .vtail => s.mapPart p (fun u =>
      let x := readTo u.vring u.vold u.vtail u.vhead v.toNat
      { u with vring := x.1, vold := x.2.1, vtail := x.2.2 })
  | .etail => s.mapPart p (fun u =>
      let x := readTo u.ering u.eold u.etail u.ehead v.toNat
      { u with ering := x.1, eold := x.2.1, etail := x.2.2 })
  | .counter n => s.writeCounter p n v
  | .hmask k i =>
    if (s.stack k).hBusy || !s.ownsStack p k then s
    else s.setStack k { s.stack k with hmaskW := vset (s.stack k).hmaskW i (v.setWidth 28) }
  | .hcfg k => if s.ownsStack p k then s.writeHcfg k v else s
  | .retctl k => if s.ownsStack p k then s.writeRetctl k v else s
  | .pwrctl d =>
    if s.ownsDie p d then s.setDie d { s.die d with boosten := v.getLsbD 63, mlim := v.setWidth 40 } else s
  | .droopth c =>
    if !s.ownsDie p (c / 8) then s
    else
      let u := s.core c
      let th := (v.setWidth 8).toNat
      s.setCore c { u with droopEn := v.getLsbD 8, droopTh := if 2 ≤ th ∧ th ≤ 40 then th else u.droopTh }
  | .partcfg => s.writePartcfg p v
  | .pwrshare => s.writeShare p v

/-- REGISTER_WRITE (00 R10), by the control port (13 R336). -/
def execRegisterWrite (p : Fin 8) (r : Reg) (v : Word) (s : State) : Host.Outcome State Fault Refusal :=
  .next (s.byPort (fun s => s.writeReg p r v))

/-! ### The control node's accesses (13 R336; 08 R221) -/

/-- CONTROL_NODE_ACCESS (13 R336): refused to the control node where the partition does not exist, or its page is not
present, forbids it, or is fenced or poisoned; no master freezes. One that must wait is brought again (log 9). -/
def execControlNodeAccess (p : Fin 8) (va : Word) (size : Fin 4) (wr : Option Word) (s : State) :
    Host.Outcome State Fault Refusal :=
  let n := 2 ^ size.val
  if !s.commanded || !(s.part p).en || decide (va.toNat % n ≠ 0) then .next (s.answer .refused)
  else
    let s := s.metWalks p [va]
    match s.xlate p (s.walker p) va (if wr.isSome then .write else .read) with
    | .wait => .next s
    | .mem pa _ =>
      if s.held pa then .next s
      else if s.fenced.getLsbD (stackDie (paStack pa)) then .next (s.answer .refused)
      else
        match wr with
        | some v => .next ((s.puts none [(pa, n, v.toNat)]).answer .done)
        | none =>
          let s1 := (s.meetUE pa).elide [paSector pa]
          if s1.secPois pa then .next (s1.answer .refused)
          else .next (s1.answer (.data (BitVec.ofNat 64 (s1.hread pa n))))
    | _ => .next (s.answer .refused)

/-! ### Inbound peers (13 R337, R338; 07 R191) -/

/-- The access writes. -/
def peerWrites : PeerOp → Bool
  | .load _ => false
  | _ => true

/-- Bytes of the access. -/
def peerSize : PeerOp → Nat
  | .load z => 2 ^ (z.val % 4)
  | .store z _ _ => 2 ^ (z.val % 4)
  | .atomic _ ty _ => tyBits ty / 8
  | .cas ty _ _ => tyBits ty / 8

/-- Some grant admits a frame (13 R338). -/
def Part.admits (u : Part) (link : Nat) (dev : BitVec 16) (src : BitVec 3) (write : Bool) : Bool :=
  (List.range 128).any (fun i =>
    let g := vget 0 u.igrant i
    g.getLsbD 63 && (!write || g.getLsbD 62) && g.extractLsb' 16 16 == dev && g.extractLsb' 32 3 == src &&
      (grantLinks u g).getLsbD link)

/-- A peer is answered. -/
def State.reply (s : State) (p : Nat) (va : Word) (r : PeerReply) : State := { s with spanIn := s.spanIn ++ [(p, va, r)] }

/-- The inbound flow from a peer device freezes (13 R331, R332). -/
def State.freezeSpan (s : State) (p link : Nat) (dev : BitVec 16) (src : BitVec 3) (code : Nat) (va : Word) : State :=
  (s.mapPart p (fun u => { u with spanFrozen := u.spanFrozen ++ [(link, dev.toNat)] })).addVio p
    { code := code, mkind := 3, codes := codeBit code
      mid := BitVec.ofNat 32 (link + dev.toNat * 2 ^ 4 + src.toNat * 2 ^ 20), owner := 0, pc := 0, addr := va, lanes := 0
      time := s.time, slot := 0, lvl := false }

/-- The access performed at its home, with its answer: a write's comes once TIME has reached its GWCT and 4 ns, and a
FADDX contribution's after it has been performed (08 R217). A store of a copy's poisoned data leaves the sector poisoned
(07 R199). -/
def State.peerPerform (s : State) (p : Nat) (who : Master) (va : Word) (pa : Nat) (nc : Bool) (op : PeerOp) : State :=
  let n := peerSize op
  let old := s.hread pa n
  let due := s.gwct (leased pa nc) + 4
  match op with
  | .load _ => (s.elide [paSector pa]).reply p va (.data (BitVec.ofNat 64 old))
  | .store _ v bad =>
    let s1 := s.puts none [(pa, n, v.toNat)]
    (if bad then s1.setSecPois pa true else s1).ackAt p va (.data 0) due
  | .atomic f ty v =>
    if f = 9 then
      s.arrive { addr := pa, v := v.setWidth 32, sid := none, who := who, part := p, since := s.time.toNat, nc := nc }
    else
      (s.puts none [(pa, n, atomNew f.toNat ty old (v.toNat % 2 ^ tyBits ty))]).ackAt p va (.data (BitVec.ofNat 64 old)) due
  | .cas ty c v =>
    (s.puts none [(pa, n, update true 7 ty old (v.toNat % 2 ^ tyBits ty) (c.toNat % 2 ^ tyBits ty))]).ackAt p va
      (.data (BitVec.ofNat 64 old)) due

/-- PEER_ACCESS_INBOUND (13 R338): dropped and counted on a link not granted; refused, freezing its source; or performed.
No frame comes over a link that is not UP (21 R393); a source that is frozen, and an access to a stack whose hash is being
changed, waits, and is brought again (log 9). -/
def execPeerAccessInbound (link : Fin 16) (dev : BitVec 16) (src : BitVec 3) (p : Fin 8) (va : Word) (op : PeerOp) (s : State) :
    Host.Outcome State Fault Refusal :=
  let u := s.part p
  let write := peerWrites op
  let who := Master.peer link dev src va
  if !(vget {} s.module.links link).up then .next s
  else if !u.en || !u.span.getLsbD link then .next (s.mapModule (fun m => { m with dropped := m.dropped + 1 }))
  else if u.spanFrozen.contains (link.val, dev.toNat) then .next s
  else if !u.admits link dev src write || va.getLsbD 63 then
    .next ((s.freezeSpan p link dev src vPARTITION_BOUND va).reply p va .refused)
  else
    let s := s.metWalks p [va]
    match s.xlate p (s.walker p) va (if write then .write else .read) with
    | .vio c => .next ((s.freezeSpan p link dev src c va).reply p va (.violation c))
    | .absent | .poison => .next (s.reply p va .pageFault)
    | .mem pa nc =>
      let d := stackDie (paStack pa)
      if s.fenced.getLsbD d then .next (s.reply p va (.fenced d))
      else if (s.stack (paStack pa)).hBusy then .next s
      else if s.held pa then .next (s.reply p va .retry)
      else
        match op with
        | .store _ _ _ => .next (s.peerPerform p who va pa nc op)
        | _ =>
          let s1 := s.meetUE pa
          if s1.secPois pa then .next (s1.reply p va .poison) else .next (s1.peerPerform p who va pa nc op)
    | _ => .next s

end Sys2Proof.Machine
end

