-- ==== Sys2Proof/Machine/Readout.lean ====
section
/-! DEFINITION. What can be read of the module from outside: the registers of the configuration spaces and of the
management block (00 R10 and the rules that lay them out), the rings (13 R332; 14 R361), the speed table (11 R288), the
records (21 R381), and who may read them (13 R320, R336; 21 R381, R390, R393). -/
namespace Sys2Proof.Machine

/-! ### Words -/

/-- A bit, and a number, at a place of a word. -/
def bitAt (b : Bool) (o : Nat) : Nat := b.toNat * 2 ^ o
def numAt (n w o : Nat) : Nat := n % 2 ^ w * 2 ^ o

/-- One word, as what a read answers: those after it are zero. -/
def word1 (n : Nat) : Vector Word 8 := tab 8 (fun i => if i = 0 then BitVec.ofNat 64 n else 0)
/-- Some words, those after them zero. -/
def wordsOf (ws : List Word) : Vector Word 8 := tab 8 (fun i => ws.getD i 0)

/-- A violation record's 64 bytes (13 R332). -/
def VioRec.words (r : VioRec) : Vector Word 8 :=
  wordsOf [BitVec.ofNat 64 (numAt r.code 8 0 + numAt r.mkind 8 8 + numAt r.codes.toNat 16 16 + numAt r.mid.toNat 32 32),
    r.owner, r.pc, r.addr, r.lanes, r.time, BitVec.ofNat 64 (numAt r.slot 8 0 + bitAt r.lvl 8)]

/-- A record of the event ring (14 R361). -/
def EvRec.words (r : EvRec) : Vector Word 8 :=
  wordsOf [BitVec.ofNat 64 (numAt r.type 8 0 + numAt r.die 8 8 + numAt r.stack 8 16 + numAt r.pch 8 24 + numAt r.count 32 32),
    r.addr, r.time, r.detail]

/-- The record in slot `i` of a ring of 64 that `head` records have been written to: the last whose number is `i` modulo 64
(log 92). -/
def ringSlot {α : Type} (all : List α) (head i : Nat) : Option α := if head = 0 then none else all.reverse[(head + 63 - i) % 64]?

/-! ### Registers (00 R10) -/

/-- SUPSTAT (14 R354). -/
def Part.supstat (u : Part) : Nat :=
  bitAt (u.pre.isSome || u.restoring.isSome) 0 + bitAt u.supDone 1 + bitAt u.supRefused 2 + numAt u.supReason.toNat 8 8

/-- PARTCFG (13 R320). -/
def Part.cfg (u : Part) : Nat :=
  u.dies.toNat + numAt u.keel.toNat 16 8 + numAt u.span.toNat 16 24 + bitAt u.en 40 + bitAt u.err 41

/-- A counter's status word (12 R311). -/
def Counter.statusWord (c : Counter) : Nat :=
  bitAt c.armed 0 + bitAt c.issued 1 + bitAt c.err 2 + bitAt c.frozen 3 + numAt c.count 24 16

/-- HCFG (07 R196) and RETCTL (14 R363); APPLY and GO read zero. -/
def Stack.hcfg (u : Stack) : Nat := bitAt u.parW 0 + bitAt u.hBusy 2 + bitAt u.hErr 3
def Stack.retctl (u : Stack) : Nat := bitAt u.retBusy 2 + bitAt u.retErr 3 + numAt u.pch.toNat 8 8

/-- LINKSTAT (21 R393). -/
def Link.stat (l : Link) : Nat :=
  bitAt l.up 0 + bitAt l.train 1 + numAt l.downs 8 8 + numAt l.retry 16 32 + numAt l.peerdev.toNat 16 48

/-- UVSTAT (14 R366). -/
def Die.uvstat (u : Die) : Nat := bitAt u.trial 0 + numAt u.safeVid.toNat 8 8 + numAt u.trialVid.toNat 8 16

/-- A register as it reads. -/
def State.readReg (s : State) (p : Nat) (r : Reg) : Word :=
  let u := s.part p
  match r with
  | .leasecfg => u.leaseLen.setWidth 64
  | .spawncfg => BitVec.ofNat 64 u.bint
  | .tvecdef => u.tvecdef
  | .tregion d => vget 0 u.tregion d
  | .tuva => u.tuva
  | .tupte => u.tupte
  | .tuctl => u.tuctl.setWidth 64
  | .ogrant n => vget 0 u.ogrant n
  | .igrant n => vget 0 u.igrant n
  | .suparg i => vget 0 u.suparg i
  | .supstat => BitVec.ofNat 64 u.supstat
  | .vtail => BitVec.ofNat 64 u.vtail
  | .etail => BitVec.ofNat 64 u.etail
  | .counter n => BitVec.ofNat 64 (s.counter p n).statusWord
  | .hmask k i => (vget 0 (s.stack k).hmaskW i).setWidth 64
  | .hcfg k => BitVec.ofNat 64 (s.stack k).hcfg
  | .retctl k => BitVec.ofNat 64 (s.stack k).retctl
  | .pwrctl d => BitVec.ofNat 64 ((s.die d).mlim.toNat + bitAt (s.die d).boosten 63)
  | .droopth c => BitVec.ofNat 64 (numAt (s.core c).droopTh 8 0 + bitAt (s.core c).droopEn 8)
  | .partcfg => BitVec.ofNat 64 u.cfg
  | .pwrshare => BitVec.ofNat 64 (u.pwrshare.toNat + bitAt u.pwrErr 41)

/-! ### Reads -/

/-- What a read answers, of what a partition's configuration space and the management block hold. -/
def State.readWords (s : State) (p : Nat) (what : Readable) : Vector Word 8 :=
  let u := s.part p
  match what with
  | .reg r => wordsOf [s.readReg p r]
  | .task n => wordsOf [(s.counter p n).task]
  | .speed c => word1 (vget 0 s.steps c).toNat
  | .droopcnt c => word1 (s.core c).droopCnt.toNat
  | .retgrp k g => word1 (vget 0 (s.stack k).retgrp g).toNat
  | .health k => word1 (s.stack k).health
  | .dieHealth d => word1 (s.die d).health
  | .uvstat d => word1 (s.die d).uvstat
  | .vring i => ((ringSlot (u.vold ++ u.vring) u.vhead i).map VioRec.words).getD (word1 0)
  | .vheads => wordsOf [BitVec.ofNat 64 u.vhead, BitVec.ofNat 64 u.vtail, BitVec.ofNat 64 u.vlost]
  | .ering i => ((ringSlot (u.eold ++ u.ering) u.ehead i).map EvRec.words).getD (word1 0)
  | .eheads => wordsOf [BitVec.ofNat 64 u.ehead, BitVec.ofNat 64 u.etail, BitVec.ofNat 64 u.elost]
  | .dieRecord d => (s.die d).record
  | .moduleRecord => s.module.record
  | .linkstat l => word1 (vget {} s.module.links l).stat
  | .selftest => s.module.selftest
  | .certificates => word1 0

/-- It stands in the partition's configuration space: of dies, stacks and cores, those of its own dies only (11 R288; 13
R320, R326; 14 R361, R363, R366; 21 R381, R385, R387); a link that SPAN grants (21 R393). -/
def State.inSpace (s : State) (p : Nat) (what : Readable) : Bool :=
  match what with
  | .reg .partcfg | .reg .pwrshare | .moduleRecord | .selftest | .certificates => false
  | .reg (.hmask k _) | .reg (.hcfg k) | .reg (.retctl k) | .retgrp k _ | .health k => s.ownsStack p k
  | .reg (.pwrctl d) | .dieHealth d | .uvstat d | .dieRecord d => s.ownsDie p d
  | .reg (.droopth c) | .droopcnt c | .speed c => s.ownsDie p (c / 8)
  | .linkstat l => (s.part p).en && (s.part p).span.getLsbD l
  | _ => true

/-- It is read of the management block, by the control node alone (13 R320; 21 R381, R385, R393). -/
def ofManagement : Readable → Bool
  | .reg .partcfg | .reg .pwrshare | .moduleRecord | .dieRecord _ | .linkstat _ | .selftest | .certificates => true
  | _ => false

/-- The control port answers it outside a session too: telemetry, the self-test report, and what shows the identity (21
R390, R392). -/
def isQuery : Readable → Bool
  | .moduleRecord | .dieRecord _ | .selftest | .certificates => true
  | _ => false

/-- The control port runs (21 R389, step 2). -/
def State.portRuns (s : State) : Bool := decide (s.module.phase ≠ .off) && decide (s.module.phase ≠ .starting)

/-- A supervisor's read of its configuration space (13 R336; 21 R381): nothing answers before the control port runs. -/
def State.supRead (s : State) (p : Nat) (what : Readable) : State :=
  if !s.portRuns then s
  else
    let a := if s.commanded && s.inSpace p what then some (s.readWords p what) else none
    let u := s.part p
    s.setPart p { u with answers := u.answers ++ [a] }

/-- The control node's read through its port (13 R336; 21 R390). -/
def State.portRead (s : State) (p : Nat) (what : Readable) : State :=
  if !s.portRuns then s
  else if !(s.commanded && (s.inSpace p what || ofManagement what)) && !isQuery what then s.answer .refused
  else
    match what with
    | .certificates => s.answer (.certificates Config.certificates)
    | _ => s.answer (.words (s.readWords p what))

end Sys2Proof.Machine
end

