-- ==== Sys2Proof/Machine/Power.lean ====
section
/-! DEFINITION. Power and heat: the control interval (21 R377 to R386), droop (R387), coolant faults and thermal trips
(R379, R388), undervolting (14 R366, R367), and what the surroundings bring (log 8). -/
namespace Sys2Proof.Machine

/-- A die changed. -/
def State.mapDie (s : State) (d : Nat) (f : Die → Die) : State := s.setDie d (f (s.die d))
/-- A core changed. -/
def State.mapCore (s : State) (c : Nat) (f : CoreUnit → CoreUnit) : State := s.setCore c (f (s.core c))

/-- A temperature in 1/64 °C (21 R381). -/
def temp (t : BitVec 16) : Int := t.toInt
/-- A number of degrees in 1/64 °C. -/
def deg (n : Nat) : Int := 64 * n
/-- The higher of two temperatures. -/
def hotter (a b : BitVec 16) : BitVec 16 := if temp a < temp b then b else a
/-- The sum of a die's eight junction readings. -/
def Die.heat (u : Die) : Int := u.junction.toArray.toList.foldl (fun n t => n + temp t) 0
/-- The average of the interval's readings (21 R381; log 8). -/
def Die.mean (u : Die) : BitVec 16 := BitVec.ofInt 16 (u.tsum / u.tcnt)
/-- The highest junction reading of a die. -/
def Die.hottest (u : Die) : BitVec 16 := u.junction.toArray.toList.tail.foldl hotter (vget 0 u.junction 0)

/-! ### The levels (21 R384, R385) -/

/-- Net meter units of the interval (21 R386). -/
def Die.meter (u : Die) : Nat := u.charges - u.credits

/-- A die's effective limit (21 R385). -/
def State.mlim (s : State) (d : Nat) : Nat :=
  let own := (s.die d).mlim.toNat
  match s.ownerOf d with
  | some p => min own ((s.part p).pwrshare.toNat / max 1 ((List.range 8).countP (fun e => (s.part p).dies.getLsbD e)))
  | none => own

/-- The levels of the next interval (21 R384), of the meter `m`, the limit, the temperature and the coolant fault. -/
def Die.levels (u : Die) (m lim : Nat) (t : Int) (fault : Bool) : Die :=
  let l := if lim < m then min (u.l + 1) 15 else if 16 * m < 15 * lim then u.l - 1 else u.l
  let q0 := if deg 105 < t then min (u.q + 2) 48 else if t ≤ deg 103 then u.q - 1 else u.q
  let q := if fault then 48 else q0
  let capped := decide (0 < l) || decide (0 < q)
  let bst :=
    if capped || u.cappedPrev || !u.boosten then 0
    else if t ≤ deg 100 ∧ 8 * m ≤ 7 * lim then min (u.bst + 1) 8
    else u.bst
  { u with l := l, q := q, bst := bst, cappedPrev := capped, first := false }

/-- The frequency in MHz of a core whose table frequency is `ft`, and its budget (21 R384). -/
def Die.coreMHz (u : Die) (ft : Nat) : Nat :=
  if 0 < u.bst then ft + 25 * u.bst else min (ft - 25 * u.q) (ft - 100 * (u.l - 7))
def Die.coreBudget (u : Die) : Nat := 384 - 48 * min u.l 7

/-- The leakage correction of the band of a temperature, in VID (21 R383). -/
def leakage (t : Int) : Int := if t ≤ deg 60 then 1 else if t ≤ deg 85 then 0 else if t ≤ deg 100 then -1 else -2

/-- The rail of a die for the interval (21 R383). -/
def Die.rail (u : Die) (d fmax : Nat) : Nat :=
  (max (Config.vf d fmax) u.safeVid.toNat + leakage (temp u.tavg)).toNat

/-- The die record at the interval's end (21 R381). -/
def State.dieRecord (s : State) (d : Nat) : Vector Word 8 :=
  let u := s.die d
  let freqs := (List.range 8).foldl (fun n i => n + ((s.core (8 * d + i)).freq - 2000) / 25 % 256 * 2 ^ (8 * i)) 0
  tab 8 (fun i => match i with
    | 0 => s.time
    | 1 => BitVec.ofNat 64 (u.tmax.toNat + u.tavg.toNat * 2 ^ 16)
    | 2 => BitVec.ofNat 64 (u.edie + u.erail)
    | 3 => BitVec.ofNat 64 u.meter
    | 4 => BitVec.ofNat 64 freqs
    | 5 => BitVec.ofNat 64 (u.l + u.q * 2 ^ 8 + u.bst * 2 ^ 16 + u.vid % 256 * 2 ^ 24 + u.droops % 2 ^ 32 * 2 ^ 32)
    | _ => 0)

/-- FLOWREQ in mL/min, of PHEAT in W and TIN (21 R378, R381): ρ × cp is 3,978 J per litre and kelvin. -/
def flowReq (pheat : Nat) (tin : BitVec 16) : Nat :=
  if deg 65 ≤ temp tin then 0xFFFF else min 0xFFFF (pheat * 60000 * 64 / (3978 * (deg 65 - temp tin).toNat))

/-- The average in W of an interval's mJ: 1 mJ in 100 µs is 10 W. -/
def watts (mj : Nat) : Nat := 10 * mj

/-- The module record at the interval's end (21 R381). -/
def State.moduleRecord (s : State) : Vector Word 8 :=
  let m := s.module
  let tripped := (List.range 8).any (fun d => (s.die d).tripped)
  tab 8 (fun i => match i with
    | 0 => s.time
    | 1 => BitVec.ofNat 64 (m.ein + m.pin)
    | 2 => BitVec.ofNat 64 (m.eheat + m.pheat)
    | 3 => BitVec.ofNat 64 (m.tin.toNat + m.tout.toNat * 2 ^ 16 + m.flow.toNat * 2 ^ 32 +
        flowReq (watts m.pheat) m.tin * 2 ^ 48)
    | 4 => BitVec.ofNat 64 (watts m.pin % 2 ^ 32 + watts m.pheat % 2 ^ 32 * 2 ^ 32)
    | 5 => BitVec.ofNat 64 (m.coolant.toNat + 2 * tripped.toNat)
    | _ => 0)

/-- The interval's average junction reading, and its elision credits: 16 units to a sector (21 R381, R386). -/
def State.gather (s : State) : State :=
  { s with
    dies := tab 8 (fun d =>
      let u := s.die d
      { u with tavg := u.mean, credits := u.credits + 16 * vget 0 s.elided d })
    elided := vrep 8 0 }

/-- The interval that ends: its records, and its counts into the counters (21 R381, R382). -/
def State.endInterval (s0 : State) : State :=
  let s := s0.gather
  let dies := tab 8 (fun d =>
    let u := s.die d
    { u with record := s.dieRecord d, edie := u.edie + u.erail })
  let m := s.module
  { s with
    dies := dies
    module := { m with record := s.moduleRecord, ein := m.ein + m.pin, eheat := m.eheat + m.pheat, pin := 0, pheat := 0 } }

/-- The clock of the die's fastest core, for the cores' clocks that are given. -/
def State.fastest (s : State) (d : Nat) (f : Nat → Nat) : Nat :=
  (((List.range 8).map (fun i => 8 * d + i)).filter s.usable).foldl (fun n c => max n (f c)) 0

/-- The die's clocks run: the module is ready and the die not tripped (21 R388, R390). -/
def State.clocked (s : State) (c : Nat) : Bool := decide (s.module.phase = .ready) && !(s.die (c / 8)).tripped

/-- The interval that begins, on one die: its levels, its rail, and each core's values from 10 µs on (21 R383, R384).
Where the die's frequency falls the clocks change first and the rail follows; otherwise, and where no clock of the die runs,
the rail goes first. -/
def State.beginInterval (s : State) (d : Nat) : State :=
  let u := s.die d
  let m := if u.first then 0 else u.meter
  let t := if u.first then u.hottest else u.tmax
  let v := u.levels m (s.mlim d) (temp t) s.module.coolant
  let cores := (List.range 8).map (fun i => 8 * d + i)
  let fmax := s.fastest d (fun c => v.coreMHz (s.tableMHz c))
  let vid := if v.trial then v.trialVid.toNat else v.rail d fmax
  let clocksFirst := s.clocked (8 * d) && decide (fmax < s.fastest d (fun c => (s.core c).freq))
  let w := { v with
    vid := if clocksFirst then u.vid else vid, vidNext := if clocksFirst then some vid else none
    charges := 0, credits := 0, erail := 0, droops := 0, tmax := v.hottest, tsum := v.heat, tcnt := 8 }
  cores.foldl (fun (s : State) c =>
    s.mapCore c (fun k => { k with next := some (s.time.toNat + 10000, v.coreMHz (s.tableMHz c), v.coreBudget) })) (s.setDie d w)

/-- CONTROL_INTERVAL (21 R381 to R386): at every 100 µs of TIME, while the management block runs. -/
def execControlInterval (s : State) : Host.Outcome State Fault Refusal :=
  if s.time.toNat % 100000 ≠ 0 ∨ s.module.phase = .off ∨ s.module.phase = .starting then .next s
  else
    let s1 := if s.time = 0 then s else s.endInterval
    .next ((List.range 8).foldl State.beginInterval s1)

/-- The clock of a core is stretched, and its budget halved (21 R387). -/
def CoreUnit.stretched (u : CoreUnit) : Bool := decide (u.stretchFrom ≤ u.clkc) && decide (u.clkc < u.stretchUntil)

/-- The rail takes the VID that it has waited to take. -/
def Die.settle (u : Die) : Die := { u with vid := u.vidNext.getD u.vid, vidNext := none }

/-- The rail of a die whose clocks have all changed follows them (21 R383). -/
def State.followRail (s : State) (d : Nat) : State :=
  if (List.range 8).all (fun i => (s.core (8 * d + i)).next.isNone) then s.mapDie d Die.settle else s

/-- NEW_VALUES_APPLY (21 R384): in a clock that is not stretched, from 10 µs on. -/
def execNewValuesApply (core : Fin 64) (s : State) : Host.Outcome State Fault Refusal :=
  let u := s.core core
  match u.next with
  | some (t, f, b) =>
    if t ≤ s.time.toNat ∧ !u.stretched then
      .next ((s.setCore core { u with freq := f, budget := b, next := none }).followRail (core / 8))
    else .next s
  | none => .next s

/-! ### Droop (21 R387) -/

/-- The detector acts, and the shortfall is at least TH × 5 mV (21 R387). -/
def CoreUnit.droops (u : CoreUnit) : Bool := u.droopEn && decide (u.droopTh * 5 ≤ u.shortfall)

/-- DROOP_TRIP (21 R387): in the present clock. -/
def execDroopTrip (core : Fin 64) (s : State) : Host.Outcome State Fault Refusal :=
  let u := s.core core
  if !u.droops || !s.clocked core then .next s
  else
    let t := u.clkc
    let v := { u with
      stretchFrom := if u.stretched then u.stretchFrom else t + 1
      stretchUntil := t + 7
      halveFrom := if u.halveFrom ≤ t ∧ t < u.halveUntil then u.halveFrom else t + 1
      halveUntil := t + 65
      droopCnt := u.droopCnt + 1 }
    .next ((s.setCore core v).mapDie (core / 8) (fun d => { d with droops := d.droops + 1 }))

/-- DROOP_WINDOW_END (21 R387): windows that are over. -/
def execDroopWindowEnd (core : Fin 64) (s : State) : Host.Outcome State Fault Refusal :=
  .next (s.mapCore core (fun u =>
    let v := if u.stretchUntil ≤ u.clkc then { u with stretchFrom := 0, stretchUntil := 0 } else u
    if v.halveUntil ≤ v.clkc then { v with halveFrom := 0, halveUntil := 0 } else v))

/-! ### Heat (21 R379, R388) -/

/-- A condition has stood for a number of ns. -/
def State.stood (s : State) (since : Option Nat) (n : Nat) : Bool :=
  match since with
  | some t => decide (t + n ≤ s.time.toNat)
  | none => false

/-- A coolant fault's condition is met. -/
def State.coolantBad (s : State) : Bool := s.stood s.module.hotSince (10 ^ 9) || s.stood s.module.lowSince (10 ^ 9)

/-- COOLANT_FAULT (21 R379). -/
def execCoolantFault (s : State) : Host.Outcome State Fault Refusal :=
  if !s.coolantBad then .next s else .next (s.mapModule (fun m => { m with coolant := true }))

/-- COOLANT_FAULT_CLEAR (21 R379): absent for 10 s. -/
def execCoolantFaultClear (s : State) : Host.Outcome State Fault Refusal :=
  if s.coolantBad || !s.stood s.module.okSince (10 ^ 10) then .next s else .next (s.mapModule (fun m => { m with coolant := false }))

/-- A sensor of a die reads 120 °C or more. -/
def Die.tooHot (u : Die) : Bool := decide (deg 120 ≤ temp u.hottest)

/-- THERMAL_TRIP (21 R388; 14 R365): a reset already in progress becomes a thermal one. The clocks stop, and a rail that
waits for them waits no more (R383). -/
def execThermalTrip (die : Fin 8) (s : State) : Host.Outcome State Fault Refusal :=
  let u := s.die die
  if !u.tooHot || u.tripped then .next s
  else
    let s1 := s.setDie die { u.settle with tripped := true, reset := u.reset.map (fun r => (r.1, true)) }
    .next (s1.startReset die true)

/-- DIE_REJOIN (21 R388; 14 R365, step 6). -/
def execDieRejoin (die : Fin 8) (s : State) : Host.Outcome State Fault Refusal :=
  let u := s.die die
  match u.reset with
  | some (t0, therm) =>
    if u.resetDone ∧ temp u.hottest < deg 90 then .next (s.rejoin die t0 therm) else .next s
  | none => .next s

/-! ### Undervolting (14 R366, R367) -/

/-- A VID is at or below one that is blacklisted. -/
def Die.blackened (u : Die) (v : Nat) (now : Nat) : Bool :=
  u.black.any (fun (e : Nat × Nat) => decide (v ≤ e.1) && decide (now < e.2))

/-- UV_TRIAL (14 R366, R367): one step below SAFEVID, where no blacklisted VID forbids it. -/
def execUvTrial (die : Fin 8) (s : State) : Host.Outcome State Fault Refusal :=
  let u := s.die die
  let v := u.safeVid.toNat - 1
  if u.trial || decide (u.safeVid = 0) || u.blackened v s.time.toNat then .next s
  else .next (s.setDie die { u with trial := true, trialVid := BitVec.ofNat 8 v, vid := v, vidNext := none })

/-- TRIAL_PASSED (14 R366): the trial VID has passed. -/
def execTrialPassed (die : Fin 8) (s : State) : Host.Outcome State Fault Refusal :=
  let u := s.die die
  if u.trial then .next (s.setDie die { u with trial := false, safeVid := u.trialVid, trialVid := 0 }) else .next s

/-- UV_ABORT (14 R367): an error under a trial; the record and the restore. -/
def execUvAbort (die : Fin 8) (s : State) : Host.Outcome State Fault Refusal :=
  let u := s.die die
  if !u.trial then .next s
  else
    let v := u.trialVid.toNat
    let s1 := s.addDieEv die { type := 7, die := die, detail := BitVec.ofNat 64 v }
    .next (s1.setDie die { s1.die die with
      trial := false, trialVid := 0, vid := u.safeVid.toNat + 3, vidNext := none
      black := (v, s.time.toNat + 24 * 3600 * 10 ^ 9) :: u.black.filter (fun (e : Nat × Nat) => e.1 != v) })

/-- UV_BLACKLIST_EXPIRE (14 R367). -/
def execUvBlacklistExpire (die : Fin 8) (vid : BitVec 8) (s : State) : Host.Outcome State Fault Refusal :=
  .next (s.mapDie die (fun u =>
    { u with black := u.black.filter (fun (e : Nat × Nat) => e.1 != vid.toNat || decide (s.time.toNat < e.2)) }))

/-! ### The surroundings (log 8, log 9) -/

/-- Since when a condition stands: from before, or from now. -/
def since (c : Bool) (old : Option Nat) (now : Nat) : Option Nat := if c then some (old.getD now) else none

/-- An input of the surroundings. -/
def State.input (s : State) (e : Env) : State :=
  match e with
  | .junction d c t => s.mapDie d (fun u =>
      { u with junction := vset u.junction c t, tmax := hotter u.tmax t, tsum := u.tsum + temp t, tcnt := u.tcnt + 1 })
  | .coolant tin tout flow =>
    let s1 := s.mapModule (fun m => { m with
      tin := tin, tout := tout, flow := flow
      hotSince := since (decide (deg 62 < temp tin)) m.hotSince s.time.toNat
      lowSince := since (decide (flow.toNat < 3000)) m.lowSince s.time.toNat })
    if s.coolantBad && !s1.coolantBad then s1.mapModule (fun m => { m with okSince := some s.time.toNat }) else s1
  | .power pin pheat => s.mapModule (fun m => { m with pin := m.pin + pin, pheat := m.pheat + pheat })
  | .keelJunction i t => s.mapModule (fun m => { m with keelTemp := vset m.keelTemp i t })
  | .rail d mj => s.mapDie d (fun u => { u with erail := u.erail + mj })
  | .shortfall c mv => s.mapCore c (fun u => { u with shortfall := mv })
  | .supRead p what => s.supRead p what
  | .portRead p what => s.portRead p what
  | .credit d n => s.mapDie d (fun u => { u with credits := u.credits + n })
  | .peer r => { s with peerReplies := s.peerReplies ++ [r] }
  | .defect r f => s.mapModule (fun m => { m with defects := r, defectAt := f })
  | .sectorUE raw => { s with hue := Sparse.set false s.hue raw true }
  | .corrected d k =>
    match d with
    | some d => s.mapDie d (fun u => { u with health := u.health + 1 })
    | none => s.setStack k { s.stack k with health := (s.stack k).health + 1 }

end Sys2Proof.Machine
end

