-- ==== Sys2Proof/Machine/Root.lean ====
section
/-! DEFINITION. Start-up, the grounded state, firmware, the measurement, sessions, quotes and span links (21 R389 to
R393). -/
namespace Sys2Proof.Machine

/-! ### The firmware image (21 R391) -/

/-- The signed part of an image. -/
def imageHead (img : List Byte) : List Byte := slice img 0 0x78
/-- The image's rollback counter. -/
def imageArb (img : List Byte) : Nat := numOf (slice img 8 8)

/-- The security root accepts an image under a fused rollback counter (21 R391). -/
def imageOk (img : List Byte) (arb : Nat) : Bool :=
  let keyhash := slice img 0x48 48
  let edpk := slice img 0x78 32
  let mlpk := slice img 0x98 1952
  keyhash == bytesOf Config.vendorHash.toNat 48 &&
  keyhash == bytesOf (sha384 (edpk ++ mlpk)).toNat 48 &&
  edVerify edpk (imageHead img) (slice img 0x838 64) &&
  mlVerify mlpk (imageHead img) (slice img 0x878 3309) &&
  slice img 0x18 48 == bytesOf (sha384 (slice img 0x2000 (numOf (slice img 0x10 8)))).toNat 48 &&
  decide (arb ≤ imageArb img)

/-! ### Start-up (21 R389 to R392) -/

/-- An item folded into the measurement (21 R392). -/
def fold (mv : BitVec 384) (item : List Byte) : BitVec 384 := sha384 (bytesOf mv.toNat 48 ++ item)

/-- The speed table and the defect map as bytes: a byte per core; a bit per physical row, and then per seat (log 10). -/
def State.speedBytes (s : State) : List Byte := (List.range 64).map (fun c => (vget 0 s.steps c).setWidth 8)
def bitBytes (l : List (Nat × Bool)) (n : Nat) : List Byte :=
  (List.range n).map (fun i => BitVec.ofNat 8 ((List.range 8).foldl (fun n j =>
    n + (Sparse.get false l (8 * i + j)).toNat * 2 ^ j) 0))
def State.defectBytes (s : State) : List Byte := bitBytes s.badRows 512 ++ bitBytes s.badSeats 2048

/-- The self-test report (21 R389): FIRST names the keel die for a firmware failure, and is 0 where nothing failed. -/
def State.selfReport (s : State) (ok : Bool) : Vector Word 8 :=
  let m := s.module
  let first : Nat := if m.defects ≠ 0 then m.defectAt.toNat else if ok then 0 else 0xFF
  let down := (List.range 16).foldl (fun n i => n + (!(vget ({} : Link) m.links i).up).toNat * 2 ^ i) 0
  tab 8 (fun i => match i with
    | 0 => BitVec.ofNat 64 (m.defects.toNat + (!ok).toNat * 2 ^ 5 + first * 2 ^ 32)
    | 1 => BitVec.ofNat 64 down
    | 2 => s.time
    | _ => 0)

/-- The report as bytes. -/
def reportBytes (r : Vector Word 8) : List Byte := r.toArray.toList.flatMap (fun w => bytesOf w.toNat 8)

/-- The span links trained (21 R389, step 3): one that fails is marked down. -/
def State.trainLinks (s : State) : State :=
  s.mapModule (fun m => { m with
    links := tab 16 (fun n =>
      let l := vget {} m.links n
      match Config.spanPeer n with
      | some dev => { l with peerdev := dev, train := false, up := true }
      | none => { l with train := false, up := false }) })

/-- Steps 1 and 2 of 21 R389: the image is verified, and the control port runs. -/
def State.startUp (s : State) : State :=
  s.mapModule (fun m => { m with firmOk := imageOk m.flash m.arb, phase := .testing })

/-- Steps 3 and 4 of 21 R389: the module tests itself, its span links are trained, and it is measured; it is ready, or
grounded. -/
def State.boot (s0 : State) : State :=
  let s := s0.trainLinks
  let m := s.module
  let ok := m.firmOk
  let pass := ok && m.defects == 0
  let r := s.selfReport ok
  let mv := [imageHead m.flash, s.speedBytes, s.defectBytes, Config.calibration, reportBytes r].foldl fold 0
  { s with module := { m with
      phase := if pass then .ready else .grounded
      selftest := r
      mv := mv
      arb := if pass then max m.arb (min 64 (imageArb m.flash)) else m.arb } }

/-- POWER_GOOD (21 R389, R384): the first two steps of start-up, and the first control interval where one begins; then, as
an act of its own, the other two. -/
def execPowerGood (s : State) : Host.Outcome State Fault Refusal :=
  match s.module.phase with
  | .off | .starting =>
    let s1 := s.startUp
    .next { s1 with agenda := .event .controlInterval :: .event .powerGood :: s1.agenda }
  | .testing => .next s.boot
  | _ => .next s

/-- The session ends, if one is open, and the nonce changes (21 R393). -/
def State.endSession (s : State) : State :=
  if s.module.session then s.mapModule (fun m => { m with session := false, nonces := m.nonces + 1 }) else s

/-- POWER_OFF (01 R42; 21 R382, R393): all but what was fused or stands in flash is lost. -/
def execPowerOff (s : State) : Host.Outcome State Fault Refusal :=
  let m := s.endSession.module
  .next { State.reset with
    agenda := []
    freeCtr := s.freeCtr
    steps := s.steps
    badRows := s.badRows
    badSeats := s.badSeats
    module := { ({} : Module) with phase := .off, flash := m.flash, arb := m.arb, nonces := m.nonces, out := m.out } }

/-- FIRMWARE_RELOAD (21 R390, R391, R393): refused, with nothing changed, where the image is not accepted; else the module
starts up again under it. -/
def execFirmwareReload (image : List Byte) (s : State) : Host.Outcome State Fault Refusal :=
  if !s.portRuns then .next s
  else if !imageOk image s.module.arb then .next (s.answer .refused)
  else
    let s1 := ((s.endSession.mapModule (fun m => { m with flash := image })).startUp).answer .done
    .next { s1 with agenda := .event .powerGood :: s1.agenda }

/-! ### Sessions, quotes and queries (21 R390, R392, R393) -/

/-- OPEN (21 R393): of a module that is ready. -/
def execOpen (nonce : BitVec 384) (keys edSig mlSig : List Byte) (s : State) : Host.Outcome State Fault Refusal :=
  let msg := bytesOf nonce.toNat 48
  if s.module.phase = .ready ∧ nonce = Config.nonce s.module.nonces ∧ sha384 keys = Config.ownerHash ∧
      edVerify (keys.take 32) msg edSig ∧ mlVerify (keys.drop 32) msg mlSig then
    .next ((s.mapModule (fun m => { m with session := true })).answer .done)
  else .next (s.answer .refused)

/-- CLOSE (21 R393). -/
def execClose (s : State) : Host.Outcome State Fault Refusal :=
  if s.module.session then .next (s.endSession.answer .done) else .next (s.answer .refused)

/-- LOSS_OF_LIGHT (21 R393). -/
def execLossOfLight (s : State) : Host.Outcome State Fault Refusal := .next s.endSession

/-- QUOTE (21 R392): in a session. The randomness of the ML-DSA signature is free (log 10). -/
def execQuote (nonce : BitVec 384) (s : State) : Host.Outcome State Fault Refusal :=
  if !s.commanded then .next (s.answer .refused)
  else
    let msg := bytesOf nonce.toNat 48 ++ bytesOf s.module.mv.toNat 48 ++ bytesOf Config.device.toNat 2 ++ bytesOf s.time.toNat 8
    let rnd := (List.range 4).flatMap (fun i => bytesOf (s.free i).toNat 8)
    .next ((s.useFree 4).answer (.quote nonce s.module.mv Config.device s.time (edSign Config.idSeed msg)
      (mlSign Config.mlSeed rnd msg)))

/-- IDENTITY_QUERY (21 R389, R390): identity and status, and the self-test report, once the control port runs. -/
def execIdentityQuery (s : State) : Host.Outcome State Fault Refusal :=
  if !s.portRuns then .next s
  else .next ((s.answer (.status s.module.phase Config.device)).answer (.report s.module.selftest))

/-! ### Span links (21 R393) -/

/-- A link. -/
def State.spanLink (s : State) (n : Nat) : Link := vget {} s.module.links n
/-- A link replaced. -/
def State.setLink (s : State) (n : Nat) (l : Link) : State := s.mapModule (fun m => { m with links := vset m.links n l })

/-- FLIT_CRC_ERROR (21 R393): the flit is resent; a link with more than 1,000 in a millisecond goes down and retrains. An
access that waits takes, when it is tried again, a link of its grant that is UP (`State.peerLink`). -/
def execFlitCrcError (link : Fin 16) (s : State) : Host.Outcome State Fault Refusal :=
  let l := s.spanLink link
  if !l.up then .next s
  else
    let ms := s.time.toNat / 10 ^ 6
    let n := (if l.ms = ms then l.inMs else 0) + 1
    let l1 := { l with retry := min (l.retry + 1) 0xFFFF, ms := ms, inMs := n }
    .next (s.setLink link
      (if 1000 < n then { l1 with up := false, train := true, downs := min (l.downs + 1) 0xFF, inMs := 0 } else l1))

/-- LINK_TRAINED (21 R393). -/
def execLinkTrained (link : Fin 16) (dev : BitVec 16) (s : State) : Host.Outcome State Fault Refusal :=
  if !s.portRuns then .next s
  else .next (s.setLink link { s.spanLink link with peerdev := dev, train := false, up := true })

end Sys2Proof.Machine
end

