-- ==== Sys2Proof/Machine/Fetch.lean ====
section
/-! DEFINITION. Fetching a bundle (07 R189, R200; 14 R345), the checks of a bundle (02 R49), BRKB (02 R47), words that
no encoding matches (02 R68), the issue that R285 forces, and waking (11 R281). -/
namespace Sys2Proof.Machine

/-! ### The checks of a bundle (02 R49) -/

/-- Slot `k`'s word, its opcode, and its bits of the control word. -/
def slotWord (b : Vector Half 4) (k : Nat) : Half := vget 0 b k
def slotOp (b : Vector Half 4) (k : Nat) : Nat := ((slotWord b k).extractLsb' 24 8).toNat
def ufBit (b : Vector Half 4) (k : Nat) : Bool := (vget 0 b 0).getLsbD (23 + k)
def preBit (b : Vector Half 4) (k : Nat) : Bool := (vget 0 b 0).getLsbD (19 + k)

/-- The opcode is a prefix's. -/
def isPrefixOp (op : Nat) : Bool := op == 0xF0 || op == 0xF8

/-- The slot that the prefix in slot `k` applies to (02 R49): a MOD in slot 1 before an XIMM in slot 2 applies to slot 3. -/
def prefixTarget (b : Vector Half 4) (k : Nat) : Nat :=
  if k == 1 && preBit b 2 && slotOp b 1 == 0xF0 && slotOp b 2 == 0xF8 then 3 else k + 1

/-- A MOD's nonzero groups, or an XIMM, are not all accepted by an opcode in a slot of the kind (02 R49, R65, R67). -/
def unaccepted (w : Half) (i : OpInfo) (uni : Bool) : Bool :=
  if (w.extractLsb' 24 8).toNat = 0xF8 then !i.accX
  else
    (w.extractLsb' 11 5 != 0 && !i.accE) || (w.extractLsb' 16 8 != 0 && !i.accQ) || (w.extractLsb' 8 3 != 0 && !i.accR) ||
    (w.extractLsb' 6 2 != 0 && (!i.accZ || uni)) || (w.extractLsb' 3 3 != 0 && (!i.accM || uni))

/-- The checks in order, each with the slots at which it fails. -/
def bundleChecks (b : Vector Half 4) : List (List Nat) :=
  let cw := vget 0 b 0
  let ks (f : Nat → Bool) : List Nat := [1, 2, 3].filter f
  let both := preBit b 1 && preBit b 2
  [ if cw.extractLsb' 28 4 != 11 || cw &&& 0x088CFFFF#32 != 0 || preBit b 3 then [0] else [],
    ks (fun k => preBit b k && !isPrefixOp (slotOp b k)),
    ks (fun k => !preBit b k && isPrefixOp (slotOp b k)),
    ks (fun k => preBit b k && ufBit b k),
    ks (fun k => preBit b k && slotOp b (prefixTarget b k) == 0),
    if both && slotOp b 1 != 0xF0 then [1] else if both && slotOp b 2 != 0xF8 then [2] else [],
    ks (fun k => ufBit b k && !isPrefixOp (slotOp b k) && ((opInfo (slotOp b k)).map (fun i => !i.uni)).getD false),
    ks (fun k => preBit b k && match opInfo (slotOp b (prefixTarget b k)) with
      | some i => unaccepted (slotWord b k) i (ufBit b (prefixTarget b k))
      | none => false) ]

/-- The first check that fails: its order and the lowest slot it names. -/
def bundleBad (b : Vector Half 4) : Option (Nat × Nat) :=
  ((bundleChecks b).zipIdx.find? (fun (x : List Nat × Nat) => !x.1.isEmpty)).map (fun x => (x.2 + 1, x.1.headD 0))

/-! ### Fetching (07 R200) -/

/-- Four words from bytes at a physical address. -/
def State.bundleAt (s : State) (pa : Nat) : Vector Half 4 := tab 4 (fun i => BitVec.ofNat 32 (s.hread (pa + 4 * i) 4))

/-- The line of bundles that holds a physical address. -/
def State.codeLine (s : State) (pa : Nat) : Vector Half 32 :=
  tab 32 (fun i => BitVec.ofNat 32 (s.hread (pa / 128 * 128 + 4 * i) 4))

/-- A core's instruction cache with room for a line: it holds at most 2,048 of 128 bytes, and where it is full some line
makes room, which one the spec leaves open (log 11). -/
def State.makeCodeRoom (s : State) (core line : Nat) : State :=
  let u := s.core core
  let ls := (u.icache.map (fun (e : Nat × Option (Vector Half 32)) => e.1))
  if ls.length < 2048 ∨ ls.contains line then s
  else
    let v := ls.getD ((s.free 0).toNat % ls.length) 0
    (s.setCore core { u with icache := Sparse.set none u.icache v none }).useFree 1

/-- The line of a virtual and physical address is taken into a core's instruction cache. -/
def State.fillCode (s0 : State) (core va pa : Nat) : State :=
  let s := s0.makeCodeRoom core (va / 128)
  let u := s.core core
  s.setCore core { u with icache := Sparse.set none u.icache (va / 128) (some (s.codeLine pa)) }

/-- A bundle read by a core at a program counter, from its instruction cache or, filling it, from the home units; or the
fetch's trap, violation or wait. A line with a poisoned sector is not kept. -/
def State.readBundle (s : State) (p core : Nat) (pc : Word) : Except Stop (Vector Half 4 × State) :=
  let va := pc.toNat
  match Sparse.get none (s.core core).icache (va / 128) with
  | some line => .ok (tab 4 (fun i => vget 0 line (va % 128 / 4 + i)), s)
  | none =>
    match s.xlate p (core / 8) pc .fetch with
    | .wait | .peer => .error .stall
    | .lost m => .error (.after (s.meetUE m) .stall)
    | .poison => .error (.trap { code := cPOISON, slot := some 0, addr := pc })
    | .vio c => .error (.freeze { code := c, codes := codeBit c, addr := pc, atFetch := true })
    | .absent =>
      .error (.after (s.elideWalks p (core / 8) [pc])
        (.trap { code := cFETCH_FAULT, slot := some 0, addr := pc, resume := some (pc, 1) }))
    | .mem pa _ =>
      let d := stackDie (paStack pa)
      if s.fenced.getLsbD d then .error (.trap { code := cDIE_FENCED, slot := some 0, addr := pc, aux := d })
      else
        let line := [0, 32, 64, 96].map (fun o => pa / 128 * 128 + o)
        if line.any s.held then .error .stall
        else
          match line.find? s.secUE with
          | some m => .error (.after (s.meetUE m) .stall)
          | none =>
            if s.secPois pa then .error (.trap { code := cPOISON, slot := some 0, addr := pc })
            else
              let s1 := s.elide (line.map paSector)
              .ok (s1.bundleAt pa, if line.any s.secPois then s1 else s1.fillCode core va pa)

/-- The bundle at a seat's program counter is taken in hand: read, checked (02 R49; 14 R350) and, from slot 1, its BRKB
raised (02 R47). -/
def State.fetch (s : State) (sid : Nat) : Except Stop State :=
  let t := s.seat sid
  match s.readBundle t.bind.part (sidCore sid) t.pc with
  | .error e => .error e
  | .ok (b, s1) =>
    match bundleBad b with
    | some (order, k) => .error (.after s1 (.trap { code := cILLEGAL_BUNDLE, slot := some k, aux := order }))
    | none =>
      if 1 < t.slot ∧ preBit b (t.slot - 1) then .error (.after s1 (.trap { code := cILLEGAL_BUNDLE, slot := some t.slot, aux := 9 }))
      else
        let t1 := { t with bundle := some b, brkbPassed := true, brkbSkip := false }
        let s2 := s1.setSeat sid t1
        if t1.brkb ∧ t.slot ≤ 1 ∧ !t.brkbSkip then .error (.after s2 (.trap { code := cBRK, slot := some 0 }))
        else .ok s2

/-- The seat has its bundle in hand, or what the fetch came to. -/
def State.inHand (s : State) (sid : Nat) : Except Stop State :=
  match (s.seat sid).bundle with
  | some _ => .ok s
  | none => s.fetch sid

/-! ### Words (02 R68) -/

/-- The instruction of a word. -/
def wordInstr (w : Half) : Instr := (decodeWord w).getD (.unassignedOpcode w)

/-- The word of the slot that a seat runs next. -/
def Seat.word (t : Seat) : Half :=
  match t.bundle with
  | some b => vget 0 b t.slot
  | none => 0

/-- The NOPs that end a bundle take no issue (02 R46): a seat that comes to them stands behind them. -/
def Seat.skipNops (t : Seat) : Nat → Seat
  | 0 => t
  | n + 1 =>
    if t.bundle.isSome ∧ t.word = 0 ∧ t.pmod.isNone ∧ t.pximm.isNone then t.advance.skipNops n else t

/-- UNASSIGNED_OPCODE (02 R68): ILLEGAL_OP; a MOD with reserved bits set waits for its target, which raises it (02
R65). -/
def execUnassignedOpcode (w : Half) (s : State) : Host.Outcome State Fault Refusal :=
  s.run fun sid t =>
    if (w.extractLsb' 24 8).toNat = 0xF0 then
      .ok (s.prefixed sid t (fun t => { t with pmod := some (w.setWidth 24) }))
    else trapC cILLEGAL_OP

/-! ### Selection and waking (11 R281, R285) -/

/-- FORCED_ISSUE (11 R285): a seat that has been skipped 16 times issues, and its partition idles for a clock. -/
def execForcedIssue (sid : Fin 16384) (s : State) : Host.Outcome State Fault Refusal :=
  let t := s.seat sid
  if t.status ≠ .ready ∨ t.skip < 16 then .next s
  else
    let s1 := s.setSeat sid { t with skip := 0 }
    let u := s1.core (sidCore sid)
    let s2 := s1.setCore (sidCore sid) { u with idleNext := u.idleNext ||| (1#8 <<< (sidRow sid % 8)) }
    .next { s2 with agenda := .issue sid :: s2.agenda }

/-- The stop is a stall, once an error has been met or at once. -/
def Stop.stalls : Stop → Bool
  | .stall => true
  | .after _ e => e.stalls
  | _ => false

/-- The fetch of a seat's next bundle waits. -/
def State.fetchWaits (s : State) (sid : Nat) : Bool :=
  let t := s.seat sid
  match t.bundle, s.readBundle t.bind.part (sidCore sid) t.pc with
  | none, .error e => e.stalls
  | _, _ => false

/-- The park condition clears (11 R281). -/
def State.cleared (s : State) (sid : Nat) (p : Park) : Bool :=
  match p with
  | .lines ls => !ls.any s.isAbsent
  | .barrier k g => genPast (s.bar k).gen g || s.isPois (k / 128)
  | .batch n => s.retired sid (BitVec.ofNat 32 n)
  | .ring hdr =>
    match s.queue (s.seat sid).bind.part hdr, (s.seat sid).qput with
    | some q, some slot => !s.hdrHeld q && !decide (q.size ≤ slot - s.ridx q)
    | _, _ => true
  | .yield c => decide (c < (s.core (sidCore sid)).clkc)
  | .sleep v => decide (v.toNat ≤ s.time.toNat)
  | .fetch => !s.fetchWaits sid

/-- A parked seat wakes as the youngest (11 R281, R282); SLEEPT is done, and what else parked is tried again. One that
YIELD has parked wakes as the clock of its park's selection ends (12 R318), and is of the next. The stamp is new in the
clock after a forced issue too (log 105). -/
def State.wake (s : State) (sid : Nat) (sleepers : Bool) : State :=
  let t := s.seat sid
  match t.status with
  | .parked p =>
    let isSleep := match p with
      | .sleep _ => true
      | _ => false
    let late := match p with
      | .yield _ => 1
      | _ => 0
    if isSleep != sleepers || !s.cleared sid p then s
    else s.setSeat sid { t.unhold with status := .ready, stamp := (s.core (sidCore sid)).clkc + late }
  | _ => s

/-- SEAT_WAKE (11 R281). -/
def execSeatWake (sid : Fin 16384) (s : State) : Host.Outcome State Fault Refusal := .next (s.wake sid false)
/-- SLEEPT_WAKE (12 R319). -/
def execSleeptWake (sid : Fin 16384) (s : State) : Host.Outcome State Fault Refusal := .next (s.wake sid true)

end Sys2Proof.Machine
end

