-- ==== Sys2Proof/Machine/Special.lean ====
section
/-! DEFINITION. FEXP2, FLOG2, FRSQ, FTANH and FSIGM (05 R137): each exact function value is enclosed between two numbers
close enough that both round to the same element, which is the value rounded once. -/
namespace Sys2Proof.Machine

/-- A positive number between `lo` × 2^e and `hi` × 2^e. -/
structure Encl where
  lo : Nat
  hi : Nat
  e : Int
  deriving DecidableEq, Repr

/-- Quotient rounded down, and up. -/
def divUp (a b : Nat) : Nat := (a + b - 1) / b

/-- ln 2 × 2^w, below and above: the sum of 1 / (k 2^k) (each term loses less than one). -/
def ln2 (w : Nat) : Nat × Nat :=
  let s := (List.range w).foldl (fun acc k => acc + 2 ^ w / ((k + 1) * 2 ^ (k + 1))) 0
  (s, s + w + 1)

/-- e^(y / 2^w) × 2^w for 0 ≤ y < 2^w, below and above, by `n` terms of its series from the term `t` numbered `k`. -/
def expSum (up : Bool) (w y : Nat) : (n k t acc : Nat) → Nat
  | 0, _, _, acc => if up then acc + 2 else acc
  | n + 1, k, t, acc =>
    let t' := if up then divUp (t * y) (2 ^ w * k) else t * y / (2 ^ w * k)
    expSum up w y n (k + 1) t' (acc + t')

/-- e^y for y between `ylo` / 2^w and `yhi` / 2^w, both in [0, 1). -/
def expEncl (w ylo yhi : Nat) : Encl :=
  ⟨expSum false w ylo (w / 3) 1 (2 ^ w) (2 ^ w), expSum true w yhi (w / 3) 1 (2 ^ w) (2 ^ w), -(w : Int)⟩

/-- The number m × 2^e in units of 2^-w, below and above. -/
def fix (w m : Nat) (e : Int) : Nat × Nat :=
  if 0 ≤ e + w then let v := m * 2 ^ (e + w).toNat; (v, v)
  else let d := 2 ^ (-(e + w)).toNat; (m / d, divUp m d)

/-- 2^x for x = ±m × 2^e with |x| < 2^13: the integer part scales, the fraction goes through e^(f ln 2). -/
def pow2Encl (w : Nat) (neg : Bool) (m : Nat) (e : Int) : Encl :=
  let (lo, hi) := fix w m e
  let a : Int := if neg then -(hi : Int) else lo
  let b : Int := if neg then -(lo : Int) else hi
  let n := a / (2 ^ w : Nat)
  let (l0, l1) := ln2 w
  let flo := (a - n * (2 ^ w : Nat)).toNat
  let fhi := (b - n * (2 ^ w : Nat)).toNat
  let r := expEncl w (flo * l0 / 2 ^ w) (divUp (fhi * l1) (2 ^ w))
  { r with e := r.e + n }

/-- e^y for y = m × 2^e in (0, 2^10): y / ln 2 splits into an integer and a fraction. -/
def expPos (w m : Nat) (e : Int) : Encl :=
  let (lo, hi) := fix w m e
  let (l0, l1) := ln2 w
  let n := lo / l1
  let r := expEncl w (lo - n * l1) (hi - n * l0)
  { r with e := r.e + n }

/-- ln g × 2^w for g = a / b in [1, 2), below and above: twice the series of artanh z, z = (g - 1) / (g + 1). -/
def lnEncl (w a b : Nat) : Nat × Nat :=
  let zlo := (a - b) * 2 ^ w / (a + b)
  let zhi := divUp ((a - b) * 2 ^ w) (a + b)
  let lo := (List.range (w / 3 + 2)).foldl (fun (p : Nat × Nat) k =>
    (p.1 + p.2 / (2 * k + 1), p.2 * zlo / 2 ^ w * zlo / 2 ^ w)) (0, zlo)
  let hi := (List.range (w / 3 + 2)).foldl (fun (p : Nat × Nat) k =>
    (p.1 + divUp p.2 (2 * k + 1), divUp (divUp (p.2 * zhi) (2 ^ w) * zhi) (2 ^ w))) (0, zhi)
  (2 * lo.1, 2 * hi.1 + 4)

/-- Rounds an enclosed value that is no exact case: both ends round alike, or none is given (05 R137). IX is set. -/
def Encl.round? (f : Fmt) (neg : Bool) (x : Encl) : Option (Nat × BitVec 6) :=
  let a := roundF f 0 neg x.lo x.e true
  let b := roundF f 0 neg x.hi x.e
  if a.1 = b.1 ∧ x.lo ≠ 0 then some (a.1, a.2 ||| fIX) else none

/-- The first precision at which the ends agree; the finest one's lower end otherwise (log 13). -/
def settle (f : Fmt) (neg : Bool) (x : Nat → Encl) : Nat × BitVec 6 :=
  match (x 192).round? f neg with
  | some r => r
  | none =>
    match (x 480).round? f neg with
    | some r => r
    | none => roundF f 0 neg (max 1 (x 480).lo) (x 480).e true

/-- 1 in a format. -/
def oneBits (f : Fmt) : Nat := (roundF f 0 false 1 0).1

/-- 2^x for a nonzero real (05 R137): exact for an integer. -/
def exp2Num (f : Fmt) (neg : Bool) (m : Nat) (e : Int) : Nat × BitVec 6 :=
  if 12 < e + (blen m : Int) then roundF f 0 false 1 (if neg then -4096 else 4096) true
  else if 0 ≤ e then
    let k : Int := (m * 2 ^ e.toNat : Nat)
    roundF f 0 false 1 (if neg then -k else k)
  else if m % 2 ^ (-e).toNat = 0 then
    let k : Int := (m / 2 ^ (-e).toNat : Nat)
    roundF f 0 false 1 (if neg then -k else k)
  else settle f false (fun w => pow2Encl w neg m e)

/-- log2 of a positive real (05 R137): exact for a power of two. -/
def log2Num (f : Fmt) (m : Nat) (e : Int) : Nat × BitVec 6 :=
  let s := e + (blen m : Int) - 1
  let b := 2 ^ (blen m - 1)
  if m = b then (if s = 0 then (zeroBits false f, 0) else roundF f 0 (decide (s < 0)) s.natAbs 0)
  else
    let neg := decide (s < 0)
    settle f neg (fun w =>
      let (n0, n1) := lnEncl w m b
      let (l0, l1) := ln2 w
      let lo : Int := s * (2 ^ w : Nat) + (n0 * 2 ^ w / l1 : Nat)
      let hi : Int := s * (2 ^ w : Nat) + (divUp (n1 * 2 ^ w) l0 : Nat)
      if neg then ⟨hi.natAbs, lo.natAbs, -(w : Int)⟩ else ⟨lo.natAbs, hi.natAbs, -(w : Int)⟩)

/-- 1 / √a of a positive real (05 R137): exact for an even power of two. -/
def rsqNum (f : Fmt) (m : Nat) (e : Int) : Nat × BitVec 6 :=
  let (m, e) : Nat × Int := if e % 2 = 0 then (m, e) else (2 * m, e - 1)
  let k := 128 + blen m
  let r := isqrt (2 ^ (2 * k) / m)
  roundF f 0 false r (-(k : Int) - e / 2) (decide (r * r * m ≠ 2 ^ (2 * k)))

/-- tanh of a positive real: a - a^3/3 ... for a small one, 1 - 2 / (e^2a + 1) otherwise. -/
def tanhNum (f : Fmt) (neg : Bool) (m : Nat) (e : Int) : Nat × BitVec 6 :=
  let top := e + (blen m : Int)
  if top ≤ -40 then let r := roundF f 0 neg (m * 2 ^ 40 - 1) (e - 40) true; (r.1, r.2 ||| fIX)
  else if 8 < top then let r := roundF f 0 neg (2 ^ 300 - 1) (-300) true; (r.1, r.2 ||| fIX)
  else settle f neg (fun w =>
    let x := expPos w m (e + 1)
    -- the exponent of x is at least -w: e^2a as a fixed number of w bits
    let k := (x.e + (w : Int)).toNat
    let lo := x.lo * 2 ^ k
    let hi := x.hi * 2 ^ k
    ⟨(lo - 2 ^ w) * 2 ^ w / (lo + 2 ^ w), divUp ((hi - 2 ^ w) * 2 ^ w) (hi + 2 ^ w), -(w : Int)⟩)

/-- 1 / (1 + e^-a) of a nonzero real. -/
def sigmNum (f : Fmt) (neg : Bool) (m : Nat) (e : Int) : Nat × BitVec 6 :=
  let top := e + (blen m : Int)
  if 10 < top then
    let r := if neg then roundF f 0 false 1 (-1000) true else roundF f 0 false (2 ^ 300 - 1) (-300) true
    (r.1, r.2 ||| fIX)
  else settle f false (fun w =>
    let x := expPos w m e
    let k := (x.e + (w : Int)).toNat
    let lo := x.lo * 2 ^ k
    let hi := x.hi * 2 ^ k
    -- with E = e^|a|: E / (1 + E) for a positive a, 1 / (1 + E) for a negative one
    let p := 2 ^ (w + 2000)
    if neg then ⟨2 ^ w * p / (hi + 2 ^ w), divUp (2 ^ w * p) (lo + 2 ^ w), -(w : Int) - 2000⟩
    else ⟨lo * p / (lo + 2 ^ w), divUp (hi * p) (hi + 2 ^ w), -(w : Int) - 2000⟩)

/-- FEXP2, FLOG2, FRSQ, FTANH, FSIGM of one element, with the special operands of 05 R137. -/
def fexp2 (f : Fmt) (a : Nat) : Nat × BitVec 6 :=
  match decodeF f a with
  | .nonreal => (nanBits f, 0)
  | .nan q => (nanBits f, flagIf q fNV)
  | .zero _ => (oneBits f, 0)
  | .inf neg => (if neg then zeroBits false f else infBits false f, 0)
  | .num neg m e => exp2Num f neg m e
def flog2 (f : Fmt) (a : Nat) : Nat × BitVec 6 :=
  match decodeF f a with
  | .nonreal => (nanBits f, 0)
  | .nan q => (nanBits f, flagIf q fNV)
  | .zero _ => if isTapF f then (nanBits f, fDZ ||| fNR) else (infBits true f, fDZ)
  | .inf true => (nanBits f, fNV)
  | .inf false => (infBits false f, 0)
  | .num true _ _ => (nanBits f, if isTapF f then fNR else fNV)
  | .num false m e => log2Num f m e
def frsq (f : Fmt) (a : Nat) : Nat × BitVec 6 :=
  match decodeF f a with
  | .nonreal => (nanBits f, 0)
  | .nan q => (nanBits f, flagIf q fNV)
  | .zero neg => if isTapF f then (nanBits f, fDZ ||| fNR) else (infBits neg f, fDZ)
  | .inf true => (nanBits f, fNV)
  | .inf false => (zeroBits false f, 0)
  | .num true _ _ => (nanBits f, if isTapF f then fNR else fNV)
  | .num false m e => rsqNum f m e
def ftanh (f : Fmt) (a : Nat) : Nat × BitVec 6 :=
  match decodeF f a with
  | .nonreal => (nanBits f, 0)
  | .nan q => (nanBits f, flagIf q fNV)
  | .zero neg => (zeroBits neg f, 0)
  | .inf neg => ((roundF f 0 neg 1 0).1, 0)
  | .num neg m e => tanhNum f neg m e
def fsigm (f : Fmt) (a : Nat) : Nat × BitVec 6 :=
  match decodeF f a with
  | .nonreal => (nanBits f, 0)
  | .nan q => (nanBits f, flagIf q fNV)
  | .zero _ => ((roundF f 0 false 1 (-1)).1, 0)
  | .inf neg => (if neg then zeroBits false f else oneBits f, 0)
  | .num neg m e => sigmNum f neg m e

/-- FEXP2 (05 R137). -/
def execFexp2 (d : Dst) (a : Src) (s : State) : Host.Outcome State Fault Refusal :=
  s.lane (fun t => { d := d, a := some a, badType := floatTy t })
    (lanewise (floatOp (fun f _ a _ _ => fexp2 f a)))
/-- FLOG2 (05 R137). -/
def execFlog2 (d : Dst) (a : Src) (s : State) : Host.Outcome State Fault Refusal :=
  s.lane (fun t => { d := d, a := some a, badType := floatTy t })
    (lanewise (floatOp (fun f _ a _ _ => flog2 f a)))
/-- FRSQ (05 R137). -/
def execFrsq (d : Dst) (a : Src) (s : State) : Host.Outcome State Fault Refusal :=
  s.lane (fun t => { d := d, a := some a, badType := floatTy t })
    (lanewise (floatOp (fun f _ a _ _ => frsq f a)))
/-- FTANH (05 R137). -/
def execFtanh (d : Dst) (a : Src) (s : State) : Host.Outcome State Fault Refusal :=
  s.lane (fun t => { d := d, a := some a, badType := floatTy t })
    (lanewise (floatOp (fun f _ a _ _ => ftanh f a)))
/-- FSIGM (05 R137). -/
def execFsigm (d : Dst) (a : Src) (s : State) : Host.Outcome State Fault Refusal :=
  s.lane (fun t => { d := d, a := some a, badType := floatTy t })
    (lanewise (floatOp (fun f _ a _ _ => fsigm f a)))

end Sys2Proof.Machine
end

