-- ==== Sys2Proof/Machine/Dispatch.lean ====
section
/-! DEFINITION. What each instruction and each step of the module does: one call of its meaning. -/
namespace Sys2Proof.Machine

def exec (i : Instr) (s : State) : Host.Outcome State Fault Refusal :=
  match i with
  | .nop => Sys2Proof.Machine.execNop s
  | .mod q sc e t r z k => Sys2Proof.Machine.execMod q sc e t r z k s
  | .ximm imm => Sys2Proof.Machine.execXimm imm s
  | .bra o => Sys2Proof.Machine.execBra o s
  | .bz c o => Sys2Proof.Machine.execBz c o s
  | .bnz c o => Sys2Proof.Machine.execBnz c o s
  | .brd m o => Sys2Proof.Machine.execBrd m o s
  | .brdn m o => Sys2Proof.Machine.execBrdn m o s
  | .jset o => Sys2Proof.Machine.execJset o s
  | .join => Sys2Proof.Machine.execJoin s
  | .jmp a => Sys2Proof.Machine.execJmp a s
  | .jmpv a => Sys2Proof.Machine.execJmpv a s
  | .call o => Sys2Proof.Machine.execCall o s
  | .callr a => Sys2Proof.Machine.execCallr a s
  | .ret a => Sys2Proof.Machine.execRet a s
  | .exit => Sys2Proof.Machine.execExit s
  | .loop c o => Sys2Proof.Machine.execLoop c o s
  | .brk k => Sys2Proof.Machine.execBrk k s
  | .pushp a => Sys2Proof.Machine.execPushp a s
  | .pushpn a => Sys2Proof.Machine.execPushpn a s
  | .pushm a => Sys2Proof.Machine.execPushm a s
  | .invp => Sys2Proof.Machine.execInvp s
  | .popp => Sys2Proof.Machine.execPopp s
  | .mset d k => Sys2Proof.Machine.execMset d k s
  | .mlog d a b f => Sys2Proof.Machine.execMlog d a b f s
  | .mcnt d a => Sys2Proof.Machine.execMcnt d a s
  | .mfst d a => Sys2Proof.Machine.execMfst d a s
  | .mtos d a => Sys2Proof.Machine.execMtos d a s
  | .stom d a => Sys2Proof.Machine.execStom d a s
  | .many d a => Sys2Proof.Machine.execMany d a s
  | .mall d a => Sys2Proof.Machine.execMall d a s
  | .mspill a => Sys2Proof.Machine.execMspill a s
  | .mfill a n => Sys2Proof.Machine.execMfill a n s
  | .add d a b => Sys2Proof.Machine.execAdd d a b s
  | .sub d a b => Sys2Proof.Machine.execSub d a b s
  | .mul d a b => Sys2Proof.Machine.execMul d a b s
  | .mulh d a b => Sys2Proof.Machine.execMulh d a b s
  | .min d a b => Sys2Proof.Machine.execMin d a b s
  | .max d a b => Sys2Proof.Machine.execMax d a b s
  | .abs d a => Sys2Proof.Machine.execAbs d a s
  | .neg d a => Sys2Proof.Machine.execNeg d a s
  | .and d a b => Sys2Proof.Machine.execAnd d a b s
  | .or d a b => Sys2Proof.Machine.execOr d a b s
  | .xor d a b => Sys2Proof.Machine.execXor d a b s
  | .andn d a b => Sys2Proof.Machine.execAndn d a b s
  | .shl d a b => Sys2Proof.Machine.execShl d a b s
  | .shr d a b => Sys2Proof.Machine.execShr d a b s
  | .sar d a b => Sys2Proof.Machine.execSar d a b s
  | .rot d a b => Sys2Proof.Machine.execRot d a b s
  | .addi d imm => Sys2Proof.Machine.execAddi d imm s
  | .li d imm => Sys2Proof.Machine.execLi d imm s
  | .lsi d imm => Sys2Proof.Machine.execLsi d imm s
  | .lea d a b k => Sys2Proof.Machine.execLea d a b k s
  | .clz d a => Sys2Proof.Machine.execClz d a s
  | .popc d a => Sys2Proof.Machine.execPopc d a s
  | .brev d a => Sys2Proof.Machine.execBrev d a s
  | .bfx d a b => Sys2Proof.Machine.execBfx d a b s
  | .bfi d a b => Sys2Proof.Machine.execBfi d a b s
  | .div d a b => Sys2Proof.Machine.execDiv d a b s
  | .rem d a b => Sys2Proof.Machine.execRem d a b s
  | .mad d a b => Sys2Proof.Machine.execMad d a b s
  | .sext d a b => Sys2Proof.Machine.execSext d a b s
  | .zext d a b => Sys2Proof.Machine.execZext d a b s
  | .cmp d a b f => Sys2Proof.Machine.execCmp d a b f s
  | .cmpm d a b f => Sys2Proof.Machine.execCmpm d a b f s
  | .sel d a b m => Sys2Proof.Machine.execSel d a b m s
  | .clamp d a b => Sys2Proof.Machine.execClamp d a b s
  | .fadd d a b => Sys2Proof.Machine.execFadd d a b s
  | .fsub d a b => Sys2Proof.Machine.execFsub d a b s
  | .fmul d a b => Sys2Proof.Machine.execFmul d a b s
  | .fma d a b => Sys2Proof.Machine.execFma d a b s
  | .fnma d a b => Sys2Proof.Machine.execFnma d a b s
  | .fmin d a b => Sys2Proof.Machine.execFmin d a b s
  | .fmax d a b => Sys2Proof.Machine.execFmax d a b s
  | .fneg d a => Sys2Proof.Machine.execFneg d a s
  | .fabs d a => Sys2Proof.Machine.execFabs d a s
  | .fdiv d a b => Sys2Proof.Machine.execFdiv d a b s
  | .fsqrt d a => Sys2Proof.Machine.execFsqrt d a s
  | .fexp2 d a => Sys2Proof.Machine.execFexp2 d a s
  | .flog2 d a => Sys2Proof.Machine.execFlog2 d a s
  | .frsq d a => Sys2Proof.Machine.execFrsq d a s
  | .ftanh d a => Sys2Proof.Machine.execFtanh d a s
  | .fsigm d a => Sys2Proof.Machine.execFsigm d a s
  | .fclass d a => Sys2Proof.Machine.execFclass d a s
  | .cvt d a b sc => Sys2Proof.Machine.execCvt d a b sc s
  | .qcb d a b n => Sys2Proof.Machine.execQcb d a b n s
  | .dqcb d a b n => Sys2Proof.Machine.execDqcb d a b n s
  | .pack d a b sc => Sys2Proof.Machine.execPack d a b sc s
  | .unpk d a sc => Sys2Proof.Machine.execUnpk d a sc s
  | .had d a b => Sys2Proof.Machine.execHad d a b s
  | .hadinv d a b => Sys2Proof.Machine.execHadinv d a b s
  | .rand d a b => Sys2Proof.Machine.execRand d a b s
  | .shfl d a b f => Sys2Proof.Machine.execShfl d a b f s
  | .bfly d a f => Sys2Proof.Machine.execBfly d a f s
  | .bcast d a b => Sys2Proof.Machine.execBcast d a b s
  | .redw d a f => Sys2Proof.Machine.execRedw d a f s
  | .scan d a f => Sys2Proof.Machine.execScan d a f s
  | .compact d a => Sys2Proof.Machine.execCompact d a s
  | .xtos d a b => Sys2Proof.Machine.execXtos d a b s
  | .stox d a b => Sys2Proof.Machine.execStox d a b s
  | .mov d a => Sys2Proof.Machine.execMov d a s
  | .movs d a b => Sys2Proof.Machine.execMovs d a b s
  | .mdot d a b k => Sys2Proof.Machine.execMdot d a b k s
  | .mdotp a b z k => Sys2Proof.Machine.execMdotp a b z k s
  | .mbatch d => Sys2Proof.Machine.execMbatch d s
  | .mwait a => Sys2Proof.Machine.execMwait a s
  | .aget d a => Sys2Proof.Machine.execAget d a s
  | .aput d a => Sys2Proof.Machine.execAput d a s
  | .azero d k => Sys2Proof.Machine.execAzero d k s
  | .ascl d a k => Sys2Proof.Machine.execAscl d a k s
  | .ldcb n a => Sys2Proof.Machine.execLdcb n a s
  | .ppass => Sys2Proof.Machine.execPpass s
  | .pdrop => Sys2Proof.Machine.execPdrop s
  | .pstat d => Sys2Proof.Machine.execPstat d s
  | .tailcfg a b => Sys2Proof.Machine.execTailcfg a b s
  | .lds d a b f => Sys2Proof.Machine.execLds d a b f s
  | .sts d a b f => Sys2Proof.Machine.execSts d a b f s
  | .ldsb d a b => Sys2Proof.Machine.execLdsb d a b s
  | .stsb d a b => Sys2Proof.Machine.execStsb d a b s
  | .pres d a b => Sys2Proof.Machine.execPres d a b s
  | .absent a b n => Sys2Proof.Machine.execAbsent a b n s
  | .atoms d a b f => Sys2Proof.Machine.execAtoms d a b f s
  | .cass d a b => Sys2Proof.Machine.execCass d a b s
  | .ldg d a b f => Sys2Proof.Machine.execLdg d a b f s
  | .stg d a b f => Sys2Proof.Machine.execStg d a b f s
  | .ldgb d a b f => Sys2Proof.Machine.execLdgb d a b f s
  | .stgb d a b => Sys2Proof.Machine.execStgb d a b s
  | .atomg d a b f => Sys2Proof.Machine.execAtomg d a b f s
  | .redg a b f => Sys2Proof.Machine.execRedg a b f s
  | .casg d a b => Sys2Proof.Machine.execCasg d a b s
  | .prefg a b => Sys2Proof.Machine.execPrefg a b s
  | .isect d a b => Sys2Proof.Machine.execIsect d a b s
  | .frel sc => Sys2Proof.Machine.execFrel sc s
  | .facq sc => Sys2Proof.Machine.execFacq sc s
  | .ffull sc => Sys2Proof.Machine.execFfull sc s
  | .ifence => Sys2Proof.Machine.execIfence s
  | .bari a b => Sys2Proof.Machine.execBari a b s
  | .barv a b sc => Sys2Proof.Machine.execBarv a b sc s
  | .barw a b => Sys2Proof.Machine.execBarw a b s
  | .barx a b => Sys2Proof.Machine.execBarx a b s
  | .bars d a k => Sys2Proof.Machine.execBars d a k s
  | .time d => Sys2Proof.Machine.execTime d s
  | .clkc d => Sys2Proof.Machine.execClkc d s
  | .qput a b f => Sys2Proof.Machine.execQput a b f s
  | .tdec a => Sys2Proof.Machine.execTdec a s
  | .tarm a b => Sys2Proof.Machine.execTarm a b s
  | .take d a => Sys2Proof.Machine.execTake d a s
  | .spawn a b => Sys2Proof.Machine.execSpawn a b s
  | .yield => Sys2Proof.Machine.execYield s
  | .sleept a => Sys2Proof.Machine.execSleept a s
  | .setmode m => Sys2Proof.Machine.execSetmode m s
  | .getmode d => Sys2Proof.Machine.execGetmode d s
  | .csrr d c => Sys2Proof.Machine.execCsrr d c s
  | .csrw c b => Sys2Proof.Machine.execCsrw c b s
  | .trap a k => Sys2Proof.Machine.execTrap a k s
  | .rett => Sys2Proof.Machine.execRett s
  | .ctxsv a => Sys2Proof.Machine.execCtxsv a s
  | .ctxld a => Sys2Proof.Machine.execCtxld a s
  | .forcedIssue sid => Sys2Proof.Machine.execForcedIssue sid s
  | .seatWake sid => Sys2Proof.Machine.execSeatWake sid s
  | .sleeptWake sid => Sys2Proof.Machine.execSleeptWake sid s
  | .matrixStep k => Sys2Proof.Machine.execMatrixStep k s
  | .portCrossingMove k => Sys2Proof.Machine.execPortCrossingMove k s
  | .tailSinkStore k => Sys2Proof.Machine.execTailSinkStore k s
  | .faddxContribution imm => Sys2Proof.Machine.execFaddxContribution imm s
  | .faddxWaitReport imm => Sys2Proof.Machine.execFaddxWaitReport imm s
  | .extQueueSubmit p hdr pkt widx => Sys2Proof.Machine.execExtQueueSubmit p hdr pkt widx s
  | .queueRegister p hdr => Sys2Proof.Machine.execQueueRegister p hdr s
  | .queueHaltClear p hdr => Sys2Proof.Machine.execQueueHaltClear p hdr s
  | .copy p hdr => Sys2Proof.Machine.execCopy p hdr s
  | .feed p hdr => Sys2Proof.Machine.execFeed p hdr s
  | .fill p hdr => Sys2Proof.Machine.execFill p hdr s
  | .gather p hdr => Sys2Proof.Machine.execGather p hdr s
  | .feedEntryPush k => Sys2Proof.Machine.execFeedEntryPush k s
  | .release n => Sys2Proof.Machine.execRelease n s
  | .landed n => Sys2Proof.Machine.execLanded n s
  | .copyFaultResume n => Sys2Proof.Machine.execCopyFaultResume n s
  | .axpy p src => Sys2Proof.Machine.execAxpy p src s
  | .scale p src => Sys2Proof.Machine.execScale p src s
  | .momentum p src => Sys2Proof.Machine.execMomentum p src s
  | .adamw p src => Sys2Proof.Machine.execAdamw p src s
  | .girthZero p src => Sys2Proof.Machine.execGirthZero p src s
  | .xclose p src => Sys2Proof.Machine.execXclose p src s
  | .launchAccept p => Sys2Proof.Machine.execLaunchAccept p s
  | .launchPlace p => Sys2Proof.Machine.execLaunchPlace p s
  | .bridleFaultResume p => Sys2Proof.Machine.execBridleFaultResume p s
  | .spawnBinTimer core bin => Sys2Proof.Machine.execSpawnBinTimer core bin s
  | .pendingRowPlace core bin => Sys2Proof.Machine.execPendingRowPlace core bin s
  | .seatRelease sid => Sys2Proof.Machine.execSeatRelease sid s
  | .resume p => Sys2Proof.Machine.execResume p s
  | .abort p => Sys2Proof.Machine.execAbort p s
  | .kill p => Sys2Proof.Machine.execKill p s
  | .skip p => Sys2Proof.Machine.execSkip p s
  | .preempt p => Sys2Proof.Machine.execPreempt p s
  | .preemptSeatStop sid => Sys2Proof.Machine.execPreemptSeatStop sid s
  | .preemptDeadline p => Sys2Proof.Machine.execPreemptDeadline p s
  | .preemptDrainEnd p => Sys2Proof.Machine.execPreemptDrainEnd p s
  | .restore p => Sys2Proof.Machine.execRestore p s
  | .diereset p => Sys2Proof.Machine.execDiereset p s
  | .dieFault die => Sys2Proof.Machine.execDieFault die s
  | .dieResetForce die => Sys2Proof.Machine.execDieResetForce die s
  | .tuSet p cnt level => Sys2Proof.Machine.execTuSet p cnt level s
  | .tuClear p cnt level => Sys2Proof.Machine.execTuClear p cnt level s
  | .tuSetrange p cnt level => Sys2Proof.Machine.execTuSetrange p cnt level s
  | .tuComplete p => Sys2Proof.Machine.execTuComplete p s
  | .apply stack => Sys2Proof.Machine.execApply stack s
  | .applyDone stack => Sys2Proof.Machine.execApplyDone stack s
  | .retireGo stack => Sys2Proof.Machine.execRetireGo stack s
  | .retireSwitch stack => Sys2Proof.Machine.execRetireSwitch stack s
  | .peerRetryResend => Sys2Proof.Machine.execPeerRetryResend s
  | .sramUe place => Sys2Proof.Machine.execSramUe place s
  | .uvTrial die => Sys2Proof.Machine.execUvTrial die s
  | .uvAbort die => Sys2Proof.Machine.execUvAbort die s
  | .uvBlacklistExpire die vid => Sys2Proof.Machine.execUvBlacklistExpire die vid s
  | .partitionEnable p w => Sys2Proof.Machine.execPartitionEnable p w s
  | .partitionDisable p => Sys2Proof.Machine.execPartitionDisable p s
  | .pwrshareWrite p w => Sys2Proof.Machine.execPwrshareWrite p w s
  | .counterFrozenClear p n => Sys2Proof.Machine.execCounterFrozenClear p n s
  | .registerWrite p r v => Sys2Proof.Machine.execRegisterWrite p r v s
  | .controlNodeAccess p va size wr => Sys2Proof.Machine.execControlNodeAccess p va size wr s
  | .peerAccessInbound link dev src p va op => Sys2Proof.Machine.execPeerAccessInbound link dev src p va op s
  | .controlInterval => Sys2Proof.Machine.execControlInterval s
  | .droopTrip core => Sys2Proof.Machine.execDroopTrip core s
  | .droopWindowEnd core => Sys2Proof.Machine.execDroopWindowEnd core s
  | .coolantFault => Sys2Proof.Machine.execCoolantFault s
  | .coolantFaultClear => Sys2Proof.Machine.execCoolantFaultClear s
  | .thermalTrip die => Sys2Proof.Machine.execThermalTrip die s
  | .powerGood => Sys2Proof.Machine.execPowerGood s
  | .firmwareReload image => Sys2Proof.Machine.execFirmwareReload image s
  | .open nonce keys edSig mlSig => Sys2Proof.Machine.execOpen nonce keys edSig mlSig s
  | .close => Sys2Proof.Machine.execClose s
  | .lossOfLight => Sys2Proof.Machine.execLossOfLight s
  | .quote nonce => Sys2Proof.Machine.execQuote nonce s
  | .identityQuery => Sys2Proof.Machine.execIdentityQuery s
  | .flitCrcError link => Sys2Proof.Machine.execFlitCrcError link s
  | .linkTrained link dev => Sys2Proof.Machine.execLinkTrained link dev s
  | .unassignedOpcode w => Sys2Proof.Machine.execUnassignedOpcode w s
  | .trialPassed die => Sys2Proof.Machine.execTrialPassed die s
  | .dieRejoin die => Sys2Proof.Machine.execDieRejoin die s
  | .powerOff => Sys2Proof.Machine.execPowerOff s
  | .newValuesApply core => Sys2Proof.Machine.execNewValuesApply core s

end Sys2Proof.Machine
end

