-- ==== Sys2Proof/Machine/Schedule.lean ====
section
/-! DEFINITION. What the agenda's acts do (log 2): a seat's slot (02 R45, R46), a core's clock and the selection of its
issue partitions (11 R281 to R286), an input of the surroundings, and the tick of TIME that puts on the agenda whatever
is due. -/
namespace Sys2Proof.Machine

/-! ### A slot -/

/-- The word takes no issue: NOP, MOD and XIMM (02 R46). -/
def noIssue : Instr → Bool
  | .nop => true
  | .mod _ _ _ _ _ _ _ => true
  | .ximm _ => true
  | .unassignedOpcode w => w.extractLsb' 24 8 == 0xF0
  | _ => false

/-- The charge of the slot that a seat is at (11 R283); 0 for an opcode that is not assigned (log 93). -/
def Seat.charge (t : Seat) : Nat :=
  let w := (((opInfo (t.word.extractLsb' 24 8).toNat).map (fun i => i.weight)).getD 0)
  if t.uniform then w else w * (lanesOf t.gov).length

/-- The pipe class of the slot that a seat is at (02 R46); S for an opcode that is not assigned (log 93). -/
def Seat.pipe (t : Seat) : Pipe :=
  if t.uniform then .s else ((opInfo (t.word.extractLsb' 24 8).toNat).map (fun i => i.pipe)).getD .s

/-- The rows of a string whose head has issued may start, each k × SKEW of its own core's clocks later (10 R274). -/
def State.startString (s : State) (head : Seat) : State :=
  match s.launchOf head with
  | none => s
  | some l =>
    { s with seats := s.seats.map (fun (e : Nat × Seat) =>
        if e.2.startClk.isNone && e.2.bind.part == head.bind.part && e.2.bind.lid == head.bind.lid &&
            e.2.bind.string == head.bind.string && !e.2.bind.spawned then
          (e.1, { e.2 with startClk := some ((s.core (sidCore e.1)).clkc + e.2.bind.srow * l.skew) })
        else e) }

/-- What an issue leaves beside the instruction's own effect: the stamp, the skip counter, the die's meter, and the
starts of its string (11 R282, R285; 21 R386; 10 R274). `t` is the seat as the slot found it. -/
def State.issued (s : State) (sid : Nat) (t : Seat) : State :=
  let d := sidCore sid / 8
  let s1 := s.mapDie d (fun u => { u with charges := u.charges + t.charge })
  let v := s1.seat sid
  let s2 := if v.resident then s1.setSeat sid { v.skipNops 2 with stamp := (s1.core (sidCore sid)).clkc, skip := 0 } else s1
  if t.bind.srow = 0 ∧ !t.bind.spawned then s2.startString t else s2

/-- The instruction is JOIN. -/
def isJoin : Instr → Bool
  | .join => true
  | _ => false

/-- A JOIN parks while the bundle that it leads to is being fetched (11 R281, 12 R301). -/
def State.joined (s : State) (sid : Nat) (i : Instr) : State :=
  let v := s.seat sid
  if isJoin i && decide (v.status = .ready) && s.fetchWaits sid then s.setSeat sid { v with status := .parked .fetch } else s

/-- What follows a slot's run: a slot that takes no issue is followed at once by the next of its bundle (02 R46), a stall
by nothing (11 R281), and any other is an issue, one that parks among them (log 106). -/
def State.after (s : State) (sid : Nat) (t : Seat) (i : Instr) : State :=
  let v := s.seat sid
  if noIssue i then
    if v.status = .ready ∧ v.bundle.isSome then { s with agenda := .issue sid :: s.agenda } else s
  else if s.stalled then s
  else (s.issued sid t).joined sid i

/-- The slot that a seat runs next, with its bundle in hand. -/
def State.runWord (s : State) (sid : Nat) : Host.Outcome State Fault Refusal :=
  let t := s.seat sid
  match exec (wordInstr t.word) s with
  | .next s2 => .next (s2.after sid t (wordInstr t.word))
  | .fault f => .fault f
  | .refused r => .refused r

/-- A ready seat runs its next slot, its bundle fetched where it is not in hand. -/
def State.runSlot (s : State) (sid : Nat) : Host.Outcome State Fault Refusal :=
  let s0 := { s with cur := sid, stalled := false }
  if (s0.seat sid).status ≠ .ready then .next s0
  else
    match s0.inHand sid with
    | .error e => .next (s0.stop sid e)
    | .ok s1 => s1.runWord sid

/-! ### Selection (11 R281 to R286) -/

/-- What a seat's next issue would be: it stalls; it comes to something that is no issue; or an issue, with its pipe, its
charge and its YLD bit. -/
inductive Look where
  | stalled
  | free
  | issue (pipe : Pipe) (charge : Nat) (yld : Bool)
  deriving DecidableEq, Repr

/-- The machine has stalled, and is otherwise as it was. -/
def State.sameButStalled (s s1 : State) : Bool := s.stalled && decide ({ s with stalled := s1.stalled } = s1)

/-- A seat's next issue, tried on a machine that is then discarded: what parks competes as an issue (log 106). -/
def State.look (s : State) (sid : Nat) : Nat → Look
  | 0 => .free
  | n + 1 =>
    let s0 := { s with cur := sid, stalled := false }
    match s0.inHand sid with
    | .error e => if (s0.stop sid e).sameButStalled s0 then .stalled else .free
    | .ok s1 =>
      let t := s1.seat sid
      let i := wordInstr t.word
      match exec i s1 with
      | .next s2 =>
        if noIssue i then
          if (s2.seat sid).status = .ready ∧ (s2.seat sid).bundle.isSome then s2.look sid n else .free
        else if s2.stalled then (if s2.sameButStalled s1 then .stalled else .free)
        else .issue t.pipe t.charge (match t.bundle with
          | some b => (vget 0 b 0).getLsbD 16
          | none => false)
      | _ => .free

/-- A candidate: its rank, its seat and what it would do. -/
abbrev Candidate := Nat × Nat × Look

/-- The slot of a seat is run for what it does on its way to a stall or to something that is no issue (11 R281; log 51):
one that has come to be an issue waits for its selection, and one that stalls as it is is left so. -/
def State.prepare (s : State) (sid : Nat) : Host.Outcome State Fault Refusal :=
  match s.look sid 4 with
  | .free =>
    match s.runSlot sid with
    | .next s1 => .next (if s1.agenda = .issue sid :: s.agenda then { s1 with agenda := .prepare sid :: s.agenda } else s1)
    | o => o
  | _ => .next s

/-- Which seats of a core that are being pre-empted stall at their next slot: those are not switched out (11 R281). -/
def State.gauge (s : State) (core : Nat) : State :=
  { s with seats := s.seats.map (fun (e : Nat × Seat) =>
      if sidCore e.1 == core && (s.part e.2.bind.part).pre.isSome then
        (e.1, { e.2 with waits := decide (e.2.status = .ready) && decide (s.look e.1 4 = .stalled) })
      else e) }

/-- The candidate put into its place (11 R282). -/
def insertCand (x : Candidate) : List Candidate → List Candidate
  | [] => [x]
  | y :: ys => if x.1 < y.1 then x :: y :: ys else y :: insertCand x ys

/-- The candidates of an issue partition of a core, oldest first: by stamp, 64 later under YLD, then row, then seat. -/
def State.candidates (s : State) (core q : Nat) : List Candidate :=
  (s.seats.filter (fun (e : Nat × Seat) => sidCore e.1 == core && sidRow e.1 % 8 == q && decide (e.2.status = .ready) &&
      (match e.2.startClk with
        | some k => decide (k ≤ (s.core core).clkc)
        | none => false))).foldl (fun (xs : List Candidate) (e : Nat × Seat) =>
    let l := s.look e.1 4
    let late := match l with
      | .issue _ _ true => 64
      | _ => 0
    match l with
    | .stalled => xs
    | _ => insertCand ((e.2.stamp + late) * 256 + e.1 % 256, e.1, l) xs) []

/-- The selection's running values (11 R285). -/
structure Pick where
  rem : Nat
  pipes : List Pipe := []
  rows : List Nat := []
  acts : List Act := []
  skipped : List Nat := []
  deriving DecidableEq, Repr

/-- One candidate considered, `skip` being its counter (11 R285). -/
def Pick.consider (x : Pick) (skip : Nat) (c : Candidate) : Pick :=
  let (_, sid, l) := c
  match l with
  | .stalled => x
  | .free => { x with acts := x.acts ++ [.prepare sid] }
  | .issue pipe ch _ =>
    if x.pipes.contains pipe || x.rows.contains (sidRow sid) then x
    else
      let taken := { x with pipes := pipe :: x.pipes, rows := sidRow sid :: x.rows }
      if ch ≤ x.rem then { taken with rem := x.rem - ch, acts := x.acts ++ [.issue sid] }
      else if skip < 16 then { x with skipped := sid :: x.skipped }
      else { taken with rem := 0, acts := x.acts ++ [.event (.forcedIssue (Fin.ofNat 16384 sid))] }

/-- Seats of an issue partition that parked by YIELD before this clock wake after its selection (12 R318). -/
def State.yielders (s : State) (core q : Nat) : List Act :=
  s.seats.filterMap (fun (e : Nat × Seat) =>
    if sidCore e.1 = core ∧ sidRow e.1 % 8 = q then
      match e.2.status with
      | .parked (.yield c) => if c < (s.core core).clkc then some (.event (.seatWake (Fin.ofNat 16384 e.1))) else none
      | _ => none
    else none)

/-- One issue partition selects (11 R285), and what it has selected; after a forced issue it idles for a clock. -/
def State.selectPart (s : State) (core q : Nat) : State × List Act × List Act :=
  let u := s.core core
  if u.idleNext.getLsbD q then (s.setCore core { u with idleNext := u.idleNext &&& ~~~(1#8 <<< q) }, [], [])
  else
    let x := (s.candidates core q).foldl (fun (x : Pick) c => x.consider (s.seat c.2.1).skip c) { rem := u.budgetNow }
    (x.skipped.foldl (fun (s : State) sid => s.setSeat sid { s.seat sid with skip := (s.seat sid).skip + 1 }) s, x.acts,
      s.yielders core q)

/-- The seat that an act of a selection names. -/
def actSeat : Act → Nat
  | .issue sid => sid
  | .prepare sid => sid
  | .event (.forcedIssue sid) => sid
  | _ => 0

/-- An act put into its place, by physical row and then seat. -/
def insertAct (x : Act) : List Act → List Act
  | [] => [x]
  | y :: ys => if actSeat x < actSeat y then x :: y :: ys else y :: insertAct x ys

/-- The issue partitions of a core select. What they have selected runs in ascending physical row, then seat, the order in
which the pairs of one clock's SPAWNs arrive (10 R275). -/
def State.select (s : State) (core : Nat) : State :=
  let (s1, acts, wakes) := (List.range 8).foldl (fun (x : State × List Act × List Act) q =>
    let y := x.1.selectPart core q
    (y.1, x.2.1 ++ y.2.1, x.2.2 ++ y.2.2)) (s, [], [])
  { s1 with agenda := acts.foldr insertAct [] ++ wakes ++ s1.agenda }

/-! ### A core's clock -/

/-- Events of a core that may be due as its clock begins: each event's own meaning checks that it is. Parks clear before
it is found which seats stall at their next slot (11 R281), and those that do are not switched out. -/
def State.clockEvents (s : State) (core : Nat) : List Act :=
  let u := s.core core
  let rows := s.rows.filter (fun (e : Nat × RowUnit) => e.1 / 64 == core)
  let at4096 (k : Nat) : Fin 4096 := Fin.ofNat 4096 k
  let seats := s.seats.filter (fun (e : Nat × Seat) => sidCore e.1 == core)
  (if u.droops then [Act.event (.droopTrip (Fin.ofNat 64 core))] else []) ++
  (if u.next.isSome then [.event (.newValuesApply (Fin.ofNat 64 core))] else []) ++
  (if u.halveUntil ≠ 0 ∧ u.halveUntil ≤ u.clkc then [.event (.droopWindowEnd (Fin.ofNat 64 core))] else []) ++
  rows.flatMap (fun (e : Nat × RowUnit) =>
    (if e.2.mat.isEmpty then [] else [Act.event (.matrixStep (at4096 e.1))]) ++
    (if e.2.south.isEmpty then [] else [.event (.portCrossingMove (at4096 e.1)), .event (.tailSinkStore (at4096 e.1))]) ++
    (if e.2.feed.isNone then [] else [.event (.feedEntryPush (at4096 e.1))])) ++
  seats.flatMap (fun (e : Nat × Seat) =>
    let sid : Fin 16384 := Fin.ofNat 16384 e.1
    match e.2.status with
    | .parked (.yield _) => []
    | .parked (.sleep _) => [Act.event (.sleeptWake sid)]
    | .parked _ => [.event (.seatWake sid)]
    | .exited => [.event (.seatRelease sid)]
    | _ => []) ++
  (if seats.any (fun (e : Nat × Seat) => (s.part e.2.bind.part).pre.isSome) then [.gauge core] else []) ++
  (seats.filter (fun (e : Nat × Seat) => (s.part e.2.bind.part).pre.isSome)).map (fun (e : Nat × Seat) =>
    .event (.preemptSeatStop (Fin.ofNat 16384 e.1)))

/-- The next clock of a core begins, if the last is over: thousandths of a clock have gathered, twice as many in a
stretched one (21 R387). -/
def State.clockBegin (s : State) (core : Nat) : State :=
  let u := s.core core
  let cost := if u.stretched then 2000 else 1000
  if !s.clocked core || decide (u.phase < cost) then s
  else
    let s1 := s.setCore core { u with clkc := u.clkc + 1, phase := u.phase - cost }
    { s1 with agenda := s1.clockEvents core ++ [.select core, .clock core] ++ s1.agenda }

/-! ### The tick of TIME -/

/-- The command of a girth packet, as an event. -/
def girthEvent (kind : Nat) (p : Fin 8) (src : GirthSrc) : Instr :=
  match kind with
  | 0x11 => .scale p src
  | 0x12 => .momentum p src
  | 0x13 => .adamw p src
  | 0x14 => .girthZero p src
  | 0x15 => .xclose p src
  | _ => .axpy p src

/-- The kind of a copy packet, as an event. -/
def copyEvent (kind : Nat) (p : Fin 8) (hdr : Word) : Instr :=
  if kind = kFEED then .feed p hdr else if kind = kFILL then .fill p hdr else if kind = kGATHER then .gather p hdr else .copy p hdr

/-- The next step of a copy or girth queue; a slot that halts it counts as a packet of no kind. -/
def State.queueEvents (s : State) (p : Fin 8) (q : Queue) : List Act :=
  let head : Option Nat := match s.offer { q with stalled := false } with
    | .packet k => some (pktKind k)
    | .code _ => some 0
    | _ => none
  if q.sort = 1 then
    match s.moving p q.hdr with
    | some (_, k) => [.event (copyEvent (pktKind k.pkt) p q.hdr)]
    | none => match head with
      | some k => [.event (copyEvent k p q.hdr)]
      | none => []
  else if q.sort = 2 then
    if q.run.isSome then [.event (.axpy p (.queue q.hdr))]
    else match head with
      | some k => [.event (girthEvent k p (.queue q.hdr))]
      | none => []
  else []

/-- What may be due in a partition. -/
def State.partEvents (s : State) (p : Fin 8) : List Act :=
  let u := s.part p
  if !u.en then []
  else
    (if u.tuctl.getLsbD 25 then [Act.event (.tuComplete p)] else []) ++
    (if u.pre.isSome then [.event (.preemptDeadline p), .event (.preemptDrainEnd p)] else []) ++
    (if u.acceptStalled || u.counters.any (fun (e : Nat × Counter) => !e.2.pend.isEmpty) then [.event (.bridleFaultResume p)] else []) ++
    (if u.queues.any (fun q => q.sort == 0) then [.event (.launchAccept p)] else []) ++
    u.queues.flatMap (s.queueEvents p) ++
    u.tasks.map (fun t => .event (girthEvent (pktKind t.pkt) p (.task (Fin.ofNat 24 t.stack)))) ++
    (if (s.firstWaiting p).isSome then [.event (.launchPlace p)] else [])

/-- What may be due on a die. -/
def State.dieEvents (s : State) (d : Fin 8) : List Act :=
  let u := s.die d
  (if u.tooHot && !u.tripped then [Act.event (.thermalTrip d)] else []) ++
  (if u.reset.isSome then [.event (.dieResetForce d), .event (.dieRejoin d)] else []) ++
  (u.black.filter (fun (e : Nat × Nat) => decide (e.2 ≤ s.time.toNat))).map (fun (e : Nat × Nat) =>
    .event (.uvBlacklistExpire d (BitVec.ofNat 8 e.1)))

/-- What may be due on a core's spawn bins. -/
def State.binEvents (s : State) (c : Nat) : List Act :=
  (List.range 16).flatMap (fun b =>
    let x := s.bin c b
    let fires := decide (x.args ≠ []) && decide (x.fire ≤ s.time.toNat)
    (if fires then [Act.event (.spawnBinTimer (Fin.ofNat 64 c) (Fin.ofNat 16 b))] else []) ++
    (if fires || x.pending.isSome then [.event (.pendingRowPlace (Fin.ofNat 64 c) (Fin.ofNat 16 b))] else []))

/-- The contributions that find an accumulator, oldest first, each at its place when its turn comes (04 R113, R115). -/
def State.contribEvents (s : State) : Nat → Nat → List Act
  | 0, _ => []
  | n + 1, i =>
    match execFaddxContribution i s with
    | .next s1 =>
      if s1.contribs.length < s.contribs.length then .event (.faddxContribution i) :: s1.contribEvents n i
      else s.contribEvents n (i + 1)
    | _ => []

/-- What may be due of the partitions' work, which moves on a module that is ready (21 R390). -/
def State.workEvents (s : State) : List Act :=
  if s.module.phase ≠ .ready then []
  else
    (List.range s.contribs.length).map (fun i => .event (.faddxWaitReport i)) ++ s.contribEvents s.contribs.length 0 ++
    (List.range 64).flatMap s.binEvents ++
    (List.range 8).flatMap (fun p => s.partEvents (Fin.ofNat 8 p)) ++
    s.packets.flatMap (fun (e : Nat × Option Packet) =>
      [.event (.copyFaultResume e.1), .event (.release e.1), .event (.landed e.1)])

/-- All that may be due at this TIME, in the order it is tried; each event's meaning checks its own condition. -/
def State.due (s : State) : List Act :=
  let m := s.module
  (if s.time.toNat % 100000 = 0 then [Act.event .controlInterval] else []) ++
  (if s.coolantBad && !m.coolant then [.event .coolantFault] else []) ++
  (if m.coolant && m.okSince.isSome then [.event .coolantFaultClear] else []) ++
  (List.range 8).flatMap (fun d => s.dieEvents (Fin.ofNat 8 d)) ++
  (List.range 24).flatMap (fun k =>
    (if (s.stack k).hBusy then [Act.event (.applyDone (Fin.ofNat 24 k))] else []) ++
    (if (s.stack k).retBusy then [.event (.retireSwitch (Fin.ofNat 24 k))] else [])) ++
  (if s.time.toNat % 1000 = 0 ∧ s.peerReplies.contains .retry then [.event .peerRetryResend] else []) ++
  s.workEvents

/-- What waited and needs no event of its own is tried again: completions, RESTOREs, submissions out of range and the
acknowledgements of peers' writes (10 R280; 14 R360; 09 R256; 08 R217). -/
def State.retry (s : State) : State :=
  if s.module.phase ≠ .ready then s
  else
    let s1 := (s.launches.map (fun (e : Nat × Option Launch) => e.1)).foldl State.finish s
    ((List.range 8).foldl State.tryRestore s1).haltBad.giveAcks

/-- A nanosecond passes (01 R42): every core whose clock runs gathers its clocks, what waited is tried again, and what is
due goes on the agenda. Without power nothing moves. -/
def State.tick (s : State) : State :=
  if s.module.phase = .off then s
  else
    let s1 := { s with
      time := s.time + 1
      cores := tab 64 (fun c => let u := s.core c; if s.clocked c then { u with phase := u.phase + u.freq } else u) }
    let s2 := s1.retry
    { s2 with agenda := s2.due ++ (List.range 64).map .clock }

/-- An act of the agenda. -/
def State.act (s : State) (a : Act) : Host.Outcome State Fault Refusal :=
  match a with
  | .issue sid => s.runSlot sid
  | .event i => exec i s
  | .clock core => .next (s.clockBegin core)
  | .prepare sid => s.prepare sid
  | .gauge core => .next (s.gauge core)
  | .select core => .next (s.select core)
  | .env e => .next (s.input e)

end Sys2Proof.Machine
end

