-- ==== Sys2Proof/Machine/Step.lean ====
section
/-! DEFINITION. The step of the machine: the next act of the agenda, or a tick of TIME when nothing is on it (log 2); and
a state whose next step runs a given word (log 12). -/
namespace Sys2Proof.Machine

/-- One step. -/
def step (s : State) : Host.Outcome State Fault Refusal :=
  match s.agenda with
  | [] => .next s.tick
  | a :: rest => ({ s with agenda := rest }).act a

/-- A bundle whose slot 1 holds a word; a prefix stands before a SHFL, which accepts every group (02 R67). -/
def bundleOf (w : Half) : Vector Half 4 :=
  if isPrefixOp (w.extractLsb' 24 8).toNat then tab 4 (fun i => match i with
    | 0 => 0xB0100000
    | 1 => w
    | 2 => 0x70000000
    | _ => 0)
  else tab 4 (fun i => match i with
    | 0 => 0xB0000000
    | 1 => w
    | _ => 0)

/-- The row that runs the word: the one on seat 0, or one with 64 lanes where the seat is free. -/
def State.probeSeat (s : State) : Seat :=
  let t := s.seat 0
  let u := if t.resident then t
    else { Seat.blank with m := tab 8 (fun i => if i = 0 then BitVec.allOnes 64 else 0)
                           stack := [{ kind := .base, mask := BitVec.allOnes 64 }] }
  { u.leave with status := .ready, slot := 1, startClk := some 0 }

/-- The state with a word in slot 1 of the bundle at seat 0's program counter, in its core's instruction cache, and the
seat next on the agenda. -/
def State.withFetchWord (s : State) (nbits w : Nat) : State :=
  let t := s.probeSeat
  let pc := t.pc.toNat
  let b := bundleOf (BitVec.ofNat 32 (w % 2 ^ nbits))
  let line : Vector Half 32 := tab 32 (fun i => if pc % 128 / 4 ≤ i ∧ i < pc % 128 / 4 + 4 then vget 0 b (i - pc % 128 / 4) else 0)
  let u := s.core 0
  let s1 := (s.setSeat 0 t).setCore 0 { u with icache := Sparse.set none u.icache (pc / 128) (some line) }
  { s1 with agenda := [.issue 0] }

end Sys2Proof.Machine
end

