-- ==== Sys2Proof/WellFormed.lean ====
section
/-! DEFINITION. Well-formed instructions: source codes that some slot may hold (02 R53), and values that the spec assigns
to every field (02 R50, R68 and the instruction's own rule). The others raise ILLEGAL_OP when reached. -/
namespace Sys2Proof

/-- A source code that is not reserved (02 R53, R50): no LU on a latch, port, lane number or scalar code, or on register
31, and no code 39 to 47. -/
def Src.ok (a : Src) : Bool :=
  if a.l then !a.lu && !(decide (7 ≤ a.n.toNat) && decide (a.n.toNat ≤ 15)) else !(a.lu && a.n == 31)

/-- The fields of an instruction hold assigned values. -/
def wellFormed : Instr → Bool
  | .nop => true
  | .mod q s e t r z _ => (q == 1 || s == 0) && (e == 1 || t == 0) && decide (r.toNat < 6) && decide (z.toNat < 3) && Src.ok (Src.ofCode s)
  | .ximm _ => true
  | .bra _ => true
  | .bz _ _ => true
  | .bnz _ _ => true
  | .brd _ _ => true
  | .brdn _ _ => true
  | .jset _ => true
  | .join => true
  | .jmp a => a.ok
  | .jmpv a => a.ok
  | .call _ => true
  | .callr a => a.ok
  | .ret a => a.ok
  | .exit => true
  | .loop _ _ => true
  | .brk _ => true
  | .pushp _ => true
  | .pushpn _ => true
  | .pushm _ => true
  | .invp => true
  | .popp => true
  | .mset d _ => d != 0
  | .mlog d _ b f => d != 0 && decide (f.toNat < 5) && (f != 4 || b == 0)
  | .mcnt _ _ => true
  | .mfst _ _ => true
  | .mtos _ _ => true
  | .stom d a => d != 0 && a.ok
  | .many _ _ => true
  | .mall _ _ => true
  | .mspill a => a.ok
  | .mfill a _ => a.ok
  | .add _ a b => a.ok && b.ok
  | .sub _ a b => a.ok && b.ok
  | .mul _ a b => a.ok && b.ok
  | .mulh _ a b => a.ok && b.ok
  | .min _ a b => a.ok && b.ok
  | .max _ a b => a.ok && b.ok
  | .abs _ a => a.ok
  | .neg _ a => a.ok
  | .and _ a b => a.ok && b.ok
  | .or _ a b => a.ok && b.ok
  | .xor _ a b => a.ok && b.ok
  | .andn _ a b => a.ok && b.ok
  | .shl _ a b => a.ok && b.ok
  | .shr _ a b => a.ok && b.ok
  | .sar _ a b => a.ok && b.ok
  | .rot _ a b => a.ok && b.ok
  | .addi _ _ => true
  | .li _ _ => true
  | .lsi _ _ => true
  | .lea _ a b _ => a.ok && b.ok
  | .clz _ a => a.ok
  | .popc _ a => a.ok
  | .brev _ a => a.ok
  | .bfx _ a b => a.ok && b.ok
  | .bfi _ a b => a.ok && b.ok
  | .div _ a b => a.ok && b.ok
  | .rem _ a b => a.ok && b.ok
  | .mad _ a b => a.ok && b.ok
  | .sext _ a b => a.ok && b.ok
  | .zext _ a b => a.ok && b.ok
  | .cmp _ a b f => a.ok && b.ok && decide (f.toNat < 7)
  | .cmpm d a b f => d != 0 && a.ok && b.ok && decide (f.toNat % 8 < 7)
  | .sel _ a b _ => a.ok && b.ok
  | .clamp _ a b => a.ok && b.ok
  | .fadd _ a b => a.ok && b.ok
  | .fsub _ a b => a.ok && b.ok
  | .fmul _ a b => a.ok && b.ok
  | .fma _ a b => a.ok && b.ok
  | .fnma _ a b => a.ok && b.ok
  | .fmin _ a b => a.ok && b.ok
  | .fmax _ a b => a.ok && b.ok
  | .fneg _ a => a.ok
  | .fabs _ a => a.ok
  | .fdiv _ a b => a.ok && b.ok
  | .fsqrt _ a => a.ok
  | .fexp2 _ a => a.ok
  | .flog2 _ a => a.ok
  | .frsq _ a => a.ok
  | .ftanh _ a => a.ok
  | .fsigm _ a => a.ok
  | .fclass _ a => a.ok
  | .cvt _ a b f => a.ok && b.ok && decide (f.toNat < 14)
  | .qcb _ a b _ => a.ok && b.ok
  | .dqcb _ a b _ => a.ok && b.ok
  | .pack _ a b f => a.ok && b.ok && decide (f.toNat < 14)
  | .unpk _ a f => a.ok && decide (f.toNat < 14)
  | .had _ a b => a.ok && b.ok
  | .hadinv _ a b => a.ok && b.ok
  | .rand _ a b => a.ok && b.ok
  | .shfl _ a b f => a.ok && b.ok && f != 4 && decide (f.toNat < 8)
  | .bfly _ a f => a.ok && decide (f.toNat < 6)
  | .bcast _ a b => a.ok && b.ok
  | .redw _ a f => a.ok && decide (f.toNat < 6)
  | .scan _ a f => a.ok && decide (f.toNat % 8 < 6)
  | .compact _ a => a.ok
  | .xtos _ a b => a.ok && b.ok
  | .stox _ a b => a.ok && b.ok
  | .mov _ a => a.ok
  | .movs _ a b => a.ok && b.ok
  | .mdot _ a b k => a.ok && b.ok && decide (k.toNat < 5)
  | .mdotp a b _ k => a.ok && b.ok && decide (k.toNat < 5)
  | .mbatch _ => true
  | .mwait a => a.ok
  | .aget _ _ => true
  | .aput _ a => a.ok
  | .azero d k => decide (d.toNat + k.toNat < 32)
  | .ascl d a k => a.ok && decide (d.toNat + k.toNat < 32)
  | .ldcb _ a => a.ok
  | .ppass => true
  | .pdrop => true
  | .pstat _ => true
  | .tailcfg a b => a.ok && b.ok
  | .lds _ a b _ => a.ok && b.ok
  | .sts _ a b _ => a.ok && b.ok
  | .ldsb _ a b => a.ok && b.ok
  | .stsb _ a b => a.ok && b.ok
  | .pres _ a b => a.ok && b.ok
  | .absent a b _ => a.ok && b.ok
  | .atoms _ a b f => a.ok && b.ok && decide (f.toNat < 12) && f != 9
  | .cass _ a b => a.ok && b.ok
  | .ldg _ a b _ => a.ok && b.ok
  | .stg _ a b _ => a.ok && b.ok
  | .ldgb _ a b _ => a.ok && b.ok
  | .stgb _ a b => a.ok && b.ok
  | .atomg d a b f => a.ok && b.ok && decide (f.toNat < 12) && (f != 9 || d.code == 0)
  | .redg a b f => a.ok && b.ok && decide (f.toNat < 12)
  | .casg _ a b => a.ok && b.ok
  | .prefg a b => a.ok && b.ok
  | .isect _ _ _ => true
  | .frel f => decide (f.toNat < 6)
  | .facq f => decide (f.toNat < 6)
  | .ffull f => decide (f.toNat < 6)
  | .ifence => true
  | .bari a b => a.ok && b.ok
  | .barv a b f => a.ok && b.ok && decide (f.toNat < 6)
  | .barw a b => a.ok && b.ok
  | .barx a b => a.ok && b.ok
  | .bars _ a f => a.ok && decide (f.toNat < 5)
  | .time _ => true
  | .clkc _ => true
  | .qput a b f => a.ok && !b.l && b.n != 31 && (if f.getLsbD 3 then decide (f.toNat % 8 < 6) else f == 0)
  | .tdec a => a.ok
  | .tarm a b => a.ok && b.ok
  | .take _ a => a.ok
  | .spawn a b => a.ok && b.ok
  | .yield => true
  | .sleept a => a.ok
  | .setmode _ => true
  | .getmode _ => true
  | .csrr _ _ => true
  | .csrw _ b => b.ok
  | .trap a _ => a.ok
  | .rett => true
  | .ctxsv a => a.ok
  | .ctxld a => a.ok
  | .forcedIssue _ => true
  | .seatWake _ => true
  | .sleeptWake _ => true
  | .matrixStep _ => true
  | .portCrossingMove _ => true
  | .tailSinkStore _ => true
  | .faddxContribution _ => true
  | .faddxWaitReport _ => true
  | .extQueueSubmit _ _ _ _ => true
  | .queueRegister _ _ => true
  | .queueHaltClear _ _ => true
  | .copy _ _ => true
  | .feed _ _ => true
  | .fill _ _ => true
  | .gather _ _ => true
  | .feedEntryPush _ => true
  | .release _ => true
  | .landed _ => true
  | .copyFaultResume _ => true
  | .axpy _ _ => true
  | .scale _ _ => true
  | .momentum _ _ => true
  | .adamw _ _ => true
  | .girthZero _ _ => true
  | .xclose _ _ => true
  | .launchAccept _ => true
  | .launchPlace _ => true
  | .bridleFaultResume _ => true
  | .spawnBinTimer _ _ => true
  | .pendingRowPlace _ _ => true
  | .seatRelease _ => true
  | .resume _ => true
  | .abort _ => true
  | .kill _ => true
  | .skip _ => true
  | .preempt _ => true
  | .preemptSeatStop _ => true
  | .preemptDeadline _ => true
  | .preemptDrainEnd _ => true
  | .restore _ => true
  | .diereset _ => true
  | .dieFault _ => true
  | .dieResetForce _ => true
  | .tuSet _ _ _ => true
  | .tuClear _ _ _ => true
  | .tuSetrange _ _ _ => true
  | .tuComplete _ => true
  | .apply _ => true
  | .applyDone _ => true
  | .retireGo _ => true
  | .retireSwitch _ => true
  | .peerRetryResend => true
  | .sramUe _ => true
  | .uvTrial _ => true
  | .uvAbort _ => true
  | .uvBlacklistExpire _ _ => true
  | .partitionEnable _ _ => true
  | .partitionDisable _ => true
  | .pwrshareWrite _ _ => true
  | .counterFrozenClear _ _ => true
  | .registerWrite _ _ _ => true
  | .controlNodeAccess _ _ _ _ => true
  | .peerAccessInbound _ _ _ _ _ _ => true
  | .controlInterval => true
  | .droopTrip _ => true
  | .droopWindowEnd _ => true
  | .coolantFault => true
  | .coolantFaultClear => true
  | .thermalTrip _ => true
  | .powerGood => true
  | .firmwareReload _ => true
  | .open _ _ _ _ => true
  | .close => true
  | .lossOfLight => true
  | .quote _ => true
  | .identityQuery => true
  | .flitCrcError _ => true
  | .linkTrained _ _ => true
  | .unassignedOpcode w => decodeWord w == none
  | .trialPassed _ => true
  | .dieRejoin _ => true
  | .powerOff => true
  | .newValuesApply _ => true

end Sys2Proof
end

