-- ==== Sys2Proof/Safety.lean ====
section
/-! DEFINITION. What the claims about the machine are stated in. -/
namespace Sys2Proof.Machine

/-- Both memories have their canonical form: addresses strictly rising, no byte listed that reads as an unlisted one. -/
def MemOk (s : State) : Prop := s.spad.wf = true ∧ s.hbm.wf = true

/-- Every machine that a stopped slot has come to satisfies `P`. -/
def Stop.Holds (P : State → Prop) : Stop → Prop
  | .after s e => P s ∧ e.Holds P
  | _ => True

/-- The body's result satisfies `Q`, or it stops with `P` kept. -/
def Ends {α : Type} (P : State → Prop) (Q : α → Prop) (x : Except Stop α) : Prop :=
  (∀ a, x = .ok a → Q a) ∧ ∀ e, x = .error e → e.Holds P

/-- Where an instruction goes on, it keeps `P`. -/
def Goes (P : State → Prop) (o : Host.Outcome State Fault Refusal) : Prop := ∀ s, o = .next s → P s

/-! ### Exact numbers and what they round to (03 R78 to R95; 04 R97 to R105) -/

/-- The real that a value is; zero for the rest. -/
def Val.rat : Val → ℚ
  | .num neg m e => (if neg then -1 else 1) * m * (2 : ℚ) ^ e
  | _ => 0

/-- Whether a magnitude `x` that is `lo` or lies above it, and below the next result, goes up to that one (04 R97): `mid` is
the midpoint, and `odd` tells that the lower result has bit 0 set. -/
def goesUp (rnd : Nat) (neg odd : Bool) (x lo mid : ℚ) : Bool :=
  match rnd with
  | 0 => decide (mid < x) || decide (x = mid) && odd
  | 1 => false
  | 2 => neg && decide (lo ≠ x)
  | 3 => !neg && decide (lo ≠ x)
  | _ => decide (mid ≤ x)

/-- A nonzero number rounded once to an IEEE format of precision `p` (04 R99): with an unbounded exponent above and
subnormals below; past the largest finite number it becomes an infinity, or that number where the mode says so. -/
def RoundsIeee (p rnd : Nat) (x : ℚ) (r : Nat × BitVec 6) : Prop :=
  let neg := decide (x < 0)
  ∃ (q : Int) (k n : Nat), k * (2 : ℚ) ^ q ≤ |x| ∧ |x| < (k + 1) * (2 : ℚ) ^ q ∧ k < 2 ^ p ∧
    (2 ^ (p - 1) ≤ k ∧ -125 - (p : Int) ≤ q ∨ q = -125 - p) ∧
    n = k + (goesUp rnd neg (k % 2 == 1) |x| (k * (2 : ℚ) ^ q) ((k + 1 / 2) * (2 : ℚ) ^ q)).toNat ∧
    if (2 : ℚ) ^ 128 ≤ n * (2 : ℚ) ^ q then
      r = (infBits neg (.ieee p) - (if rnd = 1 ∨ rnd = 2 ∧ 0 < x ∨ rnd = 3 ∧ x < 0 then 1 else 0), fOF ||| fIX)
    else r.1 < 2 ^ (p + 8) ∧ (n = 0 → r.1 = zeroBits neg (.ieee p)) ∧
      (decodeF (.ieee p) r.1).rat = (if x < 0 then -1 else 1) * n * (2 : ℚ) ^ q ∧
      r.2 = if |x| = n * (2 : ℚ) ^ q then 0 else fIX

/-- The same to a tapered format (03 R85, R86; 04 R97, R98), along its encoding line: the midpoint of two encodings is the
value of the longer one between them; no number becomes zero or NONREAL. -/
def RoundsTap (n es rnd : Nat) (x : ℚ) (r : Nat × BitVec 6) : Prop :=
  let val := fun k => (decodeF (.tap n es) k).rat
  let top := 2 ^ (n - 1) - 1
  ∃ k c : Nat, r.1 = (if x < 0 then 2 ^ n - c else c) ∧
    (val top ≤ |x| ∧ c = top ∧ r.2 = (if |x| = val top then 0 else fSA ||| fIX) ∨
      |x| < val 1 ∧ c = 1 ∧ r.2 = fSA ||| fIX ∨
      0 < k ∧ k < top ∧ val k ≤ |x| ∧ |x| < val (k + 1) ∧ r.2 = (if |x| = val k then 0 else fIX) ∧
        c = k + (goesUp rnd (decide (x < 0)) (k % 2 == 1) |x| (val k) (decodeF (.tap (n + 1) es) (2 * k + 1)).rat).toNat)

/-- The same to a format. -/
def Rounds (f : Fmt) (rnd : Nat) (x : ℚ) (r : Nat × BitVec 6) : Prop :=
  match f with
  | .ieee p => RoundsIeee p rnd x r
  | .tap n es => RoundsTap n es rnd x r

/-- m × 2^e, and nothing below it or with `sticky` a part less than one of m, is where a growing `g` takes the value `x`;
what has such a part has more bits than any format keeps. -/
def Stands (g : ℚ → ℚ) (m : Nat) (e : Int) (sticky : Bool) (x : ℚ) : Prop :=
  0 < m ∧ if sticky then 2 ^ 64 ≤ m ∧ g (m * (2 : ℚ) ^ e) < x ∧ x < g ((m + 1) * (2 : ℚ) ^ e) else x = g (m * (2 : ℚ) ^ e)

/-- The result is a nonzero number as roundF rounds it, whose one rounding FloatOperations gives. -/
def Rounded (f : Fmt) (rnd : Nat) (x : ℚ) (r : Nat × BitVec 6) : Prop :=
  ∃ m e sticky, Stands (fun y => y) m e sticky |x| ∧ r = roundF f rnd (decide (x < 0)) m e sticky

/-- A number rounded to an integer (03 R94). -/
def RoundsInt (rnd : Nat) (x : ℚ) (y : Int) : Prop :=
  ∃ k : Nat, (k : ℚ) ≤ |x| ∧ |x| < k + 1 ∧
    y = (if x < 0 then -1 else 1) * (k + (goesUp rnd (decide (x < 0)) (k % 2 == 1) |x| k (k + 1 / 2)).toNat : Nat)

/-- A term of a sum: its sign, whether it is an infinity, and its value. -/
structure Term where
  neg : Bool
  inf : Bool
  q : ℚ

def Val.term (v : Val) : Term := ⟨v.sign, v.isInf, v.rat⟩
def Term.flip (t : Term) : Term := ⟨!t.neg, t.inf, -t.q⟩
def Term.times (t u : Term) : Term := ⟨t.neg != u.neg, t.inf || u.inf, t.q * u.q⟩
/-- A product is infinity times zero (04 R105). -/
def Val.clash (x y : Val) : Bool := x.isInf && y.isZero || x.isZero && y.isInf

/-- What a sum of terms gives (04 R99, R101, R104, R105): `ops` are the elements and addends that the terms are made of,
and `clash` tells that a product of it is infinity times zero. The rows are those of R105, in order. -/
def SumsTo (f : Fmt) (rnd : Nat) (ops : List Val) (clash : Bool) (ts : List Term) (r : Nat × BitVec 6) : Prop :=
  let has := fun neg => ts.any fun t => t.inf && t.neg == neg
  let z := (ts.map Term.q).sum
  if Val.nan true ∈ ops ∨ clash = true then r = (nanBits f, fNV)
  else if Val.nan false ∈ ops ∨ Val.nonreal ∈ ops then r = (nanBits f, 0)
  else if has true && has false then r = (nanBits f, fNV)
  else if has true || has false then r = (infBits (has true) f, 0)
  else if z = 0 then
    r = (zeroBits (if ∀ t ∈ ts, t.q = 0 ∧ t.neg = true then true else if ∀ t ∈ ts, t.q = 0 ∧ t.neg = false then false
      else rnd == 2) f, 0)
  else Rounded f rnd z r

/-- The result of an operand that is no number (05 R134, R137): NV where it signals. -/
def nanResult (f : Fmt) (signals : Bool) : Nat × BitVec 6 := (nanBits f, if signals then fNV else 0)

/-- A quotient (04 R101; 05 R134). -/
def DividesTo (f : Fmt) (rnd : Nat) (x y : Val) (r : Nat × BitVec 6) : Prop :=
  let neg := x.sign != y.sign
  if x = .nonreal ∨ y = .nonreal ∨ x.isNan ∨ y.isNan then r = nanResult f (x.isSig || y.isSig)
  else if x.isInf then r = if y.isInf then (nanBits f, fNV) else (infBits neg f, 0)
  else if y.isInf then r = (zeroBits neg f, 0)
  else if y.isZero then r = if isTapF f then (nanBits f, if x.isZero then fNR else fDZ ||| fNR)
    else if x.isZero then (nanBits f, fNV) else (infBits neg f, fDZ)
  else if x.isZero then r = (zeroBits neg f, 0)
  else Rounded f rnd (x.rat / y.rat) r

/-- The square root of the operand, or the reciprocal of one (05 R134, R137): what is rounded stands for the number whose
square is the operand, or whose square times the operand is one. -/
def RootsTo (f : Fmt) (rnd : Nat) (recip : Bool) (x : Val) (r : Nat × BitVec 6) : Prop :=
  match x with
  | .nan signals => r = nanResult f signals
  | .nonreal => r = nanResult f false
  | .zero neg => r = if recip then (if isTapF f then (nanBits f, fDZ ||| fNR) else (infBits neg f, fDZ))
      else (zeroBits neg f, 0)
  | .inf false => r = (if recip then zeroBits false f else infBits false f, 0)
  | .inf true => r = (nanBits f, fNV)
  | .num true _ _ => r = (nanBits f, if isTapF f then fNR else fNV)
  | .num false _ _ => ∃ m e sticky, r = roundF f rnd false m e sticky ∧
      if recip then Stands (fun y => y * y * x.rat) m e sticky 1 else Stands (fun y => y * y) m e sticky x.rat

/-- FEXP2 (05 R137): its special operands, its exact cases, and operands past every range. -/
def Exp2To (f : Fmt) (x : Val) (r : Nat × BitVec 6) : Prop :=
  match x with
  | .nan signals => r = nanResult f signals
  | .nonreal => r = nanResult f false
  | .zero _ => Rounded f 0 1 r
  | .inf neg => r = (if neg then zeroBits false f else infBits false f, 0)
  | .num _ _ _ => (∀ k : Int, x.rat = k → |k| < 4096 → Rounded f 0 ((2 : ℚ) ^ k) r) ∧
    (4096 ≤ x.rat → r = if isTapF f then (infBits false f - 1, fSA ||| fIX) else (infBits false f, fOF ||| fIX)) ∧
    (x.rat ≤ -4096 → r = if isTapF f then (1, fSA ||| fIX) else (0, fIX))

/-- FLOG2 (05 R137): its special operands and its exact cases. -/
def Log2To (f : Fmt) (x : Val) (r : Nat × BitVec 6) : Prop :=
  match x with
  | .nan signals => r = nanResult f signals
  | .nonreal => r = nanResult f false
  | .zero _ => r = if isTapF f then (nanBits f, fDZ ||| fNR) else (infBits true f, fDZ)
  | .inf neg => r = if neg then (nanBits f, fNV) else (infBits false f, 0)
  | .num true _ _ => r = (nanBits f, if isTapF f then fNR else fNV)
  | .num false _ _ => ∀ k : Int, x.rat = (2 : ℚ) ^ k → if k = 0 then r = (zeroBits false f, 0) else Rounded f 0 k r

/-- FTANH and FSIGM (05 R137): their special operands, and operands so large that the result is all but 1, −1 or 0. -/
def TanhTo (f : Fmt) (x : Val) (r : Nat × BitVec 6) : Prop :=
  match x with
  | .nan signals => r = nanResult f signals
  | .nonreal => r = nanResult f false
  | .zero neg => r = (zeroBits neg f, 0)
  | .inf neg => Rounded f 0 (if neg then -1 else 1) r
  | .num neg _ _ => 256 ≤ |x.rat| → r.2 = fIX ∧ Rounded f 0 (if neg then -1 else 1) (r.1, 0)
def SigmTo (f : Fmt) (x : Val) (r : Nat × BitVec 6) : Prop :=
  match x with
  | .nan signals => r = nanResult f signals
  | .nonreal => r = nanResult f false
  | .zero _ => Rounded f 0 (1 / 2) r
  | .inf neg => if neg then r = (zeroBits false f, 0) else Rounded f 0 1 r
  | .num neg _ _ => 1024 ≤ |x.rat| → if neg then r = (if isTapF f then (1, fSA ||| fIX) else (0, fIX))
    else r.2 = fIX ∧ Rounded f 0 1 (r.1, 0)

/-- One number is less than another, as values; and with −0 below +0. -/
def Val.less (x y : Val) : Bool :=
  decide (x ≠ y) && (decide (x = .inf true) || decide (y = .inf false) || !x.isInf && !y.isInf && decide (x.rat < y.rat))
def Val.below (x y : Val) : Bool := x.less y || decide (x = .zero true ∧ y = .zero false)
/-- Two numbers are the same value. -/
def Val.same (x y : Val) : Bool := decide (x = y) || !x.isInf && !y.isInf && decide (x.rat = y.rat)

/-- The lesser or greater of two operands `a` and `b` (05 R135); tapered encodings are ordered as signed integers (03 R83).
-/
def PicksTo (f : Fmt) (greater : Bool) (a b : Nat) (r : Nat × BitVec 6) : Prop :=
  let x := decodeF f a
  let y := decodeF f b
  if x = .nonreal ∨ y = .nonreal then r = (nanBits f, 0)
  else if let .tap n _ := f then r = (if decide (ival true n a ≤ ival true n b) != greater then a else b, 0)
  else r.2 = (if x.isSig || y.isSig then fNV else 0) ∧ r.1 =
    if x.isNan && y.isNan then nanBits f else if x.isNan then b else if y.isNan then a
    else if y.below x == greater then a else b

/-- The class of an operand (05 R138). -/
def Val.classBits (f : Fmt) : Val → Nat
  | .inf neg => if neg then 2 ^ 0 else 2 ^ 7
  | .zero neg => if neg then 2 ^ 3 else 2 ^ 4
  | .nan signals => if signals then 2 ^ 8 else 2 ^ 9
  | .nonreal => 2 ^ 10
  | .num neg m e =>
    let x := |Val.rat (.num neg m e)|
    if isTapF f then (if neg then 2 ^ 1 else 2 ^ 6) +
      (if x = (decodeF f 1).rat ∨ x = (decodeF f (infBits false f - 1)).rat then 2 ^ 11 else 0)
    else if x < (2 : ℚ) ^ (-126 : Int) then (if neg then 2 ^ 2 else 2 ^ 5) else if neg then 2 ^ 1 else 2 ^ 6

/-- The relation `cc` of two IEEE elements, and its flags (05 R130). -/
def Val.relates (cc : Nat) (x y : Val) : Bool × BitVec 6 :=
  if x.isNan || y.isNan then
    (cc == 1 || cc == 6, if x.isSig || y.isSig || decide (2 ≤ cc) && decide (cc ≤ 5) then fNV else 0)
  else ((match cc with
    | 0 => x.same y
    | 1 => !x.same y
    | 2 => x.less y
    | 3 => x.less y || x.same y
    | 4 => y.less x
    | 5 => y.less x || x.same y
    | _ => false), 0)

/-- One element converted from a type to another (03 R77, R90 to R95). -/
def ConvertsTo (st dt : BitVec 4) (rnd : Nat) (satInf intSat : Bool) (c : Nat) (r : Nat × BitVec 6) : Prop :=
  let w := tyBits dt
  let lo := imin (isSigned dt) w
  let hi := imax (isSigned dt) w
  let bits := fun y : Int => (y % (2 ^ w : Nat)).toNat
  let f := fmtOf dt
  let x := ival (isSigned st) (tyBits st) c
  let v := decodeF (fmtOf st) c
  if st = dt then r = (c, 0)
  else if isInt st then
    if isInt dt then r = (bits (if intSat then max lo (min hi x) else x), 0)
    else if x = 0 then r = (0, 0) else Rounded f rnd x r
  else if isInt dt then
    if v.isNan ∨ v = .nonreal then r = (0, fNV)
    else if v.isInf then r = (bits (if v.sign then lo else hi), fNV)
    else ∃ y, RoundsInt rnd v.rat y ∧ r = (bits (max lo (min hi y)),
      if y < lo ∨ hi < y then fNV else if (y : ℚ) = v.rat then 0 else fIX)
  else if v.isNan ∨ v = .nonreal then
    r = (nanBits f, (if v.isSig then fNV else 0) ||| (if v.isNan && isTap dt then fNR else 0))
  else if v.isInf then r = if isTap dt then
      (if satInf then (if v.sign then 2 ^ (w - 1) + 1 else 2 ^ (w - 1) - 1, fSA) else (nanBits f, fNR))
    else (infBits v.sign f, 0)
  else if v.isZero then r = (zeroBits v.sign f, 0)
  else Rounded f rnd v.rat r

/-- The code of the codebook entry nearest to a value, and its flags (05 R141). -/
def QuantisesTo (es : Nat → Val) (e : Val) (r : Nat × BitVec 6) : Prop :=
  let nearer := fun a b : Val =>
    if e = .inf true then a.less b else if e = .inf false then b.less a
    else !a.isInf && (b.isInf || decide (|a.rat - e.rat| < |b.rat - e.rat|))
  if e.isNan then r = (0, fNV)
  else r.1 < 16 ∧ (∀ j, j < 16 → nearer (es j) (es r.1) = false) ∧ (∀ j, j < r.1 → nearer (es r.1) (es j) = true) ∧
    r.2 = if (es r.1).same e then 0 else fIX

/-! ### What a slot leaves -/

/-- The seat whose slot runs, as the slot finds it. -/
def State.now (s : State) : Seat := s.seat s.cur

/-- No matrix item is listed at the seat's row: no window of 06 R161 is open there. -/
def State.noWindow (s : State) : Prop := (s.row (s.cur / 4)).mat = []

/-- Every byte of the scratchpads and of HBM reads in `u` as it reads in `s`. -/
def SameBytes (s u : State) : Prop := (∀ k, u.spad.byte k = s.spad.byte k) ∧ ∀ a, u.hbyte a = s.hbyte a

/-- A slot has come to `u`: it is `r` (the state the slot found, with what the statement says it does outside its seat),
and nothing but seats, rows and the counter of free values differs (no byte of memory does); every other seat is as in
`r`; so are the rows, but for what the write of an operand register has made undefined (06 R161); and the seat is `w`,
but for dead marks of last uses (02 R61), its latches, and accumulators of an open window. -/
structure Slot (r u : State) (w : Seat) : Prop where
  rest : u = { r with seats := u.seats, rows := u.rows, freeCtr := u.freeCtr }
  bytes : SameBytes r u
  others : ∀ k, k ≠ r.cur → u.seat k = r.seat k
  rows : r.noWindow → u.rows = r.rows
  window : r.noWindow → u.noWindow
  acc : r.noWindow → u.now.acc = w.acc
  seat : u.now = { w with acc := u.now.acc, lat := u.now.lat, latpois := u.now.latpois, xdead := u.now.xdead
                          sdead := u.now.sdead }

/-- A result has entered the latches (02 R58): `v0` holds of the new entry y0, and every entry moves down by one. -/
def Latched (s u : State) (v0 : Latch → Prop) : Prop :=
  v0 (vget .invalid u.now.lat 0) ∧ ∀ k, k < 3 → vget .invalid u.now.lat (k + 1) = vget .invalid s.now.lat k

/-- The latches are as the slot found them. -/
def LatchesKept (s u : State) : Prop := u.now.lat = s.now.lat ∧ u.now.latpois = s.now.latpois

/-- All four latches are invalid (02 R58). -/
def LatchesGone (u : State) : Prop := ∀ k, k < 4 → vget .invalid u.now.lat k = .invalid

/-- The slot of the current seat, which holds a row, passes the checks of 02 R50 and reads its ports: `e` is the port
entry and `r` the state with it popped (06 R169). -/
structure LaneReady (s : State) (o : LaneOp) (e : PortEntry) (r : State) : Prop where
  resident : s.now.resident = true
  check : s.laneCheck s.cur s.now o = .ok ()
  ports : s.readPorts s.cur s.now (o.srcs s.now) = .ok (e, r)
  pois : e.pois &&& s.now.act = 0

/-- What a lane instruction makes of a seat as its slot finds it: `w` with register `d` written, the result being `v`
in the active lanes and zero in the others where they are zeroed (02 R52, R57, R65). -/
def Seat.result (w t : Seat) (d : Dst) (v : Nat → Word) : Seat :=
  if d.nw then w
  else if t.uniform then w.putS d.dr.toNat (v 0)
  else w.putX d.dr.toNat (if t.ezero then BitVec.allOnes 64 else t.gov) (fun l => if t.gov.getLsbD l then v l else 0)

/-- The new latch entry of a lane instruction: a scalar entry of a uniform slot, else a lane entry that holds the result in
the active lanes (02 R58). -/
def Seat.entry (t : Seat) (v : Nat → Word) (y : Latch) : Prop :=
  if t.uniform then y = .scalar (v 0) else ∃ e, y = .lane e ∧ ∀ l, t.gov.getLsbD l = true → vget 0 e l = v l

/-- What each instruction of the lane chapter that writes one register names, and the element types it accepts (05
R117). -/
def laneOp (i : Instr) (t : Seat) : Option LaneOp :=
  match i with
  | .add d a b => some { d := d, a := some a, b := some b, badType := intTy t }
  | .sub d a b => some { d := d, a := some a, b := some b, badType := intTy t }
  | .mul d a b => some { d := d, a := some a, b := some b, badType := intTy t }
  | .mulh d a b => some { d := d, a := some a, b := some b, badType := intTy t }
  | .min d a b => some { d := d, a := some a, b := some b, badType := ordTy t }
  | .max d a b => some { d := d, a := some a, b := some b, badType := ordTy t }
  | .abs d a => some { d := d, a := some a, badType := intTy t }
  | .neg d a => some { d := d, a := some a, badType := intTy t }
  | .and d a b => some { d := d, a := some a, b := some b }
  | .or d a b => some { d := d, a := some a, b := some b }
  | .xor d a b => some { d := d, a := some a, b := some b }
  | .andn d a b => some { d := d, a := some a, b := some b }
  | .shl d a b => some { d := d, a := some a, b := some b, badType := intTy t }
  | .shr d a b => some { d := d, a := some a, b := some b, badType := intTy t }
  | .sar d a b => some { d := d, a := some a, b := some b, badType := intTy t }
  | .rot d a b => some { d := d, a := some a, b := some b, badType := intTy t }
  | .addi d i => some { d := d, i := some i, readsD := true }
  | .li d i => some { d := d, i := some i }
  | .lsi d i => some { d := d, i := some i, readsD := true }
  | .lea d a b _ => some { d := d, a := some a, b := some b, elems := false }
  | .clz d a => some { d := d, a := some a, badType := intTy t }
  | .popc d a => some { d := d, a := some a, badType := intTy t }
  | .brev d a => some { d := d, a := some a, badType := intTy t }
  | .bfx d a b => some { d := d, a := some a, b := some b, elems := false, badType := intTy t }
  | .bfi d a b => some { d := d, a := some a, b := some b, elems := false, readsD := true, badType := intTy t }
  | .div d a b => some { d := d, a := some a, b := some b, badType := intTy t }
  | .rem d a b => some { d := d, a := some a, b := some b, badType := intTy t }
  | .mad d a b => some { d := d, a := some a, b := some b, readsD := true, badType := intTy t }
  | .sext d a b => some { d := d, a := some a, b := some b, elems := false, badType := intTy t }
  | .zext d a b => some { d := d, a := some a, b := some b, elems := false, badType := intTy t }
  | .cmp d a b f => some { d := d, a := some a, b := some b, illegal := decide (7 ≤ f.toNat), badType := cmpTy t }
  | .sel d a b m => some { d := d, a := some a, b := some b, elems := false, masks := [m.toNat] }
  | .clamp d a b => some { d := d, a := some a, b := some b, q := true, readsD := t.qsrc.isNone, badType := ordTy t }
  | .fadd d a b => some { d := d, a := some a, b := some b, badType := floatTy t }
  | .fsub d a b => some { d := d, a := some a, b := some b, badType := floatTy t }
  | .fmul d a b => some { d := d, a := some a, b := some b, badType := floatTy t }
  | .fma d a b => some { d := d, a := some a, b := some b, readsD := true, badType := floatTy t }
  | .fnma d a b => some { d := d, a := some a, b := some b, readsD := true, badType := floatTy t }
  | .fmin d a b => some { d := d, a := some a, b := some b, badType := floatTy t }
  | .fmax d a b => some { d := d, a := some a, b := some b, badType := floatTy t }
  | .fneg d a => some { d := d, a := some a, badType := floatTy t }
  | .fabs d a => some { d := d, a := some a, badType := floatTy t }
  | .fdiv d a b => some { d := d, a := some a, b := some b, badType := floatTy t }
  | .fsqrt d a => some { d := d, a := some a, badType := floatTy t }
  | .fexp2 d a => some { d := d, a := some a, badType := floatTy t }
  | .flog2 d a => some { d := d, a := some a, badType := floatTy t }
  | .frsq d a => some { d := d, a := some a, badType := floatTy t }
  | .ftanh d a => some { d := d, a := some a, badType := floatTy t }
  | .fsigm d a => some { d := d, a := some a, badType := floatTy t }
  | .fclass d a => some { d := d, a := some a, badType := floatTy t }
  | .cvt d a b st => some
      { d := d, a := some a, b := some b, elems := false
        readsD := decide (tyBits t.ety < tyBits st), badType := decide (13 ≤ st.toNat) || decide (13 ≤ t.ety.toNat) }
  | .qcb d a b _ => some { d := d, a := some a, b := some b, elems := false, readsD := true }
  | .dqcb d a b _ => some { d := d, a := some a, b := some b, elems := false }
  | .pack d a b st => some { d := d, a := some a, b := some b, bty := some st, badType := packTy st t.ety }
  | .rand d a b => some { d := d, a := some a, b := some b, elems := false }
  | .mov d a => some { d := d, a := some a }
  | .movs d a b => some { d := d, a := some a, b := some b, elems := false }
  | _ => none

/-- The result goes to a register or nowhere: not to the south port (02 R52). -/
def RegDst (s : State) (o : LaneOp) : Prop := o.d.nw = true ∨ s.now.uniform = true ∨ o.d.dr.toNat ≠ 31

/-- A lane instruction completes wherever its slot is ready, and leaves alone all but its destination, the flags, dead
marks of last uses and the latches; `V` tells what its results `v` and its flags are. -/
def Computes (i : Instr) (V : Seat → LaneIn → (Nat → Word) → BitVec 6 → Prop) : Prop :=
  ∀ s o e r, laneOp i s.now = some o → LaneReady s o e r → RegDst s o →
    ∃ u v fl, exec i s = .next u ∧ V s.now (s.laneIn s.now o e.v) v fl ∧
      Slot r u ((s.now.orFlags fl).result s.now o.d v).advance ∧ Latched s u (s.now.entry v)

/-- In every lane that acts, every element of the result is as `g` tells of the elements of the operands. -/
def Elements (t : Seat) (i : LaneIn) (v : Nat → Word) (g : (a b q d x : Nat) → Prop) : Prop :=
  let w := tyBits t.ety
  ∀ l, i.act.getLsbD l = true → ∀ k, k < 64 / w →
    g (elem w (vget 0 i.a l) k) (elem w (vget 0 i.b l) k)
      (elem w (match i.q with
        | some q => vget 0 q l
        | none => vget 0 i.d l) k) (elem w (vget 0 i.d l) k) (elem w (v l) k)

/-- The flags of a slot are those that one of `n` elements raises in a lane of `m` (04 R103). -/
def Raised (fl : BitVec 6) (m : Word) (n : Nat) (fx : Nat → Nat → BitVec 6) : Prop := ∀ j, j < 6 →
  (fl.getLsbD j = true ↔ ∃ l k, m.getLsbD l = true ∧ k < n ∧ (fx l k).getLsbD j = true)

/-- The same as Elements, with each element's flags. -/
def Flagged (t : Seat) (i : LaneIn) (v : Nat → Word) (fl : BitVec 6) (g : (a b q d : Nat) → Nat × BitVec 6 → Prop) : Prop :=
  let w := tyBits t.ety
  ∃ fx : Nat → Nat → BitVec 6, Raised fl i.act (64 / w) fx ∧ ∀ l, i.act.getLsbD l = true → ∀ k, k < 64 / w →
    g (elem w (vget 0 i.a l) k) (elem w (vget 0 i.b l) k)
      (elem w (match i.q with
        | some q => vget 0 q l
        | none => vget 0 i.d l) k) (elem w (vget 0 i.d l) k) (elem w (v l) k, fx l k)

/-- In every lane that acts, the result is as `g` tells of the operands' 64 bits. -/
def Wholes (i : LaneIn) (v : Nat → Word) (g : (a b d x : Word) → Prop) : Prop :=
  ∀ l, i.act.getLsbD l = true → g (vget 0 i.a l) (vget 0 i.b l) (vget 0 i.d l) (v l)

/-- An exact integer put into an element: clamped to its type's range under INTSAT, and its low bits (05 R122). -/
def Seat.narrowed (t : Seat) (y : Int) : Nat :=
  let w := tyBits t.ety
  let sg := isSigned t.ety
  ((if t.intSat then max (imin sg w) (min (imax sg w) y) else y) % (2 ^ w : Nat)).toNat

/-- An element's value under the effective type (03 R76). -/
def Seat.val (t : Seat) (a : Nat) : Int := ival (isSigned t.ety) (tyBits t.ety) a

/-- What orders the elements of the effective type (05 R124): N elements unsigned, I and T elements signed. -/
def Seat.key (t : Seat) (a : Nat) : Int := ival (isSigned t.ety || isTap t.ety) (tyBits t.ety) a

/-- An element of the effective type is a NaN or NONREAL. -/
def Seat.nonnum (t : Seat) (a : Nat) : Prop :=
  (decodeF (fmtOf t.ety) a).isNan = true ∨ decodeF (fmtOf t.ety) a = .nonreal

/-- The relation `cc` of two elements of an integer or tapered type (05 R130); only NONREAL is unordered. -/
def Seat.relates (t : Seat) (cc a b : Nat) : Prop :=
  match cc with
  | 0 => a = b
  | 1 => a ≠ b
  | 2 => t.key a < t.key b
  | 3 => t.key a ≤ t.key b
  | 4 => t.key b < t.key a
  | 5 => t.key b ≤ t.key a
  | _ => isTap t.ety = true ∧ (a = 2 ^ (tyBits t.ety - 1) ∨ b = 2 ^ (tyBits t.ety - 1))

/-- What one combine of a tree, or of a butterfly, gives (05 R147, R149): 0 ADD, 1 MIN, 2 MAX, 3 AND, 4 OR, 5 XOR, 6 the
difference. -/
def CombinesTo (t : Seat) (op a b : Nat) (r : Nat × BitVec 6) : Prop :=
  let f := fmtOf t.ety
  let x := decodeF f a
  let y := decodeF f b
  match op with
  | 0 => if isFloat t.ety then SumsTo f t.ernd [x, y] false [x.term, y.term] r else r = (t.narrowed (t.val a + t.val b), 0)
  | 1 => if isFloat t.ety then PicksTo f false a b r else r = (if t.key a ≤ t.key b then a else b, 0)
  | 2 => if isFloat t.ety then PicksTo f true a b r else r = (if t.key a ≤ t.key b then b else a, 0)
  | 3 => r = (a &&& b, 0)
  | 4 => r = (a ||| b, 0)
  | 5 => r = (a ^^^ b, 0)
  | _ => if isFloat t.ety then SumsTo f t.ernd [x, y] false [x.term, y.term.flip] r else r = (t.narrowed (t.val a - t.val b), 0)

/-- What a lane outside the governing mask supplies to a tree (04 R108). -/
def Seat.unit (t : Seat) (op : Nat) : Nat :=
  let w := tyBits t.ety
  match op with
  | 1 => if isIeee t.ety then infBits false (fmtOf t.ety) else if isTap t.ety || isSigned t.ety then 2 ^ (w - 1) - 1 else 2 ^ w - 1
  | 2 => if isIeee t.ety then infBits true (fmtOf t.ety) else if isTap t.ety then 2 ^ (w - 1) + 1
    else if isSigned t.ety then 2 ^ (w - 1) else 0
  | 3 => 2 ^ w - 1
  | _ => 0

/-- The six levels of a tree (04 R107) over what the lanes supply: what every lane holds at the end, and the flags of each
combine by level and lane. -/
def Tree (t : Seat) (op : Nat) (scan : Bool) (x out : Nat → Nat) (fx : Nat → Nat → BitVec 6) : Prop :=
  ∃ v : Nat → Nat → Nat, (∀ l, l < 64 → v 0 l = x l ∧ v 6 l = out l) ∧ ∀ j l, j < 6 → l < 64 →
    if scan then
      if 2 ^ j ≤ l then CombinesTo t op (v j (l - 2 ^ j)) (v j l) (v (j + 1) l, fx j l)
      else v (j + 1) l = v j l ∧ fx j l = 0
    else if l % 2 ^ (j + 1) = 0 then CombinesTo t op (v j l) (v j (l + 2 ^ j)) (v (j + 1) l, fx j l)
    else v (j + 1) l = v j l ∧ fx j l = 0

/-- REDW or SCAN by an operation: every element position has its tree, and the flags are those of every combine (05 R149).
-/
def Trees (t : Seat) (op : Nat) (scan : Bool) (i : LaneIn) (fl : BitVec 6) (g : Nat → (Nat → Nat) → Prop) : Prop :=
  let w := tyBits t.ety
  ∃ (out : Nat → Nat → Nat) (fx : Nat → Nat → Nat → BitVec 6),
    (∀ k, k < 64 / w → g k (out k) ∧
      Tree t op scan (fun l => if t.gov.getLsbD l then elem w (vget 0 i.a l) k else t.unit op) (out k) (fx k)) ∧
    ∀ j, j < 6 → (fl.getLsbD j = true ↔ ∃ k h l, k < 64 / w ∧ h < 6 ∧ l < 64 ∧ (fx k h l).getLsbD j = true)

/-! ### Selection (11 R281 to R285) -/

/-- A seat of an issue partition of a core is ready and may start, and its next slot is as `l` tells. -/
def State.Ready (s : State) (c q k : Nat) (l : Look) : Prop :=
  k / 256 = c ∧ k / 4 % 64 % 8 = q ∧ (s.seat k).status = .ready ∧
    (∃ b, (s.seat k).startClk = some b ∧ b ≤ (s.core c).clkc) ∧ s.look k 4 = l

/-- The stamp that a seat ranks by: 64 clocks later under YLD (11 R282). -/
def State.ranks (s : State) (k : Nat) : Nat :=
  (s.seat k).stamp + match s.look k 4 with
    | .issue _ _ true => 64
    | _ => 0

/-- One issue partition's clock (11 R284, R285): `order` are the seats that may issue, oldest first, `rem` the budget that
each finds, and `took` those that issue. After a forced issue nothing is left, and the next clock is idle. A seat that comes
to something that is no issue is tried for itself (log 51). -/
def Selects (s u : State) (c q : Nat) (acts : List Act) : Prop :=
  let x := s.core c
  let forced := fun k => Act.event (.forcedIssue (Fin.ofNat 16384 k))
  (x.idleNext.getLsbD q = true → acts = [] ∧ u = s.setCore c { x with idleNext := x.idleNext &&& ~~~(1#8 <<< q) }) ∧
  (x.idleNext.getLsbD q = false → u = { s with seats := u.seats } ∧
    (∀ a ∈ acts, ∃ k l, s.Ready c q k l ∧ (a = .issue k ∨ a = .prepare k ∨ a = forced k)) ∧
    (∀ k, .prepare k ∈ acts ↔ s.Ready c q k .free) ∧
    ∃ (order : List Nat) (rem : Nat → Nat) (took : Nat → Bool),
      (∀ k, k ∈ order ↔ ∃ p ch y, s.Ready c q k (.issue p ch y)) ∧
      (order.Pairwise fun j k => s.ranks j < s.ranks k ∨ s.ranks j = s.ranks k ∧ j < k) ∧
      (rem 0 = if x.halveFrom ≤ x.clkc ∧ x.clkc < x.halveUntil then x.budget / 2 else x.budget) ∧
      (∀ k, k ∉ order → u.seat k = s.seat k ∧ .issue k ∉ acts ∧ (k < 16384 → forced k ∉ acts)) ∧
      ∀ i k p ch y, order[i]? = some k → s.look k 4 = .issue p ch y →
        let passed := ∃ j k' ch' y', j < i ∧ took j = true ∧ order[j]? = some k' ∧
          (k' / 4 = k / 4 ∨ s.look k' 4 = .issue p ch' y')
        (took i = true ↔ ¬passed ∧ (ch ≤ rem i ∨ 16 ≤ (s.seat k).skip)) ∧
        rem (i + 1) = (if took i then rem i - ch else rem i) ∧
        (.issue k ∈ acts ↔ took i = true ∧ ch ≤ rem i) ∧ (forced k ∈ acts ↔ took i = true ∧ rem i < ch) ∧
        (passed ∨ took i = true → u.seat k = s.seat k) ∧
        (¬passed → took i = false → u.seat k = { s.seat k with skip := (s.seat k).skip + 1 }))

/-! ### Slots that work on scalars and masks (12 R293) -/

/-- A slot that reads scalars and masks alone passes the checks of 02 R50; `masks` are the mask registers that it reads, m0
and the guard among them where it takes the path or the governing mask (12 R295). -/
structure CtlReady (s : State) (srcs : List Src) (masks : List Nat) : Prop where
  resident : s.now.resident = true
  check : s.now.check s.cur true false false false (srcs.map fun a => (a, 1)) (masks := masks) = .ok ()

/-- The instruction completes: the seat becomes `w`, the latches stay as they are, and nothing else changes. -/
def Moves (i : Instr) (s : State) (w : Seat) : Prop := ∃ u, exec i s = .next u ∧ Slot s u w ∧ LatchesKept s u

/-- The same, the latches being invalidated. -/
def Parks (i : Instr) (s : State) (w : Seat) : Prop := ∃ u, exec i s = .next u ∧ Slot s u w ∧ LatchesGone u

/-- The same, a scalar entering the latches and register `d` (02 R52, R58). -/
def Writes (i : Instr) (s : State) (d : Dst) (v : Word) : Prop :=
  ∃ u, exec i s = .next u ∧ Slot s u (if d.nw then s.now else s.now.putS d.dr.toNat v).advance ∧
    Latched s u (fun y => y = .scalar v)

/-- The seat goes on at slot 1 of the bundle at `a`. Its latches are invalidated where `gone` says so, or where that
bundle is not the next one; else they stay as they are (02 R45, R58). -/
def Lands (i : Instr) (s : State) (w : Seat) (a : Word) (gone : Bool) : Prop :=
  ∃ u, exec i s = .next u ∧ Slot s u (w.jump a) ∧ u.now.pc = a &&& ~~~15#64 ∧ u.now.slot = 1 ∧
    if gone = true ∨ a &&& ~~~15#64 ≠ s.now.pc + 16 then LatchesGone u else LatchesKept s u

/-- The row as a whole moves to the bundle at `a`. -/
def Jumps (i : Instr) (s : State) (w : Seat) (a : Word) : Prop := Lands i s w a false

/-- The row moves there with some of its lanes, so its latches go (02 R58). -/
def Splits (i : Instr) (s : State) (w : Seat) (a : Word) : Prop := Lands i s w a true

/-- The instruction raises a trap and does nothing else. -/
def Traps (i : Instr) (s : State) (t : Trap) : Prop := exec i s = .next (s.raise s.cur t)

/-- The target of a relative branch: a number of bundles from this one (02 R45). -/
def State.branchTo (s : State) (o : BitVec 20) : Word := s.now.pc + BitVec.ofInt 64 (o.toInt * 16)

/-- The row goes on where an unwound stack leads it, or at its next slot (12 R302). -/
def Settles (i : Instr) (s : State) (w : Seat) (gone : Bool) : Prop :=
  ∃ u, exec i s = .next u ∧ Slot s u w.settle ∧ u.now.lat = w.settle.lat ∧ (gone = true → LatchesGone u)

/-! ### Slots that read across lanes (05 R145) -/

/-- The mask of the lanes that satisfy a test. -/
def maskOf (p : Nat → Bool) : Word := laneMask ((List.range 64).filter p)

/-- What the north port would give, where it gives an entry. -/
def State.peek (s : State) : Lanes Word :=
  match s.north s.cur s.now with
  | .ok (.entry e) => e.v
  | _ => vrep 64 0

/-- A cross-lane slot passes its checks, `rd` being the lanes whose part of its first operand it reads. -/
structure CrossReady (s : State) (o : LaneOp) (rd : LaneIn → Word) (e : PortEntry) (r : State) : Prop where
  resident : s.now.resident = true
  lane : s.now.uniform = false
  check : s.laneCheck s.cur s.now { o with rd := some (
    if o.b.toList.any Src.isPort && s.now.pximm.isNone then 0 else rd (s.laneIn s.now o s.peek)) } = .ok ()
  ports : s.readPorts s.cur s.now (o.srcs s.now) = .ok (e, r)
  dead : (o.srcs s.now).any Src.isPort = true →
    deadCheck s.now false (o.a.toList.map fun a => (a, rd (s.laneIn s.now o e.v))) = .ok ()
  pois : e.pois &&& (if o.a.toList.any Src.isPort then rd (s.laneIn s.now o e.v) ||| s.now.gov else s.now.gov) = 0

/-- A cross-lane instruction completes: the seat is `w` of its results and flags, and the latch entry as `y` tells. -/
def Crosses (i : Instr) (o : Seat → LaneOp) (rd : Seat → LaneIn → Word)
    (V : Seat → LaneIn → (Nat → Word) → BitVec 6 → Prop) (w : Seat → LaneIn → (Nat → Word) → Seat)
    (y : Seat → LaneIn → (Nat → Word) → Latch → Prop) : Prop :=
  ∀ (s : State) (e : PortEntry) (r : State), CrossReady s (o s.now) (rd s.now) e r →
    ((o s.now).d.nw = true ∨ (o s.now).d.dr ≠ 31) →
    let i' := s.laneIn s.now (o s.now) e.v
    ∃ u v fl, exec i s = .next u ∧ V s.now i' v fl ∧ Slot r u ((w s.now i' v).orFlags fl).advance ∧
      Latched s u (y s.now i' v)

/-- The usual end: the active lanes of the destination are written, the others zeroed where that is asked for. -/
def usualSeat (d : Dst) (t : Seat) (_i : LaneIn) (v : Nat → Word) : Seat := t.result t d v
def usualLatch (t : Seat) (_i : LaneIn) (v : Nat → Word) : Latch → Prop := t.entry v

/-- What lane `j` supplies (05 R145). -/
def Seat.supplies (t : Seat) (i : LaneIn) (j : Nat) : Word := if t.live.getLsbD j then vget 0 i.a j else 0

/-- The lane that the second operand names, the same for every lane (05 R148, R151). -/
def LaneIn.lane (i : LaneIn) : Nat := (vget 0 i.b 0).toNat % 64

/-- The source lane of SHFL (05 R146), or none where it is out of range. -/
def shuffleFrom (f : Nat) (b l : Nat) : Option Nat :=
  let m := if f ≤ 3 then b else if 7 ≤ b then 0 else 2 ^ 6 / 2 ^ b
  if f = 0 then some (b % 64)
  else if f % 4 = 1 then (if l < m then none else some (l - m))
  else if f % 4 = 2 then (if 64 ≤ l + m then none else some (l + m))
  else if 64 ≤ m then none else some (l ^^^ m)

/-! ### Accesses to memory (07, 09) -/

/-- What a slot names that takes its address from two operands (09 R234, R235). -/
def memOp (d : Dst) (a b : Src) : LaneOp := { d := d, a := some a, b := some b, elems := false }
/-- The same for a slot without a register destination. -/
def putOp (a b : Src) : LaneOp := memOp ⟨false, 0⟩ a b
/-- The same for a store, whose data register is read in the lanes that act (02 R62; 14 R346). -/
def stOp (d : BitVec 5) (a b : Src) : LaneOp := { putOp a b with data := some ⟨false, false, d⟩ }

/-- A scratchpad access of `n` bytes by the seat that runs names the byte at key `k`, is aligned to `align`, and every line
of it is present, on a die that is not fenced and, where it is read, not poisoned (07 R179, R180; 14 R365). -/
def State.spadOpen (s : State) (n align : Nat) (read : Bool) (ea : Int) (k : Nat) : Prop :=
  s.spadDecode (s.cur / 256) s.now ea = .ok k ∧ ea.toNat % align = 0 ∧ s.fenced.getLsbD (k / 2 ^ 24 / 8) = false ∧
    ∀ c ∈ linesOf k n, s.isAbsent c = false ∧ (read = true → s.isPois c = false)

/-- A store that the row's tail sink has still to make overlaps `n` bytes at a key (08 R205). -/
def State.sinkMeets (s : State) (k n : Nat) : Prop := ∃ x ∈ s.sinkLeft s.cur s.now, x.2 < k + n ∧ k < x.2 + 8

/-- An access that goes ahead: no store of the row's tail sink stands before it. -/
def State.spadOk (s : State) (n align : Nat) (read : Bool) (ea : Int) (k : Nat) : Prop :=
  s.spadOpen n align read ea k ∧ ¬s.sinkMeets k n

/-- The key of an effective address of the seat that runs. -/
def State.spadKeyOf (s : State) (ea : Int) : Nat :=
  match s.spadDecode (s.cur / 256) s.now ea with
  | .ok k => k
  | .error _ => 0

/-- `n` bytes as a loaded element: the bytes from the low end up, and above them the sign or zeros (09 R237, 00 R6). -/
def Loaded (n : Nat) (sg : Bool) (byte : Nat → Byte) (v : Word) : Prop :=
  (∀ j, j < n → v.extractLsb' (8 * j) 8 = byte j) ∧
    ∀ j, 8 * n ≤ j → j < 64 → v.getLsbD j = (sg && v.getLsbD (8 * n - 1))

/-- Bytes with the low `n` bytes of a number written from an address (00 R6). -/
def storeBytes (m : Nat → Byte) (a n v : Nat) : Nat → Byte := fun x =>
  if a ≤ x ∧ x < a + n then BitVec.ofNat 8 (v / 2 ^ (8 * (x - a))) else m x

/-- `n` bytes from an address as a number (00 R6). -/
def readBytes (m : Nat → Byte) (a : Nat) : Nat → Nat
  | 0 => 0
  | n + 1 => (m a).toNat + 256 * readBytes m (a + 1) n

/-- Stores made one after the other, each an address and a number (08 R206). -/
def storeAll (n : Nat) (ws : List (Nat × Nat)) (m : Nat → Byte) : Nat → Byte :=
  ws.foldl (fun m w => storeBytes m w.1 n w.2) m

/-- Where stores of `n` bytes at these addresses write every byte of the `m` that start at `m * c`. -/
def Covered (n : Nat) (as : List Nat) (m c : Nat) : Prop := ∀ j, j < m → ∃ a ∈ as, a ≤ m * c + j ∧ m * c + j < a + n

/-- The lines that stores of `n` bytes at these keys leave poisoned: those that were, but for lines that they write whole (07
R187). -/
def LinesLeft (s u : State) (n : Nat) (ks : List Nat) : Prop := Sparse.wf false s.spois = true →
  ∀ c, u.isPois c = true ↔ s.isPois c = true ∧ ¬Covered n ks 128 c

/-- The sectors that stores of `n` bytes at these addresses leave poisoned, or with an error: the same of sectors (07 R199).
-/
def SectorsLeft (s u : State) (n : Nat) (as : List Nat) : Prop := Sparse.wf false s.hpois = true →
  ∀ pa, u.secPois pa = true ↔ s.secPois pa = true ∧ ¬Covered n as 32 (paSector pa)

/-- Atomic updates made one after the other, each by a lane at an address: the bytes they leave, and what each lane found
(09 R242). -/
def atomics (n : Nat) (new : Nat → Nat → Nat) : List (Nat × Nat) → (Nat → Byte) → (Nat → Byte) × (Nat → Nat)
  | [], m => (m, fun _ => 0)
  | (l, a) :: xs, m =>
    let old := readBytes m a n
    let r := atomics n new xs (storeBytes m a n (new l old))
    (r.1, fun k => if k = l then old else r.2 k)

/-- What an atomic leaves of an old value and an operand (09 R241). -/
def Seat.atomic (t : Seat) (f old v : Nat) : Nat :=
  let w := tyBits t.ety
  match f with
  | 0 => (old + v) % 2 ^ w
  | 1 => (old + 2 ^ w - v) % 2 ^ w
  | 2 => if t.key old ≤ t.key v then old else v
  | 3 => if t.key old ≤ t.key v then v else old
  | 4 => old &&& v
  | 5 => old ||| v
  | 6 => old ^^^ v
  | 7 => if t.ety = 9 ∧ (decodeF f32 v).isNan then nanBits f32 else v
  | 8 => (fadd f32 0 old v).1
  | 10 => (fminmax f32 false old v).1
  | _ => (fminmax f32 true old v).1

/-- The lanes that act, lowest first. -/
def LaneIn.lanes (i : LaneIn) : List Nat := (List.range 64).filter i.act.getLsbD
/-- The lane's scratchpad address, and its global one (09 R235). -/
def LaneIn.spadAddr (i : LaneIn) (scale l : Nat) : Int := (vget 0 i.a l).toNat + (vget 0 i.b l).toInt * scale
def LaneIn.globalAddr (i : LaneIn) (l : Nat) : Word := vget 0 i.a l + vget 0 i.b l

/-- The size of an element in bytes, and whether it is sign-extended, by F or by the type that MOD names (09 R236). -/
def Seat.size (t : Seat) (f : BitVec 4) : Nat := if t.modw.getLsbD 15 then tyBits t.ety / 8 else 2 ^ (f.toNat % 4)
def Seat.signed (t : Seat) (f : BitVec 4) : Bool := if t.modw.getLsbD 15 then isSigned t.ety else f.getLsbD 2
/-- F is one that the access takes, and the type has a size. -/
def Seat.takesF (t : Seat) (load : Bool) (f : BitVec 4) : Prop :=
  if t.modw.getLsbD 15 then f.toNat % 8 = 0 ∧ t.ety ≠ 13
  else f.getLsbD 2 = true → load = true ∧ f.toNat % 4 ≠ 3

/-- A block form passes its checks (09 R234, R238); `data` is the data register of a store, read in the active lanes. -/
structure BlockReady (s : State) (a b : Src) (sp : Bool) (data : Option (BitVec 5) := none) : Prop where
  resident : s.now.resident = true
  lane : s.now.uniform = false
  forms : scalarOk a = true ∧ immOk s.now b = true
  check : s.now.check s.cur true false false sp ((immSrcs s.now a b).map fun a => (a, 1))
    (also := data.toList.map fun d => (false, ⟨false, false, d⟩, s.now.gov)) (masks := s.now.guardMask) = .ok ()

/-- A block's address, and lane `l`'s part of it in the scratchpad (09 R238). -/
def State.blockAddr (s : State) (a b : Src) : Word := s.scalar s.now a + s.immVal s.now b
def State.blockLane (s : State) (a b : Src) (l : Nat) : Int :=
  (s.scalar s.now a).toNat + (s.immVal s.now b).toInt + 8 * l

/-- The checks of a global access of the slot that runs (07 R180, R189): where each lane's access goes, and the machine
with the peers' answers taken; `op` tells what each access of the list asks of a peer. -/
def State.global (s : State) (as mis : List (Nat × Word)) (n : Nat) (write read : Bool) (op : Nat → Option PeerOp)
    (ls : List LaneLoc) (s1 : State) : Prop :=
  s.gcheck s.now.bind.part (s.cur / 256 / 8) (some s.cur) as mis n write read op = .ok (ls, s1)

/-- The accesses of a list that go to memory: each its lane and physical address. -/
def memLocs (ls : List LaneLoc) : List (Nat × Nat) :=
  ls.filterMap fun x => match x.2.2 with
    | .mem pa _ => some (x.1, pa)
    | .peer _ => none

/-- Some lane of a load names the sector of an address through an uncached page. -/
def pastAt (ls : List LaneLoc) (pa : Nat) : Prop := ∃ l va q, (l, va, .mem q true) ∈ ls ∧ paSector q = paSector pa

/-- A lane's loaded element, one of the lanes `ls` of one instruction (07 R192, R191; 08 R203, R206): from its home where the
load or some lane of that sector goes past the cache, or the core holds no valid sector of it; else from that sector; or as
the peer answered to the first lane of that address. All of them read the machine that the instruction found. -/
def LoadedAt (s : State) (n : Nat) (sg noCache : Bool) (ls : List LaneLoc) (x : LaneLoc) (v : Word) : Prop :=
  match x.2.2 with
  | .mem pa nc =>
    let home := Loaded n sg (fun j => s.hbyte (pa + j)) v
    (noCache = true ∨ nc = true ∨ pastAt ls pa → home) ∧ (noCache = false → nc = false → ¬pastAt ls pa →
      match s.cached (s.cur / 256) pa with
      | some c => Loaded n sg (fun j => vget 0 c.data (pa % 32 + j)) v
      | none => home)
  | .peer _ => ∀ l w, ls.find? (fun y => y.2.1 == x.2.1) = some (l, x.2.1, .peer (.data w)) →
      Loaded n sg (fun j => w.extractLsb' (8 * j) 8) v

/-- The loads of one instruction, a value for each lane. -/
def LoadedAll (s : State) (n : Nat) (sg noCache : Bool) (ls : List LaneLoc) (v : Nat → Word) : Prop :=
  ∀ x ∈ ls, LoadedAt s n sg noCache ls x (v x.1)

/-- Sectors of these addresses have been fetched into the core's line cache, each held for the partition's lease length (07
R192; 08 R217); what is held validly stays. No line makes room where all of them fit. -/
def Fetched (s u : State) (pas : List Nat) : Prop :=
  let c := s.cur / 256
  let lease := s.time.toNat + 64 * (s.part s.now.bind.part).leaseLen.toNat
  (∀ pa ∈ pas, s.cached c pa = none → u.leaseOf pa = max lease (s.leaseOf pa)) ∧
  ((s.core c).lines.length + pas.length ≤ 16384 → ∀ pa ∈ pas, match s.cached c pa with
    | some e => u.cached c pa = some e
    | none => Sparse.get none (u.core c).lcache (paSector pa) = some { data := s.sectorData pa, expiry := lease })

/-- What loads leave in the core's line cache and its leases (07 R192; 08 R203, R217): a sector that is loaded uncached is
held no more, unless a cached page names it too; others are fetched. -/
def Held (s u : State) (noCache : Bool) (ls : List LaneLoc) : Prop :=
  let c := s.cur / 256
  (∀ k, k ≠ c → u.core k = s.core k) ∧ u.core c = { s.core c with lcache := (u.core c).lcache } ∧
  (∀ pa, s.leaseOf pa ≤ u.leaseOf pa) ∧
  (noCache = true → u.leases = s.leases ∧ ∀ x ∈ memLocs ls, u.cached c x.2 = none) ∧
  (∀ l va pa, (l, va, .mem pa true) ∈ ls → (∀ l' va' pa', (l', va', .mem pa' false) ∈ ls → paSector pa' ≠ paSector pa) →
    u.cached c pa = none) ∧
  (noCache = false → (∀ x ∈ ls, ∀ pa, x.2.2 ≠ .mem pa true) → Fetched s u ((memLocs ls).map fun x => x.2))

/-- What stores of `n` bytes at these addresses leave in the caches (07 R192; 09 R242): the issuing core's valid sectors hold
what was stored, with their leases; none becomes valid, and no other core's cache changes. -/
def CachesStored (s u : State) (n : Nat) (pas : List Nat) : Prop :=
  let c := s.cur / 256
  (∀ k, k ≠ c → u.core k = s.core k) ∧
  u.core c = { s.core c with lcache := (u.core c).lcache, gwct := (u.core c).gwct } ∧
  (Sparse.wf none (s.core c).lcache = true → ∀ pa, match s.cached c pa with
    | none => u.cached c pa = none
    | some e => ∃ e', u.cached c pa = some e' ∧ e'.expiry = e.expiry ∧ ∀ j, j < 32 →
      let a := paSector pa * 32 + j
      vget 0 e'.data j = if ∃ x ∈ pas, x ≤ a ∧ a < x + n then u.hbyte a else vget 0 e.data j)

/-- A write completion time is received for writes to these addresses, where `old` was the latest (08 R213, R217); leases
count but for the accesses of uncached pages. -/
def Receives (s : State) (ls : List LaneLoc) (old g : Option Nat) : Prop :=
  (memLocs ls = [] → g = old) ∧ (∀ x ∈ memLocs ls, ∃ c, g = some c ∧ s.time.toNat ≤ c) ∧
    (∀ l va pa, (l, va, .mem pa false) ∈ ls → ∃ c, g = some c ∧ s.leaseOf pa ≤ c) ∧
    ∀ h, old = some h → ∃ c, g = some c ∧ h ≤ c

/-- What the stores of a row's image to these places leave: the same, of the places that its fields name. -/
def ImageStored (s u : State) (ls : List LaneLoc) (fs : List ImgField) (g : Option Nat) : Prop :=
  (∀ k, k ≠ s.cur / 256 → u.core k = s.core k) ∧ (∀ h, s.now.gwct = some h → ∃ c, g = some c ∧ h ≤ c) ∧
    ∀ f ∈ fs, ∀ pa nc, locAt ls f.off = .mem pa nc → ∃ c, g = some c ∧ s.time.toNat ≤ c ∧ (nc = false → s.leaseOf pa ≤ c)

/-- The seat that runs receives it, and its core keeps it for the rows that acquire (08 R211; log 98). -/
def Completed (s u : State) (ls : List LaneLoc) (g : Option Nat) : Prop :=
  let c := s.cur / 256
  Receives s ls s.now.gwct g ∧ (c < 64 → Receives s ls (s.core c).gwct (u.core c).gwct)

/-- A contribution arrives at its unit (04 R113, R115): it enters the open accumulator of its word, or a fresh one that takes
the word from memory first, unless none is free or an earlier arrival at the unit waits for one; then it waits. Its
issuer's write completion time comes with its performance (08 R213, R217). -/
def Arrives (s u : State) (c : Contrib) : Prop :=
  let blocked := s.unitRoom c.addr = false ∨
    ∃ o ∈ s.contribs, s.homeOf o.addr = s.homeOf c.addr ∧ s.accum o.addr = none ∧ s.contribFrozen o = false
  let performed := fun a : Accum => u.accum c.addr = some (a.add c.v.toNat) ∧ u.contribs = s.contribs ∧
    ∀ sid, c.sid = some sid → (s.seat sid).resident = true → ∃ g, (u.seat sid).gwct = some g ∧ s.time.toNat ≤ g ∧
      (c.nc = false → s.leaseOf c.addr ≤ g) ∧ ∀ h, (s.seat sid).gwct = some h → h ≤ g
  (∀ a, s.accum c.addr = some a → performed a) ∧
  (s.accum c.addr = none → ¬blocked → performed (({} : Accum).add (readBytes s.hbyte c.addr 4))) ∧
  (s.accum c.addr = none → blocked → u.accums = s.accums ∧ u.contribs = s.contribs ++ [c]) ∧
  (∀ pa, pa ≠ c.addr → u.accum pa = s.accum pa) ∧ (∀ k, ∃ g, u.core k = { s.core k with gwct := g }) ∧
  u = { s with accums := u.accums, contribs := u.contribs, seats := u.seats, cores := u.cores }

/-- A pair joins the pairs that a bin holds: of the same launch and entry address (10 R275). -/
def SpawnBin.joins (x : SpawnBin) (launch : Nat) (entry : Word) : Prop :=
  x.args ≠ [] ∧ x.launch = launch ∧ x.entry = entry

/-- The pair would make a pending row where one waits already: as the 64th, or as one for another row (10 R275). -/
def SpawnBin.full (x : SpawnBin) (launch : Nat) (entry : Word) : Prop :=
  x.pending ≠ none ∧ (x.joins launch entry ∧ 63 ≤ x.args.length ∨ x.args ≠ [] ∧ ¬x.joins launch entry)

/-- A bin takes a pair (10 R275): it joins those held, and the 64th makes them the pending row; or it starts the pairs held
and their timer, those for another row being made the pending row first. -/
def SpawnBin.Takes (x y : SpawnBin) (now bint launch : Nat) (entry arg : Word) : Prop := ¬x.full launch entry ∧
  (x.joins launch entry → x.args.length < 63 → y = { x with args := x.args ++ [arg] }) ∧
  (x.joins launch entry → 63 ≤ x.args.length → y.args = [] ∧ y.pending = some (launch, entry, x.args ++ [arg])) ∧
  (¬x.joins launch entry → y = { launch := launch, entry := entry, args := [arg], fire := now + bint
                                 pending := if x.args = [] then x.pending else some (x.launch, x.entry, x.args) })

/-- One round of ISECT in a lane (09 R245), `p` and `q` giving the elements at an address of each list: elements are compared
while both lists have some left in the sectors that the round has read. -/
def Isect.Round (p q : Word → Nat) (i j : Isect) : Prop :=
  let runs := fun k : Isect => k.na ≠ 0 ∧ k.nb ≠ 0 ∧ k.xa &&& ~~~31#64 = i.xa &&& ~~~31#64 ∧ k.xb &&& ~~~31#64 = i.xb &&& ~~~31#64
  ∃ (n : Nat) (st : Nat → Isect), st 0 = i ∧ st n = j ∧ ¬runs j ∧ ∀ k, k < n → runs (st k) ∧
    let x := st k
    let le := decide (p x.xa ≤ q x.xb)
    let ge := decide (q x.xb ≤ p x.xa)
    st (k + 1) = { xa := if le then x.xa + 4 else x.xa, na := if le then x.na - 1 else x.na
                   xb := if ge then x.xb + 4 else x.xb, nb := if ge then x.nb - 1 else x.nb
                   d := if le && ge then x.d + 1 else x.d }

/-! ### Engines (09 R257 to R263) -/

/-- The bytes that an engine reads from a side of a row. -/
def State.sideBytes (s : State) (n : Nat) (x : Side) : List Byte :=
  match x with
  | .spad k => (List.range n).map fun i => s.spad.byte (k + i)
  | _ => (x.bytes n).map s.hbyte

/-- No sector of a side has an uncorrectable error that has not been met. -/
def State.sideClean (s : State) (n : Nat) (x : Side) : Prop :=
  match x with
  | .spad _ => True
  | _ => ∀ a ∈ x.bytes n, s.secUE a = false

/-- What a row's source bytes carry: a poison mark for each (07 R187, R199). -/
def State.sideMarks (s : State) (n : Nat) (x : Side) : List Bool :=
  match x with
  | .spad k => (List.range n).map fun i => s.isPois ((k + i) / 128)
  | _ => (x.bytes n).map s.secPois

/-! ### The codes of packets (09 R263; 10 R265) -/

/-- `c` is the lowest of the codes that a packet fails. -/
def Lowest (fails : Nat → Prop) (c : Nat) : Prop := fails c ∧ ∀ d, d < c → ¬fails d

/-- A code of R263 that a copy packet of a queue fails (09 R257, R259, R263). A target of kind 3 counts as a reserved value
(log 88). -/
def State.copyFails (s : State) (p : Nat) (q : Queue) (k : Vector Word 8) (code : Nat) : Prop :=
  let kind := pktField k 0 1
  let ssp := (pktField k 1 1).testBit 0
  let dsp := (pktField k 1 1).testBit 1
  let len := pktField k 4 4
  let rows := pktField k 0x18 4
  let src := pktWord k 8
  let dst := pktWord k 0x10
  let index := pktWord k 0x38
  let targets := [pktWord k 0x28, pktWord k 0x30]
  let barrier := fun t : Word => t.extractLsb' 62 2 = 1
  let here := fun a : Word => a >>> 30 = 2
  match code with
  | 0x01 => kind = 0 ∨ 4 < kind
  | 0x02 => 4 ≤ pktField k 1 1 ∨ kind = 3 ∧ ssp ∨ kind = 2 ∧ dsp ∨ 8 ≤ pktField k 2 1 ∨ pktField k 3 1 ≠ 0 ∨
    pktField k 0x24 4 ≠ 0 ∨ kind ≠ 4 ∧ index ≠ 0 ∨ ∃ t ∈ targets, t.extractLsb' 62 2 = 0 ∧ t ≠ 0 ∨
      barrier t ∧ t.extractLsb' 32 30 ≠ 0 ∨ t.extractLsb' 62 2 = 2 ∧ t.extractLsb' 12 50 ≠ 0 ∨ t.extractLsb' 62 2 = 3
  | 0x03 => len % 8 ≠ 0 ∨ kind = 4 ∧ index &&& 3 ≠ 0 ∨ ∃ t ∈ targets, barrier t ∧ t &&& 31 ≠ 0
  | 0x04 => match q.core with
    | none => kind = 2 ∨ ssp ∨ dsp ∨ ∃ t ∈ targets, barrier t
    | some _ => (kind = 1 ∨ kind = 4) ∧ ¬ssp ∧ ¬dsp ∨ ssp ∧ ¬here src ∨ dsp ∧ ¬here dst ∨
      (∃ t ∈ targets, barrier t ∧ ¬here (t &&& 0xFFFFFFFF)) ∨ kind ≠ 3 ∧ ¬ssp ∧ src.getLsbD 63 ∨
      kind ≠ 2 ∧ ¬dsp ∧ dst.getLsbD 63 ∨ kind = 4 ∧ index.getLsbD 63
  | 0x05 => len = 0 ∨ rows = 0 ∨ 2 ^ 32 ≤ len * rows ∨ 6 ≤ pktField k 2 1 % 8 ∨ kind = 2 ∧ 512 < len
  | 0x06 => kind = 2 ∧ ∀ c, q.core = some c → s.feedHead p c k = none
  | 0x08 => match q.core with
    | none => (s.part p).keel.getLsbD (q.engine.toNat % 16) = false
    | some c => s.owns p c = false ∨ s.usable c = false
  | _ => False

/-- A code of R263 that a girth packet fails without its pages (09 R261, R263); `ok` tells that the queue's ENGINE names a
stack of the partition. -/
def girthFails (k : Vector Word 8) (ok : Bool) (code : Nat) : Prop :=
  let cmd := pktField k 0 1
  let n := pktField k 4 4
  let usesX := cmd = 0x10 ∨ cmd = 0x12 ∨ cmd = 0x13
  let usesM := cmd = 0x12 ∨ cmd = 0x13
  let bases := [pktWord k 8] ++ (if usesX then [pktWord k 0x10] else []) ++ (if usesM then [pktWord k 0x18] else []) ++
    if cmd = 0x13 then [pktWord k 0x18 + BitVec.ofNat 64 (4 * n)] else []
  let consts := if cmd = 0x10 ∨ cmd = 0x11 then 1 else if cmd = 0x12 then 3 else if cmd = 0x13 then 7 else 0
  match code with
  | 0x01 => cmd < 0x10 ∨ 0x15 < cmd
  | 0x02 => pktField k 1 1 ≠ 0 ∨ pktField k 2 2 ≠ 0 ∨ pktField k 0x20 4 / 2 ^ 12 % 2 ^ 19 ≠ 0 ∨ ¬usesX ∧ pktWord k 0x10 ≠ 0 ∨
    ¬usesM ∧ pktWord k 0x18 ≠ 0 ∨ ∃ j, consts ≤ j ∧ j < 7 ∧ pktField k (0x24 + 4 * j) 4 ≠ 0
  | 0x03 => ∃ a ∈ bases, a &&& 3 ≠ 0
  | 0x05 => n = 0
  | 0x07 => ∃ (i j : Nat) (a b : Word), i < j ∧ bases[i]? = some a ∧ bases[j]? = some b ∧ a.toNat < b.toNat + 4 * n ∧ b.toNat < a.toNat + 4 * n
  | 0x08 => ok = false ∨ ∃ a ∈ bases, a.getLsbD 63 = true
  | _ => False

/-- A rectangle of usable cores of the partition, on one grid die where the launch asks for it, with its corner at a place of
the mesh (10 R265; 01 R29). -/
def State.Rect (s : State) (l : Launch) (rig : List Nat) : Prop := ∃ x y, x + l.rigw ≤ 16 ∧ y + l.righ ≤ 4 ∧
  rig = rigCores x y l.rigw l.righ ∧ (∀ c ∈ rig, s.usable c = true ∧ s.owns l.part c = true) ∧
  (l.onedie = true → ∀ c ∈ rig, ∀ d ∈ rig, c / 8 = d / 8)

/-- A string of the launch fits in a core of the rectangle when nothing else is there (10 R265; 01 R26, R28). -/
def State.Fits (s : State) (l : Launch) (rig : List Nat) : Prop := ∃ c ∈ rig, ∃ head seat,
  (if l.slen ≤ 64 then head + l.slen ≤ 64 else head = 0 ∧ ∀ i, i < (l.slen + 63) / 64 → c + 8 * i ∈ rig) ∧
  seat < 4 ∧ l.seats.getLsbD seat = true ∧
  ∀ r ∈ stringRows c head l.slen, s.rowUsable r = true ∧ s.seatUsable (r * 4 + seat) = true

/-- A code of R265 that a launch packet fails without its bridle table (10 R264, R265, R268). -/
def State.launchFails (s : State) (k : Vector Word 8) (l : Launch) (code : Nat) : Prop :=
  let flags := pktField k 1 1
  match code with
  | 0x01 => pktField k 0 1 ≠ 0x20
  | 0x02 => flags % 4 = 3 ∨ 32 ≤ flags ∨ 16 ≤ pktField k 2 1 ∨ 16 ≤ pktField k 5 1 ∨ pktField k 0x0E 2 ≠ 0 ∨
    pktWord k 0x38 ≠ 0 ∨ pktField k 0x24 4 / 2 ^ 12 % 2 ^ 19 ≠ 0
  | 0x03 => pktWord k 0x10 &&& 15 ≠ 0 ∨ pktWord k 0x28 &&& 63 ≠ 0
  | 0x05 => ¬(1 ≤ l.lanes ∧ l.lanes ≤ 64 ∧ l.acc ∈ [1, 2, 4] ∧ (1 ≤ l.slen ∧ l.slen ≤ 64 ∨ l.slen ∈ [128, 192, 256]) ∧
    1 ≤ l.nstr ∧ l.nstr ≤ 2 ^ 20 ∧ 1 ≤ l.rigw ∧ l.rigw ≤ 16 ∧ 1 ≤ l.righ ∧ l.righ ≤ 4 ∧ l.spad ≤ 0xC00000 ∧
    l.rigw * l.righ ≤ 12 ∧ l.seats ≠ 0)
  | 0x10 => l.cls = 0 ∧ l.ports = true ∨ 1 < l.slen ∧ l.ports = false
  | 0x11 => ∀ rig, ¬s.Rect l rig
  | 0x12 => ∀ rig, s.Rect l rig → ¬s.Fits l rig
  | 0x13 => l.cls = 2 ∧ ∀ rig, s.Rect l rig → s.fitAll rig l.slen l.acc l.seats l.nstr 0 [] = none
  | 0x14 => if l.ports then l.seats ≠ 1 else l.seats.getLsbD 0 = true
  | 0x15 => Sparse.get none s.launches (launchKey l.part l.lid) ≠ none
  | 0x16 => l.pin = true ∧ l.bridle = 0
  | _ => False

/-- What a girth command stores for the element at an index of its ranges, in order, from the values that `s` holds (09
R262; 04 R114). -/
def State.girthStores (s : State) (p : Nat) (k : Vector Word 8) (i : Nat) : List (Nat × Nat) :=
  let n := pktField k 4 4
  let c := fun j => pktField k (0x24 + 4 * j) 4
  let at' := fun b => s.elemPa p b i
  let ya := at' (pktWord k 8)
  let ma := at' (pktWord k 0x18)
  let va := at' (pktWord k 0x18 + BitVec.ofNat 64 (4 * n))
  let rd := fun a => readBytes s.hbyte a 4
  let y := rd ya
  let x := rd (at' (pktWord k 0x10))
  let add := fun a b => (fadd f32 0 a b).1
  let sub := fun a b => (fsub f32 0 a b).1
  let mul := fun a b => (fmul f32 0 a b).1
  let div := fun a b => (fdiv f32 0 a b).1
  match pktKind k with
  | 0x10 => [(ya, add y (mul (c 0) x))]
  | 0x11 => [(ya, mul (c 0) y)]
  | 0x12 =>
    let m := add (mul (c 1) (rd ma)) (add x (mul (c 2) y))
    [(ma, m), (ya, sub y (mul (c 0) m))]
  | 0x13 =>
    let m := add (mul (c 1) (rd ma)) (mul (sub 0x3F800000 (c 1)) x)
    let v := add (mul (c 2) (rd va)) (mul (sub 0x3F800000 (c 2)) (mul x x))
    let q := div (div m (c 5)) (add (fsqrt f32 0 (div v (c 6))).1 (c 3))
    [(ma, m), (va, v), (ya, sub y (mul (c 0) (add q (mul (c 4) y))))]
  | 0x14 => [(ya, 0)]
  | _ => match s.accum ya with
    | some a => [(ya, a.word)]
    | none => []

end Sys2Proof.Machine
end

