-- ==== Sys2Proof/Certificates/Slice0/Obligations.lean ====
section
/-! DEFINITION. What is claimed of the machine, for the provers: one proposition each. -/
open Sys2Proof Sys2Proof.Machine

/-! ### Lane instructions (05) -/

/-- 05 R117, R118; 02 R52, R57, R58: each of the 57 instructions that write one register completes, and changes its
destination, FSTAT, the latches and dead marks alone; `nw` writes the latch only. -/
def Obligations.LaneInstructionsComplete : Prop := ∀ i t, (laneOp i t).isSome = true → Computes i fun _ _ _ _ => True

/-- 05 R122, R123: sums, differences, products and their upper halves, absolute value and negation, element by
element, narrowed to the element. 05 R118, R126; 02 R55, R66: the bitwise instructions, MOV, LEA and the immediates act on
all 64 bits; an XIMM widens an immediate to 42 bits. No flag is raised. -/
def Obligations.IntegerSumsAndWords : Prop := ∀ d a b,
  (Computes (.add d a b) fun t i v fl => fl = 0 ∧ Elements t i v fun a b _ _ x => x = t.narrowed (t.val a + t.val b)) ∧
  (Computes (.sub d a b) fun t i v fl => fl = 0 ∧ Elements t i v fun a b _ _ x => x = t.narrowed (t.val a - t.val b)) ∧
  (Computes (.mul d a b) fun t i v fl => fl = 0 ∧ Elements t i v fun a b _ _ x => x = t.narrowed (t.val a * t.val b)) ∧
  (Computes (.mad d a b) fun t i v fl => fl = 0 ∧
    Elements t i v fun a b _ d x => x = t.narrowed (t.val d + t.val a * t.val b)) ∧
  (Computes (.abs d a) fun t i v fl => fl = 0 ∧ Elements t i v fun a _ _ _ x => x = t.narrowed |t.val a|) ∧
  (Computes (.neg d a) fun t i v fl => fl = 0 ∧ Elements t i v fun a _ _ _ x => x = t.narrowed (-t.val a)) ∧
  (Computes (.mulh d a b) fun t i v fl => fl = 0 ∧ Elements t i v fun a b _ _ x =>
    (x : Int) = t.val a * t.val b / (2 ^ tyBits t.ety : Nat) % (2 ^ tyBits t.ety : Nat)) ∧
  (Computes (.and d a b) fun _ i v fl => fl = 0 ∧ Wholes i v fun a b _ x => x = a &&& b) ∧
  (Computes (.or d a b) fun _ i v fl => fl = 0 ∧ Wholes i v fun a b _ x => x = a ||| b) ∧
  (Computes (.xor d a b) fun _ i v fl => fl = 0 ∧ Wholes i v fun a b _ x => x = a ^^^ b) ∧
  (Computes (.andn d a b) fun _ i v fl => fl = 0 ∧ Wholes i v fun a b _ x => x = a &&& ~~~b) ∧
  (Computes (.mov d a) fun _ i v fl => fl = 0 ∧ Wholes i v fun a _ _ x => x = a) ∧
  (∀ k, Computes (.lea d a b k) fun _ i v fl => fl = 0 ∧ Wholes i v fun a b _ x => x = a + b * 2 ^ k.toNat) ∧
  (∀ n, Computes (.li d n) fun t i v fl => fl = 0 ∧ Wholes i v fun _ _ _ x =>
    x = match t.pximm with
      | none => n.signExtend 64
      | some y => (y ++ n).signExtend 64) ∧
  (∀ n, Computes (.lsi d n) fun t i v fl => fl = 0 ∧ Wholes i v fun _ _ d x =>
    x = match t.pximm with
      | none => d * 2 ^ 18 + n.setWidth 64
      | some y => d * 2 ^ 42 + (y ++ n).setWidth 64) ∧
  (∀ n, Computes (.addi d n) fun t i v fl => fl = 0 ∧ Wholes i v fun _ _ d x =>
    let y := d.toInt + (match t.pximm with
      | none => n.signExtend 64
      | some z => (z ++ n).signExtend 64 : Word).toInt
    x = BitVec.ofInt 64 (if t.intSat then max (-2 ^ 63) (min (2 ^ 63 - 1) y) else y))

/-- 05 R125, R127, R128: shifts by an unsigned count of any size, and the rotate, whose bits move around; leading
zeros, set bits and reversed bits; bit fields taken out and put in, and extended values. -/
def Obligations.ShiftsAndBits : Prop :=
  (∀ d a b,
  (Computes (.shl d a b) fun t i v fl => fl = 0 ∧ Elements t i v fun a n _ _ x => x = a * 2 ^ n % 2 ^ tyBits t.ety) ∧
  (Computes (.shr d a b) fun t i v fl => fl = 0 ∧ Elements t i v fun a n _ _ x => x = a / 2 ^ n) ∧
  (Computes (.sar d a b) fun t i v fl => fl = 0 ∧ Elements t i v fun a n _ _ x =>
    ival true (tyBits t.ety) x = ival true (tyBits t.ety) a / (2 ^ n : Nat)) ∧
  (Computes (.rot d a b) fun t i v fl => fl = 0 ∧ Elements t i v fun a n _ _ x =>
    ∀ j, j < tyBits t.ety → x.testBit ((j + n) % tyBits t.ety) = a.testBit j)) ∧
  (∀ d a b,
  (Computes (.clz d a) fun t i v fl => fl = 0 ∧ Elements t i v fun a _ _ _ x =>
    (∀ j, j < tyBits t.ety → tyBits t.ety - x ≤ j → a.testBit j = false) ∧
      (if a = 0 then x = tyBits t.ety else x < tyBits t.ety ∧ a.testBit (tyBits t.ety - x - 1) = true)) ∧
  (Computes (.popc d a) fun t i v fl => fl = 0 ∧ Elements t i v fun a _ _ _ x =>
    x = (List.range (tyBits t.ety)).countP a.testBit) ∧
  (Computes (.brev d a) fun t i v fl => fl = 0 ∧ Elements t i v fun a _ _ _ x =>
    ∀ j, j < tyBits t.ety → x.testBit (tyBits t.ety - 1 - j) = a.testBit j) ∧
  (Computes (.bfx d a b) fun t i v fl => fl = 0 ∧ ∀ l, i.act.getLsbD l = true → ∀ k, k < 64 / tyBits t.ety →
    let w := tyBits t.ety
    let x := elem w (v l) k
    let a := elem w (vget 0 i.a l) k
    let p := (vget 0 i.b l).toNat % 256
    let m := min ((vget 0 i.b l).toNat / 256 % 256) (w - p)
    if m = 0 then x = 0
    else if isSigned t.ety then ival true w x = ival true m (a / 2 ^ p) else x = a / 2 ^ p % 2 ^ m) ∧
  (Computes (.bfi d a b) fun t i v fl => fl = 0 ∧ ∀ l, i.act.getLsbD l = true → ∀ k, k < 64 / tyBits t.ety →
    let w := tyBits t.ety
    let x := elem w (v l) k
    let a := elem w (vget 0 i.a l) k
    let d := elem w (vget 0 i.d l) k
    let p := (vget 0 i.b l).toNat % 256
    let m := min ((vget 0 i.b l).toNat / 256 % 256) (w - p)
    ∀ j, j < w → x.testBit j = if p ≤ j ∧ j < p + m then a.testBit (j - p) else d.testBit j) ∧
  (Computes (.sext d a b) fun t i v fl => fl = 0 ∧ ∀ l, i.act.getLsbD l = true → ∀ k, k < 64 / tyBits t.ety →
    let w := tyBits t.ety
    let n := (vget 0 i.b l).toNat % 128
    let a := elem w (vget 0 i.a l) k
    let x := elem w (v l) k
    if n = 0 ∨ w ≤ n then x = a else ival true w x = ival true n a) ∧
  (Computes (.zext d a b) fun t i v fl => fl = 0 ∧ ∀ l, i.act.getLsbD l = true → ∀ k, k < 64 / tyBits t.ety →
    let w := tyBits t.ety
    let n := (vget 0 i.b l).toNat % 128
    let a := elem w (vget 0 i.a l) k
    elem w (v l) k = if n = 0 ∨ w ≤ n then a else a % 2 ^ n))

/-- 05 R129: quotients toward zero and remainders with the dividend's sign; a zero divisor gives all ones or the
dividend, and sets DZ. -/
def Obligations.Division : Prop := ∀ d a b,
  (Computes (.div d a b) fun t i v fl =>
    (Elements t i v fun a b _ _ x =>
      x = if b = 0 then 2 ^ tyBits t.ety - 1 else t.narrowed ((t.val a).tdiv (t.val b))) ∧
    fl = if (lanesOf i.act).any (fun l => (List.range (64 / tyBits t.ety)).any (fun k =>
      elem (tyBits t.ety) (vget 0 i.b l) k == 0)) then 2#6 else 0) ∧
  (Computes (.rem d a b) fun t i v fl =>
    (Elements t i v fun a b _ _ x =>
      if b = 0 then x = a else (x : Int) = ((t.val a).tmod (t.val b)) % (2 ^ tyBits t.ety : Nat)) ∧
    fl = if (lanesOf i.act).any (fun l => (List.range (64 / tyBits t.ety)).any (fun k =>
      elem (tyBits t.ety) (vget 0 i.b l) k == 0)) then 2#6 else 0)

/-- 05 R124, R130, R132, R133; 04 R103: the order of integer and tapered elements, the comparisons on it and of IEEE
elements as values, and what is chosen; tapered codes are ordered as signed integers. -/
def Obligations.OrderAndChoice : Prop := ∀ d a b,
  (Computes (.min d a b) fun t i v fl => fl = 0 ∧ Elements t i v fun a b _ _ x => x = if t.key a ≤ t.key b then a else b) ∧
  (Computes (.max d a b) fun t i v fl => fl = 0 ∧ Elements t i v fun a b _ _ x => x = if t.key a ≤ t.key b then b else a) ∧
  (Computes (.clamp d a b) fun t i v fl => fl = 0 ∧ Elements t i v fun a lo hi _ x =>
    t.key x = min (max (t.key a) (t.key lo)) (t.key hi)) ∧
  (∀ f : BitVec 4, Computes (.cmp d a b f) fun t i v fl => isIeee t.ety = false → fl = 0 ∧ Elements t i v fun a b _ _ x =>
    x = 2 ^ tyBits t.ety - 1 ∧ t.relates f.toNat a b ∨ x = 0 ∧ ¬t.relates f.toNat a b) ∧
  (∀ f : BitVec 4, Computes (.cmp d a b f) fun t i v fl => isIeee t.ety = true → Flagged t i v fl fun a b _ _ r =>
    let y := Val.relates f.toNat (decodeF (fmtOf t.ety) a) (decodeF (fmtOf t.ety) b)
    r = (if y.1 then 2 ^ tyBits t.ety - 1 else 0, y.2)) ∧
  (∀ m, Computes (.sel d a b m) fun t i v fl => fl = 0 ∧ ∀ l, i.act.getLsbD l = true →
    v l = if (t.mr m.toNat).getLsbD l then vget 0 i.a l else vget 0 i.b l) ∧
  (Computes (.movs d a b) fun t i v fl => fl = 0 ∧ ∀ l, i.act.getLsbD l = true → ∀ k, k < 64 / tyBits t.ety →
    let w := tyBits t.ety
    elem w (v l) k = elem w (vget 0 i.a l) ((vget 0 i.b l).toNat / 2 ^ (4 * k) % 16 % (64 / w)))

/-- 05 R134 to R138; 04 R97 to R105; 03 R85, R86: a nonzero number is rounded once, by its mode, to each IEEE and
tapered format. Sums, products, fused forms, quotients, roots and the lesser or greater of two give the exact result of
the decoded elements, so rounded, or the special cases, and the flags of all elements; FEXP2, FLOG2, FTANH and FSIGM
their special and exact cases (log 13 has the others). A sign change touches one bit of an IEEE element and negates a
tapered one, without a flag; a class is the operand's. That arithmetic's tapered results beyond maxpos, or between zero
and minpos, set SA in every rounding mode is the model's reading of R102 and R95 (log 26). -/
def Obligations.FloatOperations : Prop :=
  (∀ f ∈ [Fmt.ieee 8, .ieee 24, .tap 8 1, .tap 16 1, .tap 32 2], ∀ (rnd : Nat) (x : ℚ) r, x ≠ 0 → rnd < 5 →
    Rounded f rnd x r → Rounds f rnd x r) ∧
  (∀ d a b, let num := fun (t : Seat) a => decodeF (fmtOf t.ety) a
  (Computes (.fadd d a b) fun t i v fl => Flagged t i v fl fun a b _ _ r =>
    SumsTo (fmtOf t.ety) t.ernd [num t a, num t b] false [(num t a).term, (num t b).term] r) ∧
  (Computes (.fsub d a b) fun t i v fl => Flagged t i v fl fun a b _ _ r =>
    SumsTo (fmtOf t.ety) t.ernd [num t a, num t b] false [(num t a).term, (num t b).term.flip] r) ∧
  (Computes (.fmul d a b) fun t i v fl => Flagged t i v fl fun a b _ _ r =>
    SumsTo (fmtOf t.ety) t.ernd [num t a, num t b] ((num t a).clash (num t b)) [(num t a).term.times (num t b).term] r) ∧
  (Computes (.fma d a b) fun t i v fl => Flagged t i v fl fun a b _ d r =>
    SumsTo (fmtOf t.ety) t.ernd [num t a, num t b, num t d] ((num t a).clash (num t b))
      [(num t d).term, (num t a).term.times (num t b).term] r) ∧
  (Computes (.fnma d a b) fun t i v fl => Flagged t i v fl fun a b _ d r =>
    SumsTo (fmtOf t.ety) t.ernd [num t a, num t b, num t d] ((num t a).clash (num t b))
      [(num t d).term, ((num t a).term.times (num t b).term).flip] r) ∧
  (Computes (.fdiv d a b) fun t i v fl => Flagged t i v fl fun a b _ _ r =>
    DividesTo (fmtOf t.ety) t.ernd (num t a) (num t b) r) ∧
  (Computes (.fsqrt d a) fun t i v fl => Flagged t i v fl fun a _ _ _ r => RootsTo (fmtOf t.ety) t.ernd false (num t a) r) ∧
  (Computes (.fmin d a b) fun t i v fl => Flagged t i v fl fun a b _ _ r => PicksTo (fmtOf t.ety) false a b r) ∧
  (Computes (.fmax d a b) fun t i v fl => Flagged t i v fl fun a b _ _ r => PicksTo (fmtOf t.ety) true a b r)) ∧
  (∀ d a, let num := fun (t : Seat) a => decodeF (fmtOf t.ety) a
  (Computes (.frsq d a) fun t i v fl => Flagged t i v fl fun a _ _ _ r => RootsTo (fmtOf t.ety) 0 true (num t a) r) ∧
  (Computes (.fexp2 d a) fun t i v fl => Flagged t i v fl fun a _ _ _ r => Exp2To (fmtOf t.ety) (num t a) r) ∧
  (Computes (.flog2 d a) fun t i v fl => Flagged t i v fl fun a _ _ _ r => Log2To (fmtOf t.ety) (num t a) r) ∧
  (Computes (.ftanh d a) fun t i v fl => Flagged t i v fl fun a _ _ _ r => TanhTo (fmtOf t.ety) (num t a) r) ∧
  (Computes (.fsigm d a) fun t i v fl => Flagged t i v fl fun a _ _ _ r => SigmTo (fmtOf t.ety) (num t a) r)) ∧
  (∀ d a,
  (Computes (.fneg d a) fun t i v fl => fl = 0 ∧ Elements t i v fun a _ _ _ x =>
    let w := tyBits t.ety
    if isIeee t.ety then x = a ^^^ 2 ^ (w - 1) else (x + a) % 2 ^ w = 0) ∧
  (Computes (.fabs d a) fun t i v fl => fl = 0 ∧ Elements t i v fun a _ _ _ x =>
    let w := tyBits t.ety
    if a < 2 ^ (w - 1) then x = a
    else if isIeee t.ety then x + 2 ^ (w - 1) = a else x + a = 2 ^ w) ∧
  (Computes (.fclass d a) fun t i v fl => fl = 0 ∧ Elements t i v fun a _ _ _ x =>
    x = (decodeF (fmtOf t.ety) a).classBits (fmtOf t.ety)))

/-! ### Control (12) -/

/-- 12 R298, R303; 02 R45, R58; 14 R345: where each branch goes, and what it writes; a branch not taken leaves the
latches, and so does one taken to the next bundle; a transfer through a register to an address that names no bundle
raises LANDING with that address, and writes no link. -/
def Obligations.Branches : Prop :=
  (∀ s : State,
  (∀ o, CtlReady s [] [] → Jumps (.bra o) s s.now (s.branchTo o)) ∧
  (∀ c o, CtlReady s [cReg c] [] → let v := s.scalar s.now (cReg c)
    (v = 0 → Jumps (.bz c o) s s.now (s.branchTo o) ∧ Moves (.bnz c o) s s.now.advance) ∧
    (v ≠ 0 → Jumps (.bnz c o) s s.now (s.branchTo o) ∧ Moves (.bz c o) s s.now.advance) ∧
    (v ≠ 1 → Jumps (.loop c o) s (s.now.putS c.toNat (v - 1)) (s.branchTo o)) ∧
    (v = 1 → Moves (.loop c o) s (s.now.putS c.toNat 0).advance)) ∧
  (∀ o, CtlReady s [] [] → Jumps (.call o) s (s.now.putS 30 (s.now.pc + 16)) (s.branchTo o)) ∧
  (∀ a, CtlReady s [a] [] → let v := s.scalar s.now a
    v &&& 15 = 0 →
      Jumps (.jmp a) s s.now v ∧ Jumps (.ret a) s s.now v ∧ Jumps (.callr a) s (s.now.putS 30 (s.now.pc + 16)) v)) ∧
  (∀ s a, CtlReady s [a] [] → s.scalar s.now a &&& 15 ≠ 0 →
  ∀ i ∈ [Instr.jmp a, .ret a, .callr a], Traps i s { code := 0x04, addr := s.scalar s.now a })

/-- 12 R299, R300, R297; 02 R58: BRD and BRDN split the path by a mask, the taken lanes running first, without their
latches, and the others waiting in a DIV entry at the next bundle; JSET notes a join; a seventeenth entry is not pushed.
12 R301, R302: JOIN passes DIV entries without live lanes; at one with live lanes it runs those from where they wait, and a
JOIN entry it pops; where neither comes before a BASE or PRED entry it traps. And the unwinding: a row runs on under a top
entry that has live lanes, or that is BASE or PRED; or it goes to the join, or to the sibling path whose lanes live, which it
starts without its latches. m0, from which the path lanes are read, must be sound as the mask must (log 41). -/
def Obligations.PathsPartAndJoin : Prop :=
  (∀ s (m : BitVec 3) o, CtlReady s [] [0, m.toNat] →
    (∀ i c, (i, c) ∈ [(Instr.brd m o, s.now.mr m.toNat), (.brdn m o, ~~~s.now.mr m.toNat)] →
      let t := s.now.path &&& c
      let n := s.now.path &&& ~~~c
      (t = 0 → Moves i s s.now.advance) ∧
      (t ≠ 0 → n = 0 → Jumps i s s.now (s.branchTo o)) ∧
      (t ≠ 0 → n ≠ 0 → s.now.stack.length < 16 →
        Splits i s { s.now with stack := { kind := .div, mask := t, alt := n, tgt := s.now.pc + 16 } :: s.now.stack }
          (s.branchTo o)) ∧
      (t ≠ 0 → n ≠ 0 → 16 ≤ s.now.stack.length → Traps i s { code := 0x07 })) ∧
    (s.now.stack.length < 16 → Moves (.jset o) s
      { s.now with stack := { kind := .join, mask := s.now.path, tgt := s.branchTo o } :: s.now.stack }.advance) ∧
    (16 ≤ s.now.stack.length → Traps (.jset o) s { code := 0x07 })) ∧
  (∀ s, CtlReady s [] [0] → ∀ ds rest,
  s.now.stack = ds ++ rest → (∀ e ∈ ds, e.kind = .div ∧ e.alt &&& s.now.live = 0) →
  (∀ e below, rest = e :: below → e.kind = .div → e.alt &&& s.now.live ≠ 0 →
    Splits .join s { s.now with stack := { e with mask := e.alt &&& s.now.live, alt := 0 } :: below } e.tgt) ∧
  (∀ e below, rest = e :: below → e.kind = .join → Settles .join s { s.now.dropLatches with stack := below } true) ∧
  ((∀ e below, rest = e :: below → e.kind = .base ∨ e.kind = .pred) → Traps .join s { code := 0x08 })) ∧
  (∀ t : Seat, (∃ e ∈ t.stack, e.kind = .base ∨ e.kind = .pred) →
  ∃ ds e rest, t.stack = ds ++ e :: rest ∧ (∀ d ∈ ds, d.kind = .div ∧ d.mask &&& t.live = 0 ∧ d.alt &&& t.live = 0) ∧
    ((e.mask &&& t.live ≠ 0 ∨ e.kind = .base ∨ e.kind = .pred) ∧ t.settle = { t with stack := e :: rest }.advance ∨
      e.mask &&& t.live = 0 ∧ e.kind = .join ∧ t.settle = { t with stack := e :: rest }.jump e.tgt ∨
      e.mask &&& t.live = 0 ∧ e.kind = .div ∧ e.alt &&& t.live ≠ 0 ∧
        t.settle = { t.dropLatches with stack := { e with mask := e.alt &&& t.live, alt := 0 } :: rest }.jump e.tgt))

/-- 12 R308, R302, R297: the predication instructions, and where each traps. 12 R304: JMPV sends each path lane to its
own target: the groups by target in rising order, the lowest running first, without its latches where there are several;
a bad target traps before any lane moves. A source in broadcast form, or zero, gives every lane the same target (log
35); m0 is read for the path (log 41). -/
def Obligations.PredicationAndJumps : Prop :=
  (∀ s,
  (∀ m : BitVec 3, CtlReady s [] [0, m.toNat] →
    ∀ i k, (i, k) ∈ [(Instr.pushp m, s.now.path &&& s.now.mr m.toNat), (.pushpn m, s.now.path &&& ~~~s.now.mr m.toNat),
      (.pushm m, s.now.live &&& s.now.mr m.toNat)] →
    (s.now.stack.length < 16 → Moves i s { s.now with stack := { kind := .pred, mask := k } :: s.now.stack }.advance) ∧
    (16 ≤ s.now.stack.length → Traps i s { code := 0x07 })) ∧
  (CtlReady s [] [0] →
    (∀ e below rest, s.now.stack = e :: below :: rest → e.kind = .pred →
      Moves .invp s { s.now with stack :=
        { e with mask := below.mask &&& s.now.live &&& ~~~e.mask } :: below :: rest }.advance ∧
      Settles .popp s { s.now with stack := below :: rest } false) ∧
    (∀ e rest, s.now.stack = e :: rest → e.kind ≠ .pred →
      Traps .invp s { code := 0x08 } ∧ Traps .popp s { code := 0x08 }))) ∧
  (∀ s a,
  let t := s.now
  let v : Nat → Word := fun l => s.srcLane t false (vrep 64 0) 0 a l
  t.resident = true → a.isPort = false → (a.l && a.n == 6) = false →
  t.check s.cur false false false false [(a, t.path)] (masks := [0]) = .ok () →
  ((∃ l, t.path.getLsbD l = true ∧ (v l &&& 15 ≠ 0 ∨ v l >>> 52 ≠ 0)) →
    ∃ l, t.path.getLsbD l = true ∧ (v l &&& 15 ≠ 0 ∨ v l >>> 52 ≠ 0) ∧
      (∀ k, k < l → t.path.getLsbD k = true → v k &&& 15 = 0 ∧ v k >>> 52 = 0) ∧
      ∃ bad, Traps (.jmpv a) s { code := 0x13, lanes := bad, addr := v l } ∧
        ∀ k, k < 64 → bad.getLsbD k = (t.path.getLsbD k && (v k &&& 15 != 0 || v k >>> 52 != 0))) ∧
  ((∀ l, t.path.getLsbD l = true → v l &&& 15 = 0 ∧ v l >>> 52 = 0) →
    (t.path = 0 → Moves (.jmpv a) s t.advance) ∧
    ∀ us : List Nat, us.Pairwise (· < ·) → (∀ u, u ∈ us ↔ ∃ l, t.path.getLsbD l = true ∧ (v l).toNat = u) →
      (t.stack.length ≤ 16 → 17 - t.stack.length < us.length → Traps (.jmpv a) s { code := 0x07, aux := us.length }) ∧
      (us.length ≤ 17 - t.stack.length → ∀ u0 more, us = u0 :: more → ∃ es : List MaskEntry,
        Lands (.jmpv a) s { t with stack := es ++ t.stack } (BitVec.ofNat 64 u0) (!more.isEmpty) ∧
        es.length = more.length ∧ ∀ k, k < more.length →
          let e := es.getD k { kind := .base, mask := 0 }
          e.kind = .div ∧ e.tgt = BitVec.ofNat 64 (more.getD k 0) ∧
          (∀ l, l < 64 → e.mask.getLsbD l = (t.path.getLsbD l && (v l).toNat == us.getD k 0)) ∧
          (∀ l, l < 64 → e.alt.getLsbD l = (t.path.getLsbD l && (v l).toNat == more.getD k 0)))))

/-- 12 R309, R310: the mask registers written whole, whatever the mask, m0 being no destination; and the scalars
computed from a mask register, written and latched; those that take the governing mask read the masks it stands on (log
41). 05 R131: CMPM sets a mask bit of each active lane in which some
element, or every element, stands in the relation, of IEEE elements as values; the other bits stay, or clear under
MODE.ZERO. -/
def Obligations.MaskRegisters : Prop :=
  ((∀ s (d a b : BitVec 3), d ≠ 0 →
  (CtlReady s [] (s.now.guardMask ++ [0]) → Moves (.mset d 0) s (s.now.putM d.toNat s.now.gov).advance) ∧
  (CtlReady s [] [0] → Moves (.mset d 1) s (s.now.putM d.toNat s.now.path).advance ∧
    Moves (.mset d 3) s (s.now.putM d.toNat s.now.live).advance) ∧
  (CtlReady s [] [] → Moves (.mset d 2) s (s.now.putM d.toNat 0).advance) ∧
  (CtlReady s [] [a.toNat, b.toNat] → let x := s.now.mr a.toNat
    let y := s.now.mr b.toNat
    Moves (.mlog d a b 0) s (s.now.putM d.toNat (x &&& y)).advance ∧
    Moves (.mlog d a b 1) s (s.now.putM d.toNat (x ||| y)).advance ∧
    Moves (.mlog d a b 2) s (s.now.putM d.toNat (x ^^^ y)).advance ∧
    Moves (.mlog d a b 3) s (s.now.putM d.toNat (x &&& ~~~y)).advance) ∧
  (CtlReady s [] [a.toNat] → Moves (.mlog d a 0 4) s (s.now.putM d.toNat (~~~s.now.mr a.toNat)).advance) ∧
  (∀ c, CtlReady s [c] [] → Moves (.stom d c) s (s.now.putM d.toNat (s.scalar s.now c)).advance)) ∧
  (∀ s d (a : BitVec 3), CtlReady s [] [a.toNat] → let m := s.now.mr a.toNat
  Writes (.mcnt d a) s d (BitVec.ofNat 64 ((List.range 64).countP m.getLsbD)) ∧
  (∃ k : Nat, Writes (.mfst d a) s d (BitVec.ofNat 64 k) ∧ (∀ l, l < k → m.getLsbD l = false) ∧
    (m = 0 ∧ k = 64 ∨ k < 64 ∧ m.getLsbD k = true)) ∧
  Writes (.mtos d a) s d m ∧
  (CtlReady s [] (s.now.guardMask ++ [a.toNat]) →
    Writes (.many d a) s d (if m &&& s.now.gov = 0 then 0 else 1) ∧
    Writes (.mall d a) s d (if s.now.gov &&& m = s.now.gov then 1 else 0)))) ∧
  (∀ (s : State) (d : BitVec 3) a b (f : BitVec 4) e r, s.now.uniform = false → d ≠ 0 →
  f.toNat % 8 ≠ 7 → LaneReady s { d := ⟨true, 0⟩, a := some a, b := some b, badType := cmpTy s.now } e r →
  let t := s.now
  let i := s.laneIn t { d := ⟨true, 0⟩, a := some a, b := some b, badType := cmpTy s.now } e.v
  ∃ u m fl, exec (.cmpm d a b f) s = .next u ∧ Slot r u ((t.putM d.toNat m).orFlags fl).advance ∧ LatchesKept s u ∧
    (∀ l, l < 64 → t.gov.getLsbD l = false → m.getLsbD l = (!t.zeroBit && (t.mr d.toNat).getLsbD l)) ∧
    (isIeee t.ety = false → fl = 0 ∧ ∀ l, t.gov.getLsbD l = true →
      let rel := fun k => t.relates (f.toNat % 8) (elem (tyBits t.ety) (vget 0 i.a l) k) (elem (tyBits t.ety) (vget 0 i.b l) k)
      (m.getLsbD l = true ↔ if f.toNat < 8 then ∃ k, k < 64 / tyBits t.ety ∧ rel k else ∀ k, k < 64 / tyBits t.ety → rel k)) ∧
    (isIeee t.ety = true →
      let rel := fun l k => Val.relates (f.toNat % 8) (decodeF (fmtOf t.ety) (elem (tyBits t.ety) (vget 0 i.a l) k))
        (decodeF (fmtOf t.ety) (elem (tyBits t.ety) (vget 0 i.b l) k))
      (∀ l, t.gov.getLsbD l = true → (m.getLsbD l = true ↔ if f.toNat < 8 then ∃ k, k < 64 / tyBits t.ety ∧ (rel l k).1 = true
        else ∀ k, k < 64 / tyBits t.ety → (rel l k).1 = true)) ∧
      Raised fl t.gov (64 / tyBits t.ety) fun l k => (rel l k).2))

/-- 12 R305, R295; log 41: EXIT ends the active lanes and writes nothing else; with lanes left the row goes on as 12 R302 has
it; with none left it has exited, once its matrix work is done. -/
def Obligations.ExitEndsLanes : Prop := ∀ s, CtlReady s [] s.now.guardMask →
  (s.now.gov = 0 → Moves .exit s s.now.advance) ∧
  (s.now.gov ≠ 0 → let w := { s.now with exited := s.now.exited ||| s.now.gov }
    (w.live ≠ 0 → Settles .exit s w false) ∧
    (w.live = 0 → s.matBusy s.cur = true → exec .exit s = .next { s with stalled := true }) ∧
    (w.live = 0 → s.matBusy s.cur = false → ∃ u, exec .exit s = .next u ∧ u.now.status = .exited ∧
      u.now.exited = w.exited ∧ u.now.x = s.now.x ∧ u.now.s = s.now.s ∧ SameBytes s u ∧
      ∀ k, k ≠ s.cur → u.seat k = s.seat k))

/-- 12 R318, R319; 02 R46, R58, R60, R65, R66; 11 R281: YIELD parks with its slot done; SLEEPT parks until TIME has
come to its operand, and completes at once where it has; both invalidate the latches. A NOP changes nothing but the
slot; a prefix waits for its target. 09 R246, R247; 08 R213 to R216, R208, R231: TIME and CLKC are read; IFENCE
empties the core's instruction cache; a release stalls until the row's contributions are in, its tail sink has made its
stores and, at a lease scope, TIME is 4 ns past its last write completion; an acquire at a lease scope empties the core's
line cache, and (the model's reading of 08 R211: log 98) the seat takes over its core's write completion time. -/
def Obligations.WaitsAndFences : Prop :=
  ((∀ s,
  (CtlReady s [] [] → Parks .yield s
    { s.now.advance with status := .parked (.yield (s.core (s.cur / 256)).clkc), skip := 0 }) ∧
  (∀ a, CtlReady s [a] [] → let v := s.scalar s.now a
    (v.toNat ≤ s.time.toNat → Parks (.sleept a) s s.now.advance) ∧
    (s.time.toNat < v.toNat → ∃ u, exec (.sleept a) s = .next u ∧ u.now.status = .parked (.sleep v) ∧
      LatchesGone u ∧ u.now.pc = s.now.pc ∧ u.now.slot = s.now.slot ∧ u.now.x = s.now.x ∧ u.now.s = s.now.s))) ∧
  (∀ s, s.now.resident = true →
  Moves .nop s s.now.advance ∧
  (∀ n, Moves (.ximm n) s { s.now with pximm := some n, slot := s.now.slot + 1
                                       pslot := if s.now.pslot = 0 then s.now.slot else s.now.pslot }) ∧
  (∀ q sc e et r z k, ∃ m : BitVec 24, Moves (.mod q sc e et r z k) s
      { s.now with pmod := some m, slot := s.now.slot + 1
                   pslot := if s.now.pslot = 0 then s.now.slot else s.now.pslot } ∧
    m.extractLsb' 23 1 = q ∧ m.extractLsb' 16 7 = sc ∧ m.extractLsb' 15 1 = e ∧ m.extractLsb' 11 4 = et ∧
    m.extractLsb' 8 3 = r ∧ m.extractLsb' 6 2 = z ∧ m.extractLsb' 3 3 = k ∧ m.extractLsb' 0 3 = 0))) ∧
  (∀ s : State, CtlReady s [] [] → s.cur < 16384 →
  let c := s.cur / 256
  (∀ d, Writes (.time d) s d s.time ∧ Writes (.clkc d) s d (BitVec.ofNat 64 (s.core c).clkc)) ∧
  (∃ u, exec .ifence s = .next u ∧ LatchesKept s u ∧ Slot { s with cores := u.cores } u s.now.advance ∧
    u.core c = { s.core c with icache := [] } ∧ ∀ k, k ≠ c → u.core k = s.core k) ∧
  (∀ f : BitVec 3, f.toNat < 6 →
    let lease := f = 4 ∨ f = 5 ∨ f = 1 ∧ 64 < s.now.bind.slen ∨ f = 3 ∧ ∃ l, s.launchOf s.now = some l ∧ 1 < l.rigw * l.righ
    let done := (∀ x ∈ s.contribs, x.sid ≠ some s.cur) ∧ s.sinkLeft s.cur s.now = [] ∧ (lease → ∀ g, s.now.gwct = some g → g + 4 ≤ s.time.toNat)
    (done → Moves (.frel f) s s.now.advance) ∧
    (¬done → ∀ i ∈ [Instr.frel f, .ffull f], exec i s = .next { s with stalled := true }) ∧
    (∀ i, i = .facq f ∨ i = .ffull f ∧ done → ∃ u, exec i s = .next u ∧ LatchesKept s u ∧
      Slot { s with cores := u.cores } u { s.now with gwct := laterGwct (s.core c).gwct s.now.gwct }.advance ∧
      (∀ k, k ≠ c → u.core k = s.core k) ∧
      (lease → u.core c = { s.core c with lcache := [] }) ∧ (¬lease → u.core c = s.core c))))


/-! ### Traps and system instructions (14) -/

/-- 14 R340, R343, R344: a trap at user level is taken in one step; only the trap CSRs, MODE's fields but ABASE, the
latches and the program counter change; BP stands in TPC beside BRKB alone (log 14). 14 R341; 13 R331, R332: a trap at
handler level freezes the seat, its trap CSRs keeping the first trap's values, with a record of CODE 0x3F, whose PC
holds the handler's slot beside its bundle, as TPC does (log 34); the ring holds 64 unread records, and LOST counts the
others. -/
def Obligations.TrapEntry : Prop :=
  (∀ (s : State) (r : Trap), s.now.resident = true → s.now.hl = false → r.resume = none →
  let u := s.raise s.cur r
  let first := if s.now.pslot = 0 then s.now.slot else s.now.pslot
  let slot := r.slot.getD s.now.slot
  u = { s with seats := u.seats } ∧ (∀ k, k ≠ s.cur → u.seat k = s.seat k) ∧
  u.now = { s.now.leave with
    pc := s.now.tvec &&& ~~~15#64, slot := 1, status := .ready, hl := true
    tpc := (s.now.pc &&& ~~~15#64) ||| BitVec.ofNat 64 ((s.now.brkbPassed && s.now.brkb).toNat * 4 + first)
    tcause := BitVec.ofNat 64 r.code, tinfol := r.lanes, tinfod := u.now.tinfod, taddr := r.addr
    shadow := s.now.lat, shpois := s.now.latpois, lat := vrep 4 .invalid, latpois := vrep 4 0
    tmode := s.now.mode, mode := 0x0009#16 ||| (s.now.mode &&& 0x3000#16) } ∧
  (let d := u.now.tinfod
   d.extractLsb' 24 40 = 0 ∧ (d.extractLsb' 16 8).toNat = r.aux % 256 ∧ (d.extractLsb' 12 4).toNat = r.k % 16 ∧
   d.getLsbD 11 = r.south ∧ d.getLsbD 10 = r.nottail ∧ d.getLsbD 9 = r.write ∧ d.getLsbD 8 = r.peer ∧
   d.getLsbD 7 = r.sreg ∧ (d.extractLsb' 2 5).toNat = r.reg % 32 ∧ (d.extractLsb' 0 2).toNat = slot % 4)) ∧
  (∀ (s : State) (r : Trap), s.now.resident = true → s.now.hl = true →
  s.now.bind.part < 8 →
  let u := s.raise s.cur r
  let p := s.part s.now.bind.part
  let rec' : VioRec := { code := 0x3F, mkind := 0, codes := 0, mid := seatMid s.cur, owner := s.now.bind.lid
                         pc := s.now.pc ||| BitVec.ofNat 64 (r.slot.getD s.now.slot), addr := BitVec.ofNat 64 r.code, lanes := r.lanes, time := s.time
                         slot := r.slot.getD s.now.slot, lvl := true }
  u = { s with seats := u.seats, parts := u.parts } ∧ u.now = { s.now with status := .frozen, brkbSkip := false } ∧
  (∀ k, k ≠ s.cur → u.seat k = s.seat k) ∧ (∀ q, q ≠ s.now.bind.part → u.part q = s.part q) ∧
  u.part s.now.bind.part =
    if p.vring.length < 64 then { p with vring := p.vring ++ [rec'], vhead := p.vhead + 1 }
    else { p with vlost := p.vlost + 1 })

/-- 14 R350, R343; 02 R47: RETT at handler level brings back MODE and the latches, and the row resumes at TPC. 12
R306; 14 R340, R345, R350: BRK k and TRAP k, a raise their traps, with K, and for TRAP with a as the address; at user
level BRK's TPC names BRK itself (or its first prefix), and TRAP's the slot after it. -/
def Obligations.TrapsAndReturns : Prop :=
  (∀ s : State, CtlReady s [] [] → s.now.hl = true →
  ∃ u, exec .rett s = .next u ∧ u.now.lat = s.now.shadow ∧ u.now.latpois = s.now.shpois ∧
    let k := (s.now.tpc.extractLsb' 0 2).toNat
    Slot s u { s.now.leave with
      mode := s.now.tmode, hl := false, pc := s.now.tpc &&& ~~~15#64, slot := max 1 k
      brkbSkip := decide (k ≤ 1) && s.now.tpc.getLsbD 2 }) ∧
  (∀ (s : State) (k : BitVec 4),
  (CtlReady s [] [] → Traps (.brk k) s { code := 0x09, k := k.toNat } ∧
    (s.now.hl = false → ∃ u, exec (.brk k) s = .next u ∧ u.now.hl = true ∧ u.now.tcause = 9 ∧
      u.now.tinfod.extractLsb' 12 4 = k ∧ u.now.pc = s.now.tvec &&& ~~~15#64 ∧ u.now.slot = 1 ∧
      u.now.x = s.now.x ∧ u.now.s = s.now.s ∧ u.now.m = s.now.m ∧ u.now.stack = s.now.stack ∧ SameBytes s u)) ∧
  (∀ a, CtlReady s [a] [] → s.now.hl = false → ∃ u, exec (.trap a k) s = .next u ∧ u.now.hl = true ∧
    u.now.tcause = 10 ∧ u.now.taddr = s.scalar s.now a ∧ u.now.tinfod.extractLsb' 12 4 = k ∧
    u.now.pc = s.now.tvec &&& ~~~15#64 ∧ u.now.slot = 1 ∧
    (s.now.slot < 3 → s.now.pc &&& 15 = 0 → u.now.tpc &&& ~~~4#64 = s.now.pc + BitVec.ofNat 64 (s.now.slot + 1)) ∧
    (s.now.slot = 3 → s.now.pc &&& 15 = 0 → u.now.tpc = s.now.pc + 17) ∧
    u.now.x = s.now.x ∧ u.now.s = s.now.s ∧ u.now.m = s.now.m ∧ u.now.stack = s.now.stack ∧ SameBytes s u))

/-- 14 R347, R348; 13 R329, R331; 02 R63, R64: what is open at handler level only freezes a seat at user level with
PRIV_INSTR; MODE is read and written whole; a reserved RND, an ABASE outside the allocation and a reserved ETYPE are
refused, in that order, and nothing is written. -/
def Obligations.PrivilegeAndMode : Prop :=
  (∀ s : State, s.now.hl = false → s.now.bind.part < 8 →
  ∀ i srcs, (i, srcs) ∈ ([(Instr.rett, [])] : List (Instr × List Src)) ∨
    (∃ a, (i, srcs) ∈ [(Instr.mspill a, [a]), (.ctxsv a, [a]), (.ctxld a, [a])]) ∨
    (∃ a n, i = .mfill a n ∧ srcs = [a]) ∨
    (∃ d c, i = .csrr d c ∧ srcs = [] ∧ 0x10 ≤ c.toNat ∧ c.toNat ≤ 0x1C) ∨
    (∃ c b, i = .csrw c b ∧ srcs = [b] ∧ 0x10 ≤ c.toNat ∧ c.toNat ≤ 0x1C) →
  CtlReady s srcs [] → ∃ u, exec i s = .next u ∧ u = { s with seats := u.seats, parts := u.parts } ∧
    u.now = { s.now with status := .frozen, brkbSkip := false } ∧
    ((s.part s.now.bind.part).vring.length < 64 → ∃ r, (u.part s.now.bind.part).vring = (s.part s.now.bind.part).vring ++ [r] ∧
      r.code = 0x43 ∧ r.codes = 8 ∧ r.mkind = 0 ∧ r.mid = seatMid s.cur ∧ r.pc = s.now.pc ∧ r.slot = s.now.slot ∧
      r.lvl = false ∧ r.time = s.time)) ∧
  (∀ s : State, CtlReady s [] [] →
  (∀ d, Writes (.getmode d) s d (s.now.mode.setWidth 64)) ∧
  (∀ m : BitVec 16, let ok := (m.extractLsb' 4 3).toNat < 5 ∧ s.now.ablk ≤ (m.extractLsb' 12 2).toNat ∧
      (m.extractLsb' 12 2).toNat < s.now.ablk + s.now.nblk
    (ok → (m.extractLsb' 0 4).toNat < 14 → Moves (.setmode m) s { s.now with mode := m }.advance) ∧
    (¬ok → Traps (.setmode m) s { code := 0x01 }) ∧
    (ok → 14 ≤ (m.extractLsb' 0 4).toNat → Traps (.setmode m) s { code := 0x03 })))

/-- 14 R342, R343, R348, R349: what each CSR reads as, at handler level (those below 0x10 read the same at user
level), and what a write of each leaves, its low bits where it is narrower; the read-only ones ignore it. -/
def Obligations.ControlRegisters : Prop :=
  (∀ (s : State) (d : Dst), CtlReady s [] [] →
  (Writes (.csrr d 0x00) s d (s.now.fstat.setWidth 64) ∧ Writes (.csrr d 0x02) s d (s.now.mode.setWidth 64) ∧
    Writes (.csrr d 0x03) s d (s.now.batch.setWidth 64) ∧
    Writes (.csrr d 0x05) s d (BitVec.ofNat 64 s.now.stack.length) ∧
    Writes (.csrr d 0x01) s d (s.speed (s.cur / 256)) ∧ Writes (.csrr d 0x04) s d (s.now.mfl.setWidth 64)) ∧
  (s.now.hl = true → Writes (.csrr d 0x10) s d s.now.tvec ∧ Writes (.csrr d 0x11) s d s.now.tpc ∧
    Writes (.csrr d 0x12) s d s.now.tcause ∧ Writes (.csrr d 0x13) s d s.now.tinfol ∧
    Writes (.csrr d 0x14) s d s.now.tinfod ∧ Writes (.csrr d 0x15) s d s.now.taddr ∧
    Writes (.csrr d 0x16) s d (s.now.tmode.setWidth 64) ∧ Writes (.csrr d 0x18) s d 1 ∧
    (∀ k : Fin 4, Writes (.csrr d (BitVec.ofNat 7 (0x19 + k))) s d (vget 0 s.now.hs k)) ∧
    ∃ v : Word, Writes (.csrr d 0x17) s d v ∧ v >>> 8 = 0 ∧ ∀ k : Fin 4,
      (v.getLsbD k = true ↔ vget .invalid s.now.shadow k ≠ .invalid) ∧
      (v.getLsbD (k + 4) = true ↔ ∃ w, vget .invalid s.now.shadow k = .scalar w))) ∧
  (∀ (s : State) (b : Src), CtlReady s [b] [] → let v := s.scalar s.now b
  (Moves (.csrw 0x00 b) s { s.now with fstat := v.setWidth 6 }.advance ∧
    ∀ c ∈ ([0x01, 0x03, 0x04, 0x05] : List (BitVec 7)), Moves (.csrw c b) s s.now.advance) ∧
  (v >>> 16 = 0 → s.now.modeBad (v.setWidth 16) = none →
    Moves (.csrw 0x02 b) s { s.now with mode := v.setWidth 16 }.advance ∧
    (s.now.hl = true → Moves (.csrw 0x16 b) s { s.now with tmode := v.setWidth 16 }.advance)) ∧
  (s.now.hl = true →
    Moves (.csrw 0x10 b) s { s.now with tvec := v &&& ~~~15#64 }.advance ∧
    Moves (.csrw 0x11 b) s { s.now with
      tpc := if v &&& 3 = 0 then (v &&& ~~~11#64) ||| 1 else v &&& ~~~8#64 }.advance ∧
    Moves (.csrw 0x12 b) s { s.now with tcause := v &&& 0xFF }.advance ∧
    Moves (.csrw 0x13 b) s { s.now with tinfol := v }.advance ∧
    Moves (.csrw 0x14 b) s { s.now with tinfod := v &&& 0xFFFFFF }.advance ∧
    Moves (.csrw 0x15 b) s { s.now with taddr := v }.advance ∧
    Moves (.csrw 0x18 b) s s.now.advance ∧
    (∀ k : Fin 4, Moves (.csrw (BitVec.ofNat 7 (0x19 + k)) b) s { s.now with hs := vset s.now.hs k v }.advance) ∧
    ∃ sh p, Moves (.csrw 0x17 b) s { s.now with shadow := sh, shpois := p }.advance ∧ ∀ k : Fin 4,
      let keeps := v.getLsbD k = true ∧ vget .invalid s.now.shadow k ≠ .invalid ∧
        (v.getLsbD (k + 4) = true ↔ ∃ w, vget .invalid s.now.shadow k = .scalar w)
      (v.getLsbD k = false → vget .invalid sh k = .invalid) ∧
      (v.getLsbD k = true → vget .invalid sh k ≠ .invalid ∧
        (v.getLsbD (k + 4) = true ↔ ∃ w, vget .invalid sh k = .scalar w)) ∧
      (keeps → vget .invalid sh k = vget .invalid s.now.shadow k ∧ vget 0 p k = vget 0 s.now.shpois k) ∧
      (¬keeps → vget 0 p k = 0)))


/-! ### Operands, checks and ports (02, 06) -/

/-- 02 R50; 14 R346: what a slot's checks raise, in their order, and where they raise nothing. That a lane slot reads m0 and
its guard, so that a poisoned one raises POISON, is the model's reading of R346 (log 41). -/
def Obligations.ChecksInOrder : Prop := ∀ (t : Seat) sid uni illegal badType port (srcs : List (Src × Word)),
  let a := illegal = true ∨ t.modIllegal = true ∨ ∃ x ∈ srcs, x.1.illegal uni = true
  let b := badType = true ∨ 14 ≤ t.ety.toNat
  let c := ∃ x ∈ srcs, ∃ k, x.1.latch = some k ∧ t.latchBad uni k = true
  let d := t.deadTrap = true ∧ ∃ x ∈ srcs, t.deadIn uni x.2 x.1 ≠ 0
  let e := (port = true ∨ ∃ x ∈ srcs, x.1.isPort = true) ∧ (sid % 4 ≠ 0 ∨ t.bind.ports = false)
  let f := (∃ x ∈ srcs, t.poisIn uni x.2 x.1 ≠ 0) ∨ uni = false ∧ ∃ n ∈ t.guardMask, t.mpois.getLsbD n = true
  let raises := fun code : Nat => ∃ r : Trap, t.check sid uni illegal badType port srcs = .error (.trap r) ∧ r.code = code
  (a → raises 0x01) ∧ (¬a → b → raises 0x03) ∧ (¬a → ¬b → c → raises 0x05) ∧ (¬a → ¬b → ¬c → d → raises 0x06) ∧
  (¬a → ¬b → ¬c → ¬d → e → raises 0x1C) ∧ (¬a → ¬b → ¬c → ¬d → ¬e → f → raises 0x18) ∧
  (¬a → ¬b → ¬c → ¬d → ¬e → ¬f → t.check sid uni illegal badType port srcs = .ok ())

/-- 02 R53, R57, R62; 00 R9: what a source code reads in each lane of a lane slot and in a uniform slot; a dead
register reads a free value, of which nothing is claimed; register 31 of either kind reads as zero and discards a
write. 02 R61, R62: after a lane instruction, a register is dead in a lane where it was, or where a source read it
with the last-use bit, and where the result has not been written since. -/
def Obligations.SourcesRead : Prop :=
  ((∀ (s : State) (t : Seat) (np : Lanes Word) k l (n : BitVec 5) lu, l < 64 →
  (n ≠ 31 → (vget 0 t.xdead n.toNat).getLsbD l = false →
    s.srcLane t false np k ⟨false, lu, n⟩ l = vget 0 (vget (vrep 64 0) t.x n.toNat) l) ∧
  (n ≠ 31 → t.sdead.getLsbD n.toNat = false → s.srcLane t true np k ⟨false, lu, n⟩ l = vget 0 t.s n.toNat) ∧
  (16 ≤ n.toNat → t.sdead.getLsbD (n.toNat - 16) = false → ∀ uni,
    s.srcLane t uni np k ⟨true, lu, n⟩ l = vget 0 t.s (n.toNat - 16)) ∧
  (n.toNat < 4 → ∀ v, vget .invalid t.lat n.toNat = .lane v → s.srcLane t false np k ⟨true, lu, n⟩ l = vget 0 v l) ∧
  (n.toNat < 4 → ∀ v uni, vget .invalid t.lat n.toNat = .scalar v → s.srcLane t uni np k ⟨true, lu, n⟩ l = v) ∧
  (n = 4 ∨ n = 5 → s.srcLane t false np k ⟨true, lu, n⟩ l = vget 0 np l) ∧
  (n = 6 → s.srcLane t false np k ⟨true, lu, n⟩ l = BitVec.ofNat 64 l)) ∧
  (∀ (s : State) (t : Seat) (np : Lanes Word) k l uni m v w,
  s.srcLane t uni np k ⟨false, false, 31⟩ l = 0 ∧ t.putX 31 m v = t ∧ t.putS 31 w = t)) ∧
  (∀ i (s : State) o e r, laneOp i s.now = some o → LaneReady s o e r → RegDst s o →
  ∃ u, exec i s = .next u ∧
  (∀ n l, n < 31 → l < 64 → (vget 0 u.now.xdead n).getLsbD l = (((vget 0 s.now.xdead n).getLsbD l ||
    (o.srcs s.now).any (fun a => a.lu && a.xreg s.now.uniform == some n) && s.now.act.getLsbD l) &&
    !(decide (o.d.dr.toNat = n) && !o.d.nw && !s.now.uniform && (s.now.ezero || s.now.gov.getLsbD l)))) ∧
  (∀ n, n < 31 → u.now.sdead.getLsbD n = ((s.now.sdead.getLsbD n ||
    (o.srcs s.now).any (fun a => a.lu && a.sreg s.now.uniform == some n)) &&
    !(decide (o.d.dr.toNat = n) && !o.d.nw && s.now.uniform))))

/-- 06 R168, R169, R171, R172; 02 R52; 07 R187: a lane instruction whose destination is the south port puts one entry at
the end of its FIFO: the result in the active lanes and zero in the others; it waits for room, and writes to a consumer
that has exited vanish. A tail's go to its sink: each active lane's eight bytes are stored at once where no other entry
waits and their lines are present, else when the entry's turn comes; a bad address freezes the seat, and a disabled
sink takes nothing. -/
def Obligations.SouthDestination : Prop := ∀ i (s : State) o e r, laneOp i s.now = some o → LaneReady s o e r →
  o.d.nw = false → s.now.uniform = false → o.d.dr = 31 →
  let row := r.row (s.cur / 4)
  (s.now.isTail = false →
  (row.consExited = false → row.severedS = false → row.south.length < 8 →
    ∃ u v fl, exec i s = .next u ∧ Latched s u (s.now.entry v) ∧ ∃ x : PortEntry,
      Slot (r.setRow (s.cur / 4) { row with south := row.south ++ [.filled x] }) u (s.now.orFlags fl).advance ∧
      u.rows = (r.setRow (s.cur / 4) { row with south := row.south ++ [.filled x] }).rows ∧
      x.act = s.now.gov ∧ (∀ l, l < 64 → vget 0 x.v l = if s.now.gov.getLsbD l then v l else 0) ∧ x.sink = none) ∧
  (row.consExited = true → ∃ u v fl, exec i s = .next u ∧ Slot r u (s.now.orFlags fl).advance ∧ Latched s u (s.now.entry v)) ∧
  (row.consExited = false → row.severedS = true → Traps i s { code := 0x1B, south := true }) ∧
  (row.consExited = false → row.severedS = false → 8 ≤ row.south.length →
    exec i s = .next { s with stalled := true })) ∧
  (s.now.isTail = true →
  let k := s.now.tail
  let ea := fun l : Nat => ((k.a.extractLsb' 0 32).toNat : Int) + k.i.toNat * (k.b.extractLsb' 0 32).toInt + 8 * l
  let lanes := (List.range 64).filter s.now.gov.getLsbD
  let ks := lanes.map fun l => (l, s.spadKeyOf (ea l))
  let done := fun fl : BitVec 6 => { s.now.orFlags fl with tail := { k with
    i := if (k.b.extractLsb' 32 16).toNat = 0 then k.i + 1
      else BitVec.ofNat 32 ((k.i.toNat + 1) % (k.b.extractLsb' 32 16).toNat) } }.advance
  let present := ∀ x ∈ ks, ∀ c ∈ linesOf x.2 8, s.isAbsent c = false
  (k.on = false → ∃ u v fl, exec i s = .next u ∧ Slot r u (s.now.orFlags fl).advance ∧ Latched s u (s.now.entry v)) ∧
  (k.on = true → (∃ l ∈ lanes, ∃ c, s.spadDecode (s.cur / 256) s.now (ea l) = .error c) →
    ∃ u, exec i s = .next u ∧ u = { s with seats := u.seats, parts := u.parts } ∧
      u.now = { s.now with status := .frozen, brkbSkip := false } ∧ ∀ j, j ≠ s.cur → u.seat j = s.seat j) ∧
  (k.on = true → (∀ l ∈ lanes, ∃ c, s.spadDecode (s.cur / 256) s.now (ea l) = .ok c) →
    (8 ≤ row.south.length → exec i s = .next { s with stalled := true }) ∧
    (row.south.length < 8 → row.south ≠ [] ∨ ¬present → ∃ u v fl, exec i s = .next u ∧ Latched s u (s.now.entry v) ∧
      ∃ x : PortEntry, Slot (r.setRow (s.cur / 4) { row with south := row.south ++ [.filled x] }) u (done fl) ∧
        u.rows = (r.setRow (s.cur / 4) { row with south := row.south ++ [.filled x] }).rows ∧
        x.act = s.now.gov ∧ (∀ l, l < 64 → vget 0 x.v l = if s.now.gov.getLsbD l then v l else 0) ∧ x.sink = some ks) ∧
    (row.south = [] → present → MemOk s → s.now.status ≠ .frozen → ∃ u v fl, exec i s = .next u ∧
      Latched s u (s.now.entry v) ∧ Slot { r with rows := u.rows, spad := u.spad, spois := u.spois } u (done fl) ∧
      (∀ j, u.row j = r.row j) ∧ u.spad.byte = storeAll 8 (ks.map fun x => (x.2, (v x.1).toNat)) s.spad.byte ∧
      LinesLeft s u 8 (ks.map fun x => x.2))))

/-! ### Across lanes (05 R145 to R152) -/

/-- 05 R145, R146, R148, R150, R151: what the instructions that move values between lanes write, and where. A source
register is read in the lanes that supply values alone (log 30), and an operand that is no register has its value in
every lane (log 74). -/
def Obligations.CrossLaneMoves : Prop := ∀ d a b,
  (∀ f : BitVec 4, f ≠ 4 → f.toNat < 8 → Crosses (.shfl d a b f)
    (fun _ => { d := d, a := some a, b := some b, q := true, elems := false })
    (fun t i => maskOf fun j => t.live.getLsbD j && (List.range 64).any fun l => t.gov.getLsbD l &&
      (shuffleFrom f.toNat (vget 0 i.b l).toNat l).getD (if i.q.isSome then 64 else l) == j)
    (fun t i v fl => fl = 0 ∧ ∀ l, t.gov.getLsbD l = true →
      v l = match shuffleFrom f.toNat (vget 0 i.b l).toNat l, i.q with
        | some j, _ => t.supplies i j
        | none, some q => vget 0 q l
        | none, none => vget 0 i.a l) (usualSeat d) usualLatch) ∧
  (Crosses (.bcast d a b) (fun t => { d := d, a := some a, b := some b, elems := false, once := true, illegal := !laneNo t b })
    (fun t i => maskOf fun j => t.live.getLsbD j && j == i.lane)
    (fun t i v fl => fl = 0 ∧ ∀ l, t.gov.getLsbD l = true → v l = t.supplies i i.lane) (usualSeat d) usualLatch) ∧
  (Crosses (.compact d a) (fun _ => { d := d, a := some a }) (fun t _ => t.gov)
    (fun t i v fl => fl = 0 ∧
      (∀ k, t.gov.getLsbD k = true → v ((List.range k).countP t.gov.getLsbD) = vget 0 i.a k) ∧
      ∀ l, (List.range 64).countP t.gov.getLsbD ≤ l → v l = 0)
    (fun t _ v => if d.nw then t else t.putX d.dr.toNat t.live v)
    (fun t _ v y => ∃ z, y = .lane z ∧ ∀ l, t.live.getLsbD l = true → vget 0 z l = v l)) ∧
  (Crosses (.xtos d a b)
    (fun t => { d := ⟨d.nw, 0⟩, a := some a, b := some b, elems := false, once := true, illegal := !laneNo t b })
    (fun t i => maskOf fun j => t.live.getLsbD j && j == i.lane)
    (fun t i v fl => fl = 0 ∧ v 0 = t.supplies i i.lane)
    (fun t _ v => if d.nw then t else t.putS d.dr.toNat (v 0)) (fun _ _ v y => y = .scalar (v 0))) ∧
  (Crosses (.stox d a b)
    (fun t => { d := d, a := some a, b := some b, elems := false, once := true, readsD := true, illegal := !laneNo t b })
    (fun t i => maskOf fun j => t.gov.getLsbD j && j == i.lane)
    (fun _ i v fl => fl = 0 ∧ v i.lane = vget 0 i.a i.lane)
    (fun t i v => if d.nw then t else t.putX d.dr.toNat (maskOf fun j => t.gov.getLsbD j && j == i.lane) v)
    (fun t i v y => ∃ z, y = .lane z ∧ (t.gov.getLsbD i.lane = true → vget 0 z i.lane = v i.lane) ∧
      ∀ l, l < 64 → l ≠ i.lane → d.dr ≠ 31 → (vget 0 t.xdead d.dr.toNat).getLsbD l = false →
        vget 0 z l = t.xr d.dr.toNat l))

/-- 05 R147, R149; 04 R103, R107, R108; 05 R122: butterflies, row sums and scans are the operations of the effective
type combined in a fixed tree, an inactive lane giving the operation's identity, with the flags of every combine;
integers that wrap give the plain sum of the active lanes. Lanes are read as logs 30 and 74 have it. -/
def Obligations.CrossLaneSums : Prop := ∀ d a,
  (∀ f : BitVec 4, f.toNat < 6 → Crosses (.bfly d a f) (fun t => { d := d, a := some a, badType := numTy t })
    (fun t _ => maskOf fun l => t.live.getLsbD l && (t.gov.getLsbD l || t.gov.getLsbD (l ^^^ 2 ^ f.toNat)))
    (fun t i v fl => (isInt t.ety = true → fl = 0 ∧ ∀ l, t.gov.getLsbD l = true → ∀ k, k < 64 / tyBits t.ety →
      let x := fun j => t.val (elem (tyBits t.ety) (t.supplies i j) k)
      elem (tyBits t.ety) (v l) k =
        t.narrowed (if l.testBit f.toNat then x (l ^^^ 2 ^ f.toNat) - x l else x l + x (l ^^^ 2 ^ f.toNat))) ∧
      ∃ fx, Raised fl t.gov (64 / tyBits t.ety) fx ∧ ∀ l, t.gov.getLsbD l = true → ∀ k, k < 64 / tyBits t.ety →
        let x := fun j => elem (tyBits t.ety) (t.supplies i j) k
        let p := l ^^^ 2 ^ f.toNat
        CombinesTo t (if l.testBit f.toNat then 6 else 0) (x (min l p)) (x (max l p)) (elem (tyBits t.ety) (v l) k, fx l k))
    (usualSeat d) usualLatch) ∧
  (∀ f : BitVec 3, f.toNat < 6 → Crosses (.redw d a f) (fun t => { d := d, a := some a, badType := treeTy f.toNat t })
    (fun t _ => t.gov)
    (fun t i v fl => (isInt t.ety = true → t.intSat = false → f = 0 → ∀ l, t.gov.getLsbD l = true →
      ∀ k, k < 64 / tyBits t.ety → elem (tyBits t.ety) (v l) k =
        (((List.range 64).filter t.gov.getLsbD).map fun j => elem (tyBits t.ety) (vget 0 i.a j) k).sum % 2 ^ tyBits t.ety) ∧
      Trees t f.toNat false i fl fun k out => ∀ l, t.gov.getLsbD l = true → elem (tyBits t.ety) (v l) k = out 0)
    (usualSeat d) usualLatch) ∧
  (∀ f : BitVec 4, f.toNat % 8 < 6 → Crosses (.scan d a f) (fun t => { d := d, a := some a, badType := treeTy (f.toNat % 8) t })
    (fun t _ => t.gov)
    (fun t i v fl => (isInt t.ety = true → t.intSat = false → f.toNat % 8 = 0 → ∀ l, t.gov.getLsbD l = true →
      ∀ k, k < 64 / tyBits t.ety → elem (tyBits t.ety) (v l) k =
        (((List.range (if f = 0 then l + 1 else l)).filter t.gov.getLsbD).map fun j =>
          elem (tyBits t.ety) (vget 0 i.a j) k).sum % 2 ^ tyBits t.ety) ∧
      Trees t (f.toNat % 8) true i fl fun k out => ∀ l, t.gov.getLsbD l = true → elem (tyBits t.ety) (v l) k =
        if f.toNat < 8 then out l else if l = 0 then t.unit (f.toNat % 8) else out (l - 1))
    (usualSeat d) usualLatch)

/-- 05 R139 to R144; 03 R90 to R95; 04 R103, R109 to R111: HAD and HADINV complete wherever their operands can be read,
s(N+1) among them, and write the active lanes, each element the one rounding of its transform; CVT, PACK and UNPK
convert each element, UNPK into xD and x(D+1); QCB finds the nearest codebook entry and DQCB copies entries; RAND
writes the keyed mix of its operands. A codebook entry that is a NaN counts as +0 in QCB's search: the model's reading of
03 R87 and R89 (log 27). -/
def Obligations.TransformsAndPairs : Prop :=
  (mix 0 0 = 0xE220A8397B1DCDAF ∧ mix 0 1 = 0x6E789E6AA1B965F4 ∧ ∀ key c : Word,
    let x := key + (c + 1) * 0x9E3779B97F4A7C15
    let y := (x ^^^ x >>> 30) * 0xBF58476D1CE4E5B9
    let z := (y ^^^ y >>> 27) * 0x94D049BB133111EB
    mix key c = z ^^^ z >>> 31) ∧
  (∀ d a b n, Src.bcast b = some n → ∀ i inv, (i, inv) ∈ [(Instr.had d a b, false), (.hadinv d a b, true)] →
  ∀ (s : State) e r, s.now.uniform = false → (d.nw = true ∨ d.dr ≠ 31) → isFloat s.now.ety = true →
    let t := s.now
    let o : LaneOp :=
      { d := d, a := some a, b := some b, badType := floatTy t, rd := some t.live, once := true, second := some (n + 1) }
    LaneReady s o e r → e.pois &&& t.live = 0 →
    ∃ u v fl, exec i s = .next u ∧ Slot r u ((t.result t d v).orFlags fl).advance ∧ Latched s u (t.entry v) ∧
      (t.sdead.getLsbD (n + 1) = false → let w := tyBits t.ety
        let operands := s.laneIn t o e.v
        let flips := fun j k => (mix (vget 0 operands.b 0) (t.sr (n + 1) + BitVec.ofNat 64 (j + 64 * k))).getLsbD 0
        ∃ fx, Raised fl t.gov (64 / w) fx ∧ ∀ l, t.gov.getLsbD l = true → ∀ k, k < 64 / w →
          let x := fun j => decodeF (fmtOf t.ety) (elem w (t.supplies operands j) k)
          SumsTo (fmtOf t.ety) t.ernd ((List.range 64).map x) false ((List.range 64).map fun j =>
            let y := (x j).term
            let odd := (List.range 6).countP (l &&& j).testBit % 2 == 1
            let z := if odd != flips (if inv then l else j) k then y.flip else y
            { z with q := z.q / 8 }) (elem w (v l) k, fx l k))) ∧
  (∀ (s : State) d a st e r, s.now.uniform = false → d.nw = false → d.dr.toNat < 30 →
  LaneReady s { d := d, a := some a, badType := packTy s.now.ety st } e r →
  let t := s.now
  let i := s.laneIn t { d := d, a := some a, badType := packTy s.now.ety st } e.v
  ∃ u lo hi fl, exec (.unpk d a st) s = .next u ∧ Latched s u (t.entry lo) ∧
    Slot r u (((t.result t d lo).result t ⟨false, d.dr + 1⟩ hi).orFlags fl).advance ∧
    (isInt st = true → isInt t.ety = true → fl = 0 ∧ ∀ l, t.gov.getLsbD l = true → ∀ k, k < 64 / tyBits t.ety →
      let w := tyBits t.ety
      let x := fun j => ival (isSigned st) (w / 2) (elem (w / 2) (vget 0 i.a l) j)
      elem w (lo l) k = t.narrowed (x k) ∧ elem w (hi l) k = t.narrowed (x (64 / w + k))) ∧
    let w := tyBits t.ety
    ∃ fx, Raised fl t.gov (2 * (64 / w)) fx ∧ ∀ l, t.gov.getLsbD l = true → ∀ k, k < 2 * (64 / w) →
      ConvertsTo st t.ety t.ernd t.satInf t.intSat (elem (w / 2) (vget 0 i.a l) k)
        (if k < 64 / w then elem w (lo l) k else elem w (hi l) (k - 64 / w), fx l k)) ∧
  (∀ d a b,
  (∀ st, Computes (.pack d a b st) fun t i v fl => let w := tyBits t.ety
    let n := 32 / w
    ∃ fx, Raised fl i.act (2 * n) fx ∧ ∀ l, i.act.getLsbD l = true → ∀ k, k < 2 * n →
      ConvertsTo st t.ety t.ernd t.satInf t.intSat
        (if k < n then elem (2 * w) (vget 0 i.a l) k else elem (2 * w) (vget 0 i.b l) (k - n)) (elem w (v l) k, fx l k)) ∧
  (∀ st, Computes (.cvt d a b st) fun t i v fl => let w := tyBits t.ety
    let ns := 64 / tyBits st
    let nt := 64 / w
    ∃ fx, Raised fl i.act nt fx ∧ ∀ l, i.act.getLsbD l = true →
      let o := (vget 0 i.b l).toNat % 64 % (max ns nt / min ns nt)
      let from' := fun j k => ConvertsTo st t.ety t.ernd t.satInf t.intSat (elem (tyBits st) (vget 0 i.a l) j)
        (elem w (v l) k, fx l k)
      ∀ k, k < nt → if nt = ns then from' k k else if nt < ns then from' (o * nt + k) k
        else if o * ns ≤ k ∧ k < o * ns + ns then from' (k - o * ns) k
        else elem w (v l) k = elem w (vget 0 i.d l) k ∧ fx l k = 0) ∧
  (∀ n : BitVec 2, let entry := fun (t : Seat) j => (vget 0 (vget (vrep 16 0) t.cb n.toNat) j).toNat
    (Computes (.qcb d a b n) fun t i v fl => ∃ fx, Raised fl i.act 2 fx ∧ ∀ l, i.act.getLsbD l = true →
      let o := (vget 0 i.b l).toNat % 8
      (∀ k, k < 2 → QuantisesTo (fun j => decodeF (.ieee 8) (entry t j)) (decodeF f32 (elem 32 (vget 0 i.a l) k))
        (elem 4 (v l) (2 * o + k), fx l k)) ∧
      ∀ k, k < 16 → k / 2 ≠ o → elem 4 (v l) k = elem 4 (vget 0 i.d l) k) ∧
    (Computes (.dqcb d a b n) fun t i v fl => fl = 0 ∧ ∀ l, i.act.getLsbD l = true → ∀ k, k < 4 →
      elem 16 (v l) k = entry t (elem 4 (vget 0 i.a l) (4 * ((vget 0 i.b l).toNat % 4) + k)))) ∧
  (Computes (.rand d a b) fun _ i v fl => fl = 0 ∧ ∀ l, i.act.getLsbD l = true →
    v l = mix (vget 0 i.a l) (vget 0 i.b l * 64 + BitVec.ofNat 64 l)))



/-! ### Scratchpad memory (07, 09) -/

/-- 09 R235, R236, R237, R239, R240; 07 R180, R187; 08 R205, R206; 02 R58: LDS reads each active lane's element at its
address, and the latches go; PRES tells of each active lane's line whether it is present and whether it is poisoned, and
enters the latches. STS writes each active lane's element, a higher lane's last; ABSENT marks lines absent and nothing else,
behind its row's sink stores to them; a line loses its poison mark only where all of it is stored, and then it does. -/
def Obligations.ScratchpadAccesses : Prop :=
  (∀ (s : State) d a b (f : BitVec 4) e r, s.now.takesF true f →
  LaneReady s (memOp d a b) e r → RegDst s (memOp d a b) →
  let t := s.now
  let i := s.laneIn t (memOp d a b) e.v
  let n := t.size f
  let ea := i.spadAddr (if f.getLsbD 3 then n else 1)
  (∀ l ∈ i.lanes, ∃ k, s.spadOk n n true (ea l) k) →
  ∃ u v, exec (.lds d a b f) s = .next u ∧ Slot r u (t.result t d v).advance ∧ LatchesGone u ∧
    ∀ l ∈ i.lanes, Loaded n (t.signed f) (fun j => s.spad.byte (s.spadKeyOf (ea l) + j)) (v l)) ∧
  (∀ (s : State) d a b e r, LaneReady s (memOp d a b) e r → RegDst s (memOp d a b) →
  let t := s.now
  let i := s.laneIn t (memOp d a b) e.v
  (∀ l ∈ i.lanes, ∃ k, s.spadDecode (s.cur / 256) t (i.spadAddr 1 l) = .ok k) →
  ∃ u v, exec (.pres d a b) s = .next u ∧ Slot r u (t.result t d v).advance ∧ Latched s u (t.entry v) ∧
    ∀ l ∈ i.lanes, let c := s.spadKeyOf (i.spadAddr 1 l) / 128
      ((v l).getLsbD 0 = !s.isAbsent c) ∧ ((v l).getLsbD 1 = s.isPois c) ∧ v l >>> 2 = 0) ∧
  (∀ (s : State) a b (d : BitVec 5) (f : BitVec 4) e r, MemOk s → LaneReady s (stOp d a b) e r → s.now.takesF false f →
  let t := s.now
  let i := s.laneIn t (stOp d a b) e.v
  let n := t.size f
  let ea := i.spadAddr (if f.getLsbD 3 then n else 1)
  (∀ l ∈ i.lanes, ∃ k, s.spadOk n n false (ea l) k) →
    ∃ u m p, exec (.sts d a b f) s = .next u ∧ Slot { r with spad := m, spois := p } u t.advance ∧ LatchesKept s u ∧
      m.byte = storeAll n (i.lanes.map fun l => (s.spadKeyOf (ea l), (vget 0 (s.dataVal t d) l).toNat)) s.spad.byte ∧
      LinesLeft s u n (i.lanes.map fun l => s.spadKeyOf (ea l)) ∧
      ∀ c, Covered n (i.lanes.map fun l => s.spadKeyOf (ea l)) 128 c ∨ Sparse.get false p c = Sparse.get false s.spois c) ∧
  (∀ (s : State) a b e r, LaneReady s (putOp a b) e r →
  let t := s.now
  let i := s.laneIn t (putOp a b) e.v
  ∀ n : BitVec 4, (∀ l ∈ i.lanes, (i.spadAddr 1 l).toNat % 128 = 0 ∧ ∀ j : Nat, j ≤ n.toNat → ∃ k,
      s.spadDecode (s.cur / 256) t (i.spadAddr 1 l + 128 * j) = .ok k ∧ s.fenced.getLsbD (k / 2 ^ 24 / 8) = false) →
    let queued := ∃ l ∈ i.lanes, ∃ j : Nat, j ≤ n.toNat ∧ s.sinkMeets (s.spadKeyOf (i.spadAddr 1 l + 128 * j)) 128
    (queued → exec (.absent a b n) s = .next { s with stalled := true }) ∧
    (¬queued → ∃ u ab, exec (.absent a b n) s = .next u ∧ Slot { r with absent := ab } u t.advance ∧ LatchesKept s u ∧
      ∀ c, Sparse.get false ab c = true ↔ Sparse.get false s.absent c = true ∨
        ∃ l ∈ i.lanes, ∃ j : Nat, j ≤ n.toNat ∧ s.spadKeyOf (i.spadAddr 1 l + 128 * j) / 128 = c))

/-- 09 R238; 07 R180, R187, R191, R192, R199: LDSB and STSB move eight bytes for each active lane of a block of the
scratchpad, LDGB and STGB of a global block; what a store writes whole is poisoned no more. The model's choices: a held
sector stays held while the cache has room (log 11), an uncached load drops the one its core holds (log 97), and a write
completion time reaches the core as well as the seat (log 98). -/
def Obligations.BlockAccesses : Prop :=
  (∀ (s : State) a b, s.blockAddr a b &&& 127 = 0 →
  let t := s.now
  let ls := (List.range 64).filter t.gov.getLsbD
  let key := fun l => s.spadKeyOf (s.blockLane a b l)
  (∀ d, BlockReady s a b (d.dr == 31) → (∀ l ∈ ls, ∃ k, s.spadOk 8 8 true (s.blockLane a b l) k) → (d.nw ∨ d.dr ≠ 31) →
    ∃ u v, exec (.ldsb d a b) s = .next u ∧ Slot s u (t.result t d v).advance ∧ LatchesGone u ∧
      ∀ l ∈ ls, Loaded 8 false (fun j => s.spad.byte (key l + j)) (v l)) ∧
  (∀ d : BitVec 5, MemOk s → BlockReady s a b false (some d) → (∀ l ∈ ls, ∃ k, s.spadOk 8 8 false (s.blockLane a b l) k) →
    ∃ u m p, exec (.stsb d a b) s = .next u ∧ Slot { s with spad := m, spois := p } u t.advance ∧ LatchesKept s u ∧
      m.byte = storeAll 8 (ls.map fun l => (key l, (vget 0 (s.dataVal t d) l).toNat)) s.spad.byte ∧
      LinesLeft s u 8 (ls.map key))) ∧
  (∀ (s : State) a b ls s1, s.blockAddr a b &&& 127 = 0 → s.cur < 16384 →
  let t := s.now
  let as := ((List.range 64).filter t.gov.getLsbD).map fun l => (l, s.blockAddr a b + BitVec.ofNat 64 (8 * l))
  (∀ d (f : BitVec 1), BlockReady s a b (d.dr == 31) → (d.nw ∨ d.dr ≠ 31) →
    s.global as [] 8 false true (loadOp 8) ls s1 →
    ∃ u v, exec (.ldgb d a b f) s = .next u ∧ LatchesGone u ∧
      Slot { s1 with cores := u.cores, leases := u.leases, elided := u.elided } u (t.result t d v).advance ∧
      LoadedAll s 8 false (f == 1) ls v ∧ Held s u (f == 1) ls) ∧
  (∀ d : BitVec 5, MemOk s → BlockReady s a b false (some d) →
    s.global as [] 8 true false (storeOps 8 as fun l => vget 0 (s.dataVal t d) l) ls s1 →
    ∃ u g, exec (.stgb d a b) s = .next u ∧ LatchesKept s u ∧ Completed s u ls g ∧
      CachesStored s u 8 ((memLocs ls).map fun x => x.2) ∧
      Slot { s1 with hbm := u.hbm, cores := u.cores, hpois := u.hpois, hue := u.hue, elided := u.elided } u
        { t with gwct := g }.advance ∧
      u.hbyte = storeAll 8 ((memLocs ls).map fun x => (x.2, (vget 0 (s.dataVal t d) x.1).toNat)) s.hbyte ∧
      SectorsLeft s u 8 ((memLocs ls).map fun x => x.2)))

/-- 09 R241, R242; 08 R204: ATOMS and CASS update each active lane's element in turn, lowest lane first, each on what
the lanes below it left, and give the old values; SWAP stores a NaN as the canonical one (log 45). No line's mark
changes. -/
def Obligations.ScratchpadAtomics : Prop := ∀ (s : State) d a b (f : BitVec 4) (cas : Bool) e r, MemOk s →
  (cas = true → f = 7) → (cas = false → f.toNat < 12 ∧ f ≠ 9) →
  let t := s.now
  let o : LaneOp := { d := d, a := some a, b := some b, readsD := cas, badType := !atomTy f.toNat t.ety }
  LaneReady s o e r → RegDst s o →
  let i := s.laneIn t o e.v
  let n := tyBits t.ety / 8
  let w := tyBits t.ety
  let ea := fun l => ((vget 0 i.a l).toNat : Int)
  (∀ l ∈ i.lanes, ∃ k, s.spadOk n n true (ea l) k) →
  let q := atomics n (fun l old =>
    let v := (vget 0 i.b l).toNat % 2 ^ w
    if cas then (if old = (vget 0 i.d l).toNat % 2 ^ w then v else old) else t.atomic f.toNat old v)
    (i.lanes.map fun l => (l, s.spadKeyOf (ea l))) s.spad.byte
  ∃ u v m, exec (if cas then .cass d a b else .atoms d a b f) s = .next u ∧ m.byte = q.1 ∧
    Slot { r with spad := m } u (t.result t d v).advance ∧ LatchesGone u ∧
    ∀ l ∈ i.lanes, Loaded n (isSigned t.ety) (fun j => BitVec.ofNat 8 (q.2 l / 2 ^ (8 * j))) (v l)

/-- 07 R180, R179, R184, R187; 08 R205; 13 R331, R332; 14 R345: where a scratchpad access stops: a violation freezes
with the lowest such lane's code and address, every code and the mask of the lanes; then misaligned lanes trap; then an
absent line parks; then one of the row's own sink stores that is still queued is waited for; then a poisoned line read
traps, with the lanes that read one. That the first two come before DIE_FENCED is the model's reading (log 37). -/
def Obligations.ScratchpadStops : Prop := ∀ (s : State) (as : List LaneAddr) n write poison cls,
  let bad := as.filter fun x => match s.spadDecode (s.cur / 256) s.now x.2 with
    | .ok _ => false
    | .error _ => true
  let mis := as.filter fun x => decide (x.2.toNat % n ≠ 0)
  let lines := fun x : LaneAddr => linesOf (s.spadKeyOf x.2) n
  let check := s.spadCheck s.cur s.now as n n write poison cls
  (∀ x rest, bad = x :: rest → ∃ v : Vio, check = .error (.freeze v) ∧ v.addr = BitVec.ofInt 64 x.2 ∧
    v.lanes = laneMask (bad.map fun y => y.1) ∧ s.spadDecode (s.cur / 256) s.now x.2 = .error v.code ∧
    ∀ j, j < 16 → (v.codes.getLsbD j = true ↔ ∃ y ∈ bad, s.spadDecode (s.cur / 256) s.now y.2 = .error (0x40 + j))) ∧
  (bad = [] → ∀ x rest, mis = x :: rest → check = .error (.trap
    { code := 0x12, lanes := laneMask (mis.map fun y => y.1), addr := BitVec.ofInt 64 x.2, write := write })) ∧
  (bad = [] → mis = [] → s.fenced = 0 → (∃ x ∈ as, ∃ c ∈ lines x, s.isAbsent c = true) →
    ∃ ls, check = .error (.park (.lines ls) cls) ∧ ∀ c, c ∈ ls ↔ s.isAbsent c = true ∧ ∃ x ∈ as, c ∈ lines x) ∧
  (bad = [] → mis = [] → s.fenced = 0 → (∀ x ∈ as, ∀ c ∈ lines x, s.isAbsent c = false) →
    let queued := ∃ x ∈ as, s.sinkMeets (s.spadKeyOf x.2) n
    (queued → check = .error .stall) ∧
    (¬queued → poison = true → ∀ x rest, as.filter (fun y => (lines y).any s.isPois) = x :: rest → check = .error (.trap
      { code := 0x18, lanes := laneMask ((x :: rest).map fun y => y.1), addr := BitVec.ofInt 64 x.2 })))

/-! ### Global memory (07, 09) -/

/-- 07 R188 to R191; 13 R325, R326, R328, R329, R337; 14 R362: what a translation gives: must-be-zero bits, a peer address,
and a local one's walk, level by level, each entry at the region's base, its table's offset and its index, where an entry
that is held, has an error, is poisoned or is not present ends it; and a leaf's checks in the order of R189. An entry of
level 0 that is present and no leaf, which no table update makes (R328), counts as not present: the model's choice (log
108). -/
def Obligations.Translations : Prop := ∀ (s : State) (p d : Nat) (va : Word) (k : AccKind),
  let x := s.xlate p d va k
  let g := vget 0 (s.part p).ogrant (va.extractLsb' 56 7).toNat
  let free := fun w : Word => if w.getLsbD 63 then w.extractLsb' 52 4 = 0 else w.extractLsb' 52 11 = 0
  let reg := fun q d => vget 0 (s.part q).tregion d
  let base := fun q d => ((reg q d).extractLsb' 26 21).toNat * 2 ^ 26
  let size := fun q d => ((reg q d).extractLsb' 0 4).toNat * 2 ^ 26
  (¬free va → x = .vio 0x44) ∧
  (free va → va.getLsbD 63 = true → (k = .fetch → x = .vio 0x41) ∧
    (k ≠ .fetch → g.getLsbD 63 = false ∨ k = .write ∧ g.getLsbD 62 = false → x = .vio 0x44) ∧
    (k ≠ .fetch → g.getLsbD 63 = true → (k = .write → g.getLsbD 62 = true) → x = .peer)) ∧
  (free va → va.getLsbD 63 = false → size p d = 0 → x = .absent) ∧
  (free va → va.getLsbD 63 = false → size p d ≠ 0 → ∀ off : Nat → Nat,
    let index := fun l => if l = 3 then va.toNat / 2 ^ 39 % 2 ^ 13 else va.toNat / 2 ^ (12 + 9 * l) % 2 ^ 9
    let at' := fun l => base p d + off l + 8 * index l
    let entry := fun l => BitVec.ofNat 64 (readBytes s.hbyte (at' l) 8)
    let addr := fun l => ((entry l).extractLsb' 12 40).toNat * 2 ^ 12
    let reads := fun l => s.held (at' l) = false ∧ s.secUE (at' l) = false ∧ s.secPois (at' l) = false
    off 3 = 0 → (∀ l, l < 3 → off l = addr (l + 1)) →
    ∀ n, n ≤ 3 → (∀ l, n < l → l ≤ 3 → reads l ∧ (entry l).getLsbD 0 = true ∧ (entry l).getLsbD 1 = false) →
      (s.held (at' n) = true → x = .wait) ∧
      (s.held (at' n) = false → s.secUE (at' n) = true → x = .lost (at' n)) ∧
      (s.held (at' n) = false → s.secUE (at' n) = false → s.secPois (at' n) = true → x = .poison) ∧
      (reads n → (entry n).getLsbD 0 = false ∨ n = 0 ∧ (entry n).getLsbD 1 = false → x = .absent) ∧
      (reads n → (entry n).getLsbD 0 = true → (entry n).getLsbD 1 = true → n < 3 →
        let page := 2 ^ (12 + 9 * n)
        let pa := addr n + va.toNat % page
        let backed := pa / 2 ^ 41 < 24 ∧ pa % 2 ^ 41 < if (s.stack (pa / 2 ^ 41)).par then 90 * 10 ^ 9 else 96 * 10 ^ 9
        let owned := (s.part p).dies.getLsbD (pa / 2 ^ 41 / 3) = true
        let table := ∃ q e, q < 8 ∧ e < 8 ∧ (s.part q).en = true ∧ (s.part q).dies.getLsbD e = true ∧ size q e ≠ 0 ∧
          pa / page * page < base q e + size q e ∧ base q e < pa / page * page + page
        (¬backed → x = .vio 0x46) ∧ (backed → ¬owned → x = .vio 0x44) ∧ (backed → owned → table → x = .vio 0x46) ∧
        (backed → owned → ¬table → (k = .write → (entry n).getLsbD 2 = false → x = .vio 0x40) ∧
          (k = .fetch → (entry n).getLsbD 3 = false → x = .vio 0x41) ∧
          ((k = .write → (entry n).getLsbD 2 = true) → (k = .fetch → (entry n).getLsbD 3 = true) →
            x = .mem pa ((entry n).getLsbD 4)))))

/-- 07 R180, R188 to R191, R197; 08 R202, R205; 13 R329, R330; 14 R345, R362, R365: where a global access of a row stops, over
all its accesses: an error met on a walk is handled first, and a walk that is held is waited for; then violations freeze,
with the lowest lane's code and address and every code; then misaligned ones trap, then those that find a die fenced, a page
absent, a home held or an own contribution that waits, an error, or poison; else the accesses go ahead. So does one access
to a peer by its answer, and waits without one. A load or a store that stops does what the stop does. The order of
DIE_FENCED, and what a failing instruction takes of peers' answers, are the model's (logs 37, 95, 9). -/
def Obligations.GlobalStops : Prop :=
  (∀ (s : State) (p d : Nat) (sid : Option Nat) (as mis : List (Nat × Word)) (n : Nat) (write read : Bool) op,
  let x := fun a : Nat × Word => s.xlate p d a.2 (if write then .write else .read)
  let check := s.gcheck p d sid as mis n write read op
  let stops := fun e => ∃ r : State, r = { s with elided := r.elided } ∧ check = .error (.after r e)
  let traps := fun (code : Nat) (bad : List (Nat × Word)) (va : Word) (wr : Bool) (aux : Nat) => stops (.trap
    { code := code, lanes := laneMask (bad.map fun a => a.1), addr := va, write := wr, aux := aux })
  let lost := ∃ a ∈ as, ∃ pa, x a = .lost pa
  let waits := ∃ a ∈ as, x a = .wait
  (∀ pre a rest pa, as = pre ++ a :: rest → x a = .lost pa → (∀ b ∈ pre, ∀ q, x b ≠ .lost q) →
    check = .error (.after (s.meetUE pa) .stall)) ∧
  (¬lost → waits → check = .error .stall) ∧
  (¬lost → ¬waits → ∀ bad, bad = as.filter (fun a => match x a with
      | .vio _ => true
      | _ => false) →
    (∀ a rest, bad = a :: rest → ∃ v : Vio, stops (.freeze v) ∧ x a = .vio v.code ∧ v.addr = a.2 ∧
      (∀ j, j < 16 → (v.codes.getLsbD j = true ↔ ∃ b ∈ bad, x b = .vio (0x40 + j))) ∧
      ∀ l, l < 64 → (v.lanes.getLsbD l = true ↔ ∃ b ∈ as, b.1 = l ∧ (b ∈ bad ∨ x b = .absent))) ∧
    (bad = [] → (∃ a ∈ as, x a = .peer ∧ s.peerLink p a.2 = none) → check = .error .stall) ∧
    (bad = [] → (∀ a ∈ as, x a ≠ .peer) →
      (∀ a rest, mis = a :: rest → traps 0x12 mis a.2 write 0) ∧
      (mis = [] → ∀ cut, cut = as.filter (fun a => match x a with
          | .mem pa _ => s.fenced.getLsbD (paStack pa / 3)
          | _ => false) →
        (∀ a rest, cut = a :: rest → ∃ pa nc, x a = .mem pa nc ∧ traps 0x1A cut a.2 write (paStack pa / 3)) ∧
        (cut = [] → ∀ gone, gone = as.filter (fun a => x a == .absent) →
          (∀ a rest, gone = a :: rest → traps 0x10 gone a.2 write 0) ∧
          (gone = [] →
            let held := ∃ a ∈ as, ∃ pa nc, x a = .mem pa nc ∧ (s.held pa = true ∨ write = true ∧ s.behindFaddx sid pa n = true)
            let lostAt := fun a => ∃ pa nc, x a = .mem pa nc ∧ read = true ∧ s.secUE pa = true
            (held → check = .error .stall) ∧
            (¬held → (∀ pre a rest pa nc, as = pre ++ a :: rest → x a = .mem pa nc → lostAt a → (∀ b ∈ pre, ¬lostAt b) →
                check = .error (.after (s.meetUE pa) .stall)) ∧
              ((∀ a ∈ as, ¬lostAt a) → ∀ bad, bad = as.filter (fun a => match x a with
                  | .mem pa _ => read && s.secPois pa
                  | .poison => true
                  | _ => false) →
                (∀ a rest, bad = a :: rest → traps 0x18 bad a.2 false 0) ∧
                (bad = [] → check = .ok (as.map (fun a => (a.1, a.2, match x a with
                  | .mem pa nc => .mem pa nc
                  | _ => .peer .retry)), s))))))))) ∧
  (∀ l va link, as = [(l, va)] → mis = [] → x (l, va) = .peer → s.peerLink p va = some link →
    (s.peerReplies = [] ∨ s.peerReplies.head? = some .retry → check = .error .stall) ∧
    ∀ r rest, s.peerReplies = r :: rest → let t := { s with
        peerReplies := rest, spanOut := s.spanOut ++ ((op 0).map fun o => s.frame p va o r).toList }
      let freezes := fun c => check = .error (.after t (.freeze
        { code := c, codes := codeBit c, addr := va, lanes := 1#64 <<< l }))
      let traps := fun code wr pr aux => check = .error (.after t (.trap
        { code := code, lanes := 1#64 <<< l, addr := va, write := wr, peer := pr, aux := aux }))
      (∀ c, r = .violation c → freezes c) ∧ (r = .refused → freezes 0x44) ∧ (r = .pageFault → traps 0x10 write true 0) ∧
      (∀ d, r = .fenced d → traps 0x1A write true d) ∧ (r = .poison → read = true → traps 0x18 false false 0) ∧
      ∀ w, r = .data w → check = .ok ([(l, va, .peer r)], t))) ∧
  ∀ (s : State) a b stop, let t := s.now
    let stopped := fun i => exec i s = .next (s.stop s.cur stop)
    let checks := fun as mis n write op => s.gcheck t.bind.part (s.cur / 256 / 8) (some s.cur) as mis n write (!write) op = .error stop
    let mis := fun (n : Nat) (as : List (Nat × Word)) => as.filter fun x => decide (x.2.toNat % n ≠ 0)
    let block := ((List.range 64).filter t.gov.getLsbD).map fun l => (l, s.blockAddr a b + BitVec.ofNat 64 (8 * l))
    (∀ d (f : BitVec 4) e r, t.takesF true f → LaneReady s (memOp d a b) e r →
      let i := s.laneIn t (memOp d a b) e.v
      let as := i.lanes.map fun l => (l, i.globalAddr l)
      checks as (mis (t.size f) as) (t.size f) false (loadOp (t.size f)) → stopped (.ldg d a b f)) ∧
    (∀ (d : BitVec 5) (f : BitVec 2) e r, t.takesF false (f.setWidth 4) → LaneReady s (stOp d a b) e r →
      let i := s.laneIn t (stOp d a b) e.v
      let n := t.size (f.setWidth 4)
      let as := i.lanes.map fun l => (l, i.globalAddr l)
      checks as (mis n as) n true (storeOps n as fun l => vget 0 (s.dataVal t d) l) → stopped (.stg d a b f)) ∧
    (s.blockAddr a b &&& 127 = 0 →
      (∀ d f, BlockReady s a b (d.dr == 31) → checks block [] 8 false (loadOp 8) → stopped (.ldgb d a b f)) ∧
      ∀ d : BitVec 5, BlockReady s a b false (some d) →
        checks block [] 8 true (storeOps 8 block fun l => vget 0 (s.dataVal t d) l) → stopped (.stgb d a b))

/-- 09 R236, R237, R243; 07 R191, R192; 08 R203, R217: LDG reads each active lane's element at its home, from a sector
that the core holds validly, or from a peer, all its lanes the same machine; the sectors read are held with a lease unless
the load or page is uncached; PREFG only fetches. The model's choices: a held sector stays held while the cache has room
(log 11), and an uncached load drops the one its core holds (log 97). -/
def Obligations.GlobalLoads : Prop := ∀ (s : State) a b, s.cur < 16384 →
  (∀ d (f : BitVec 4) e r ls s1, s.now.takesF true f → LaneReady s (memOp d a b) e r → RegDst s (memOp d a b) →
    let t := s.now
    let i := s.laneIn t (memOp d a b) e.v
    let n := t.size f
    let as := i.lanes.map fun l => (l, i.globalAddr l)
    s.global as (as.filter fun x => decide (x.2.toNat % n ≠ 0)) n false true (loadOp n) ls s1 →
    ∃ u v, exec (.ldg d a b f) s = .next u ∧ LatchesGone u ∧
      Slot { s1 with rows := r.rows, cores := u.cores, leases := u.leases, elided := u.elided } u
        (t.result t d v).advance ∧
      LoadedAll s n (t.signed f) (f.getLsbD 3) ls v ∧ Held s u (f.getLsbD 3) ls) ∧
  (∀ e r, LaneReady s (putOp a b) e r →
    let t := s.now
    let i := s.laneIn t (putOp a b) e.v
    let takes := fun l pa => s.xlate t.bind.part (s.cur / 256 / 8) (i.globalAddr l) .read = .mem pa false ∧
      s.held pa = false ∧ s.fenced.getLsbD (paStack pa / 3) = false
    ∃ u pas, exec (.prefg a b) s = .next u ∧ LatchesKept s u ∧
      Slot { s with rows := r.rows, cores := u.cores, leases := u.leases, elided := u.elided } u t.advance ∧
      (∀ pa, pa ∈ pas ↔ ∃ l ∈ i.lanes, takes l pa) ∧ pas.length ≤ 64 ∧ Fetched s u pas ∧
      (∀ k, k ≠ s.cur / 256 → u.core k = s.core k) ∧
      u.core (s.cur / 256) = { s.core (s.cur / 256) with lcache := (u.core (s.cur / 256)).lcache } ∧
      ∀ pa, (∀ x ∈ pas, paSector x ≠ paSector pa) → u.leaseOf pa = s.leaseOf pa)

/-- 09 R236, R237; 07 R192, R199; 08 R206, R213, R217: STG writes each active lane's element, a higher lane's last, and in
the issuing core's valid sectors too; no byte besides is written; a sector written whole is poisoned no more. A write
completion time comes back, to the seat and (the model's choice, log 98) to its core. -/
def Obligations.GlobalStores : Prop := ∀ (s : State) (d : BitVec 5) a b (f : BitVec 2) e r ls s1, MemOk s →
  s.now.takesF false (f.setWidth 4) → LaneReady s (stOp d a b) e r →
  let t := s.now
  let i := s.laneIn t (stOp d a b) e.v
  let n := t.size (f.setWidth 4)
  let as := i.lanes.map fun l => (l, i.globalAddr l)
  s.global as (as.filter fun x => decide (x.2.toNat % n ≠ 0)) n true false
    (storeOps n as fun l => vget 0 (s.dataVal t d) l) ls s1 →
  ∃ u g, exec (.stg d a b f) s = .next u ∧ LatchesKept s u ∧ Completed s u ls g ∧
    CachesStored s u n ((memLocs ls).map fun x => x.2) ∧
    Slot { s1 with rows := r.rows, hbm := u.hbm, cores := u.cores, hpois := u.hpois, hue := u.hue, elided := u.elided } u
      { t with gwct := g }.advance ∧
    u.hbyte = storeAll n ((memLocs ls).map fun x => (x.2, (vget 0 (s.dataVal t d) x.1).toNat)) s.hbyte ∧
    SectorsLeft s u n ((memLocs ls).map fun x => x.2)

/-- 09 R241, R242; 04 R113, R115; 08 R204, R213, R217: ATOMG, CASG and REDG update each active lane's element in turn,
the issuing core's valid sectors with it, and but for REDG give the old values; no sector's mark changes. FADDX leaves
memory as it is: each lane's contribution arrives at its unit in turn, where it enters an accumulator or waits. SWAP stores
a NaN as the canonical one (log 45); write completion times reach the core too (log 98). -/
def Obligations.GlobalAtomics : Prop := ∀ (s : State) (d : Dst) a b (f : BitVec 4) (cas : Bool) e r ls s1, MemOk s →
  (cas = true → f = 7) → f.toNat < 12 →
  let t := s.now
  let o := fun d : Dst => ({ d := d, a := some a, b := some b, readsD := cas, badType := !atomTy f.toNat t.ety } : LaneOp)
  let w := tyBits t.ety
  let n := w / 8
  let i := s.laneIn t (o d) e.v
  let as := i.lanes.map fun l => (l, vget 0 i.a l)
  let new := fun l old =>
    let v := (vget 0 i.b l).toNat % 2 ^ w
    if cas then (if old = (vget 0 i.d l).toNat % 2 ^ w then v else old) else t.atomic f.toNat old v
  let q := atomics n new (memLocs ls) s.hbyte
  s.global as (as.filter fun x => decide (x.2.toNat % n ≠ 0)) n true true (i.atomOps cas t.ety f.toNat as) ls s1 →
  LaneReady s (o d) e r →
  (f ≠ 9 → RegDst s (o d) →
    ∃ u v g, exec (if cas then .casg d a b else .atomg d a b f) s = .next u ∧ LatchesGone u ∧ Completed s u ls g ∧
      CachesStored s u n ((memLocs ls).map fun x => x.2) ∧
      Slot { s1 with rows := r.rows, hbm := u.hbm, cores := u.cores, elided := u.elided } u
        ({ t with gwct := g }.result t d v).advance ∧ u.hbyte = q.1 ∧
      (∀ x ∈ memLocs ls, Loaded n (isSigned t.ety) (fun j => BitVec.ofNat 8 (q.2 x.1 / 2 ^ (8 * j))) (v x.1)) ∧
      ∀ l va w, (l, va, .peer (.data w)) ∈ ls → Loaded n (isSigned t.ety) (fun j => w.extractLsb' (8 * j) 8) (v l)) ∧
  (d = ⟨false, 0⟩ → cas = false → f ≠ 9 → ∃ u g, exec (.redg a b f) s = .next u ∧ LatchesGone u ∧ Completed s u ls g ∧
    CachesStored s u n ((memLocs ls).map fun x => x.2) ∧
    Slot { s1 with rows := r.rows, hbm := u.hbm, cores := u.cores, elided := u.elided } u
      { t with gwct := g }.advance ∧ u.hbyte = q.1) ∧
  (d = ⟨false, 0⟩ → cas = false → f = 9 → t.status ≠ .frozen → ∀ j ∈ [Instr.redg a b f, .atomg d a b f], ∃ u,
    exec j s = .next u ∧ LatchesGone u ∧
    Slot { s1 with rows := r.rows, accums := u.accums, contribs := u.contribs, cores := u.cores } u
      { t with gwct := u.now.gwct }.advance ∧ (∀ k, ∃ g, u.core k = { s.core k with gwct := g }) ∧
    (∀ k, k ≠ s.cur / 256 → u.core k = s.core k) ∧
    ∃ st : Nat → State, (st 0).accums = s.accums ∧ (st 0).contribs = s.contribs ∧ (st 0).hbm = s.hbm ∧
      (st 0).leases = s.leases ∧ (st 0).time = s.time ∧ (st 0).now.gwct = t.gwct ∧
      (∀ k l va pa nc, (ls.filter fun x => match x.2.2 with
          | .mem _ _ => true
          | .peer _ => false)[k]? = some (l, va, .mem pa nc) → Arrives (st k) (st (k + 1))
        { addr := pa, v := (vget 0 i.b l).setWidth 32, sid := some s.cur, who := .row s.cur t.bind.lid
          part := t.bind.part, since := s.time.toNat, nc := nc }) ∧
      u.accums = (st (memLocs ls).length).accums ∧ u.contribs = (st (memLocs ls).length).contribs ∧
      u.now.gwct = (st (memLocs ls).length).now.gwct)

/-- 09 R244, R245; 08 R203: ISECT counts the values common to two sorted lists, a round of at most a sector of each list
for every lane with elements left in both (one issue performs one round: log 47), reading the homes; it is done where
no active lane has. The sectors that its core holds of them go (the model's choice, log 97). -/
def Obligations.IsectRounds : Prop := ∀ (s : State) (d a b : BitVec 5), s.now.resident = true → s.cur < 16384 →
  d.toNat ≤ 30 → a.toNat ≤ 29 → b.toNat ≤ 29 →
  [a.toNat, a.toNat + 1, b.toNat, b.toNat + 1, d.toNat].Nodup →
  let t := s.now
  let reads := [a.toNat, a.toNat + 1, b.toNat, b.toNat + 1, d.toNat].map fun n =>
    ((⟨false, false, BitVec.ofNat 5 n⟩ : Src), t.gov)
  t.check s.cur false false false false reads = .ok () →
  (∀ x ∈ reads, ∀ l, t.gov.getLsbD l = true → (vget 0 t.xdead x.1.n.toNat).getLsbD l = false) →
  let open' := fun l => t.gov.getLsbD l && t.xr (a.toNat + 1) l != 0 && t.xr (b.toNat + 1) l != 0
  let opens := (List.range 64).filter open'
  let lists := fun (v : Seat) l => Isect.mk (v.xr a.toNat l) (v.xr (a.toNat + 1) l) (v.xr b.toNat l) (v.xr (b.toNat + 1) l)
    (v.xr d.toNat l)
  (opens = [] → Parks (.isect d a b) s t.advance) ∧
  (∀ ls s1, opens ≠ [] → (∀ l ∈ opens, t.xr a.toNat l &&& 3 = 0 ∧ t.xr b.toNat l &&& 3 = 0) →
    s.global (opens.flatMap fun l => [t.xr a.toNat l, t.xr b.toNat l].flatMap fun x =>
      (List.range 4).map fun g => (l, (x &&& ~~~31#64) + BitVec.ofNat 64 (8 * g))) [] 8 false true (loadOp 8) ls s1 →
    ∃ u, ∃ w : Nat → Word, exec (.isect d a b) s = .next u ∧ LatchesGone u ∧
      Slot { s1 with cores := u.cores, leases := u.leases, elided := u.elided } u
        { t with x := u.now.x, xpois := u.now.xpois } ∧ Held s u true ls ∧
      (∀ n l, n < 31 → l < 64 → open' l = false ∨ n ∉ [a.toNat, a.toNat + 1, b.toNat, b.toNat + 1, d.toNat] →
        u.now.xr n l = t.xr n l) ∧
      (∀ k x, ls[k]? = some x → LoadedAt s 8 false true ls x (w k)) ∧
      ∀ j l, opens[j]? = some l →
        let at' := fun o (x : Word) => (w (8 * j + o + x.toNat / 8 % 4)).toNat / 2 ^ (32 * (x.toNat / 4 % 2)) % 2 ^ 32
        Isect.Round (at' 0) (at' 4) (lists t l) (lists u.now l) ∧
        ((lists t l).na - (lists u.now l).na).toNat ≤ 8 ∧ ((lists t l).nb - (lists u.now l).nb).toNat ≤ 8 ∧
        ((lists u.now l).na ≠ (lists t l).na ∨ (lists u.now l).nb ≠ (lists t l).nb))
/-! ### Time, fences, barriers, counters (09, 08, 12) -/

/-- 09 R248 to R252; 11 R292: what BARI, BARX and BARV leave of a barrier object and nothing else; BARV waits for its
fence, and the arrival that brings both counts to zero completes the generation; BARW waits until the generation has
passed its operand, and then (08 R211 as the model reads it: log 98) the seat takes over its core's write completion time;
BARS reads. -/
def Obligations.Barriers : Prop := ∀ (s : State) (a b : Src) k, MemOk s → scalarOk a = true →
  s.spadOk 32 32 true (s.scalar s.now a).toNat k →
  let v := s.immVal s.now b
  let o := s.bar k
  let now := s.time.toNat % 2 ^ 32
  let does := fun (i : Instr) (o' : Bar) => ∃ u, exec i s = .next u ∧ LatchesKept s u ∧ u.bar k = o' ∧
    Slot { s with spad := u.spad } u s.now.advance ∧
    ∀ x, x < k ∨ k + 32 ≤ x → u.spad.byte x = s.spad.byte x
  (CtlReady s [a, b] [] → scalarOk b = true → s.now.pximm = none → v.extractLsb' 16 16 = 0 →
    v.setWidth 16 ≠ 0#16 ∨ v >>> 32 ≠ 0 → let x := v.toNat % 2 ^ 16
    let y := v.toNat / 2 ^ 32
    does (.bari a b) { o with expa := x, penda := x, expb := y, pendb := y, st := false, ovr := false }) ∧
  (CtlReady s (immSrcs s.now a b) [] → immOk s.now b = true →
    (v >>> 32 = 0 →
      does (.barx a b) { o with pendb := min (o.pendb + v.toNat) (2 ^ 32 - 1)
                                ovr := o.ovr || decide (2 ^ 32 ≤ o.pendb + v.toNat) } ∧
      ∀ f : BitVec 4, f.toNat < 6 →
        (s.released s.cur s.now f.toNat = false → exec (.barv a b f) s = .next { s with stalled := true }) ∧
        (s.released s.cur s.now f.toNat = true →
          let first := if o.st then o.cur else now
          let o1 := { o with cur := first, ovr := o.ovr || decide (o.penda = 0) || decide (o.pendb < v.toNat) }
          if o.penda - 1 = 0 ∧ o.pendb - v.toNat = 0 then does (.barv a b f)
            { o1 with tfirst := first, tlast := now, lrole := s.now.bind.role % 16
                      lrow := s.now.bind.srow % 256 + s.now.bind.string % 256 * 256, gen := (o.gen + 1) % 2 ^ 32
                      penda := o.expa, pendb := o.expb, st := false }
          else does (.barv a b f) { o1 with penda := o.penda - 1, pendb := o.pendb - v.toNat, st := true })) ∧
    (0 < (BitVec.ofNat 32 o.gen - v.setWidth 32).toInt → Parks (.barw a b) s
      { s.now with gwct := laterGwct (s.core (s.cur / 256)).gwct s.now.gwct }.advance) ∧
    ((BitVec.ofNat 32 o.gen - v.setWidth 32).toInt ≤ 0 → ∃ u, exec (.barw a b) s = .next u ∧ LatchesGone u ∧
      u.now.status = .parked (.barrier k v) ∧ u.now.pc = s.now.pc ∧ u.now.slot = s.now.slot ∧ u.now.x = s.now.x ∧
      u.now.s = s.now.s ∧ SameBytes s u)) ∧
  (CtlReady s [a] [] → ∀ d : Dst,
    (∀ f : BitVec 4, f.toNat < 4 → ∃ x, Writes (.bars d a f) s d x ∧ Loaded 8 false (fun j => s.spad.byte (k + 8 * f.toNat + j)) x) ∧
    Writes (.bars d a 4) s d
      (BitVec.ofNat 64 ((o.tlast + 2 ^ 32 - o.tfirst) % 2 ^ 32 + o.lrole * 2 ^ 32 + o.lrow * 2 ^ 40)))

/-- 12 R311 to R315; 11 R290, R291; 14 R361: TARM arms a counter, and TDEC counts it down; a task is issued when its armed
counter comes to zero, and taken at once where none is before it: a launch is accepted, a girth packet joins its
stack's stream, and what stops either is told or recorded. A refused operation sets ERR and tells the supervisor. TAKE
takes a share of a range by the core's weight, and its result enters no latch. -/
def Obligations.CountersAndShares : Prop := ∀ s : State, s.now.bind.part < 8 →
  let p := s.now.bind.part
  let does := fun (i : Instr) n (c : Counter) told => ∃ u, exec i s = .next u ∧ LatchesKept s u ∧
    Slot { s with parts := u.parts } u s.now.advance ∧ (∀ q, q ≠ p → u.part q = s.part q) ∧
    u.part p = { s.part p with counters := Sparse.set {} (s.part p).counters n c, reports := (s.part p).reports ++ told }
  let issues := fun (i : Instr) n (c : Counter) (w : Word) => ∃ s1 u : State,
    s1 = { s with seats := s1.seats, freeCtr := s1.freeCtr } ∧
    let r := (s1.setCounter p n c).metTask p w
    let x := r.part p
    let has := fun c' : Counter => { x with counters := Sparse.set {} x.counters n c' }
    let done := { c with pend := [], hold := false, told := none }
    exec i s = .next u ∧ LatchesKept s u ∧ (∀ k, k ≠ s.cur → u.seat k = s.seat k) ∧
    Slot { r with parts := u.parts, launches := u.launches, elided := u.elided } u s.now.advance ∧
    (∀ q, q ≠ p → u.part q = r.part q) ∧
    match r.taskVerdict p n w with
    | (.wait, _) => u.part p = x ∧ u.launches = s.launches
    | (.fault va, hold) => u.launches = s.launches ∧ u.part p = { has { c with hold := hold, told := some va } with
        reports := x.reports ++ if c.told = some va then [] else [.fault 0 n va] }
    | (.vio code codes va, _) => u.launches = s.launches ∧ ∃ v : VioRec, v.code = code ∧ v.codes = codes ∧ v.mkind = 4 ∧
        v.mid = BitVec.ofNat 32 n ∧ v.addr = va ∧ v.time = s.time ∧
        u.part p = ((r.setPart p (has { c with frozen := true, atTask := true })).addVio p v).part p
    | (.code k, _) => u.launches = s.launches ∧
        u.part p = { has { done with err := true } with reports := x.reports ++ [.counter n k] }
    | (.ok (.launch l), _) => u.launches = Sparse.set none s.launches (launchKey l.part l.lid) (some l) ∧
        (l.part = p → u.part p = { has done with order := l.order + 1 })
    | (.ok (.girth st k), _) => u.launches = s.launches ∧
        u.part p = { has done with tasks := x.tasks ++ [{ stack := st, counter := n, task := w, pkt := k }] }
  (∀ a, CtlReady s [a] [] → let n := (s.scalar s.now a).toNat
    n < 4096 → let c := s.counter p n
    let zero := { c with count := 0, armed := false, issued := true, pend := c.pend ++ [c.task] }
    (c.armed = false ∨ c.frozen = true → does (.tdec a) n { c with err := true } [.counter n 0]) ∧
    (c.armed = true → c.frozen = false → 1 < c.count → does (.tdec a) n { c with count := c.count - 1 } []) ∧
    (c.armed = true → c.frozen = false → c.count ≤ 1 → c.pend ≠ [] → does (.tdec a) n zero []) ∧
    (c.armed = true → c.frozen = false → c.count ≤ 1 → c.pend = [] → issues (.tdec a) n zero c.task)) ∧
  (∀ a b, CtlReady s [a, b] [] → s.released s.cur s.now 4 = true → let v := s.scalar s.now a
    let w := s.scalar s.now b 1
    v.extractLsb' 12 4 = 0 → v >>> 40 = 0 → w &&& 63 = 0 →
    let n := v.toNat % 4096
    let c := s.counter p n
    let m := v.toNat / 2 ^ 16
    (c.armed = true ∨ c.frozen = true → does (.tarm a b) n { c with err := true } [.counter n 0]) ∧
    (c.armed = false → c.frozen = false → 0 < m →
      does (.tarm a b) n { c with task := w, count := m, armed := true, issued := false } []) ∧
    (c.armed = false → c.frozen = false → m = 0 →
      let zero := { c with task := w, count := 0, armed := false, issued := true, pend := c.pend ++ [w] }
      (c.pend ≠ [] → does (.tarm a b) n zero []) ∧ (c.pend = [] → issues (.tarm a b) n zero w))) ∧
  (∀ d a k, MemOk s → CtlReady s [a] [] → let v := s.scalar s.now a
    v >>> 32 = 0 → s.spadOk 16 16 true v.toNat k →
    let next := readBytes s.spad.byte k 4
    let weight := (1024 * (3600 + 25 * (vget 0 s.steps (s.cur / 256)).toNat) + 2000) / 4000
    let n := min (max 1 (readBytes s.spad.byte (k + 8) 2 * weight / 1024)) (readBytes s.spad.byte (k + 4) 4 - next)
    ∃ u, exec (.take d a) s = .next u ∧ LatchesGone u ∧ Slot { s with spad := u.spad } u
        (if d.nw then s.now else s.now.putS d.dr.toNat (BitVec.ofNat 64 (n * 2 ^ 32 + next))).advance ∧
      readBytes u.spad.byte k 4 = next + n ∧ ∀ x, x < k ∨ k + 4 ≤ x → u.spad.byte x = s.spad.byte x)

/-- 09 R255; 12 R317; 10 R275; 08 R213; 14 R365: QPUT puts the packet that lanes 0 to 7 supply into the slot it claims, or
has claimed before it waited, and publishes it; it waits for its release, for room, for its turn, and (the model's choice,
log 99) for a fenced die once it has claimed; before that a slot on one traps. SPAWN, once its row's accesses are
performed, puts the pair of each active lane, in order, into the bin that its entry address selects, and stalls at the
first that would need a second pending row there; a bad entry address traps before any pair is submitted. -/
def Obligations.Submissions : Prop :=
  (∀ (s : State) (a b : Src) (f : BitVec 4) q s1, MemOk s →
  s.now.resident = true → s.now.bind.part < 8 → scalarOk a = true → b.l = false → b.n ≠ 31 →
  f.toNat % 8 < 6 → (f.toNat < 8 → f = 0) →
  s.now.check s.cur true false false false [(a, 1)] = .ok () → deadCheck s.now false [(b, s.now.live &&& 0xFF)] = .ok () →
  poisCheck s.now false [(b, s.now.live &&& 0xFF)] = .ok () →
  s.qputQueue s.cur s.now (s.scalar s.now a) = .ok (q, s1) →
  let released := f.toNat < 8 ∨ s.released s.cur s.now (f.toNat % 8) = true
  let n := s.now.qput.getD (s1.claim q)
  let va := q.base + BitVec.ofNat 64 (64 * (n % 2 ^ q.log2n))
  let ready := released ∧ s1.hdrHeld q = false ∧ (s.now.qput = none → s1.slotFenced q n = false)
  let waits := fun u : State => exec (.qput a b f) s = .next u ∧ u.now.qput = some n ∧ u.now.pc = s.now.pc ∧
    u.now.slot = s.now.slot ∧ u.claim q = if s.now.qput = none then n + 1 else s1.claim q
  (¬released ∨ s1.hdrHeld q = true → exec (.qput a b f) s = .next { s with stalled := true }) ∧
  (released → s1.hdrHeld q = false → s.now.qput = none → s1.slotFenced q n = true → exec (.qput a b f) s = .next (s1.raise s.cur
    { code := 0x1A, lanes := 1, addr := va, write := true, peer := va.getLsbD 63, aux := paStack (q.slotPa n) / 3 })) ∧
  (n + 1 < 2 ^ 64 → ready →
    (n - s1.ridx q < 2 ^ q.log2n → s1.widx q = n → s1.slotHeld q n = false → s1.slotFenced q n = false →
      (q.slotPa n + 64 ≤ q.pa ∨ q.pa + 64 ≤ q.slotPa n) →
      ∃ u, exec (.qput a b f) s = .next u ∧ LatchesGone u ∧
        Slot { s1 with hbm := u.hbm, hpois := u.hpois, hue := u.hue, parts := u.parts, elided := u.elided } u
          { s.now with qput := none }.advance ∧ u.widx q = n + 1 ∧
        u.claim q = (if s.now.qput = none then n + 1 else s1.claim q) ∧
        (∀ k, k < 8 → vget 0 (u.slotPacket q n) k =
          if s.now.live.getLsbD k then s.srcLane s.now false (vrep 64 0) 1 b k else 0) ∧
        (∀ k, k ≠ s.now.bind.part → u.part k = s1.part k) ∧
        ∀ x, (x < q.pa + 0x10 ∨ q.pa + 0x20 ≤ x) → (x < q.slotPa n ∨ q.slotPa n + 64 ≤ x) → u.hbyte x = s1.hbyte x) ∧
    (2 ^ q.log2n ≤ n - s1.ridx q → ∃ u, waits u ∧ u.now.status = .parked (.ring (s.scalar s.now a)) ∧ LatchesGone u) ∧
    (n - s1.ridx q < 2 ^ q.log2n → s1.widx q ≠ n ∨ s1.slotHeld q n = true ∨ s1.slotFenced q n = true →
      ∃ u, waits u ∧ u.stalled = true))) ∧
  (∀ (s : State) (a b : Src), s.now.resident = true → s.cur < 16384 →
  a.isPort = false → b.isPort = false → (a.l && a.n == 6) = false → (b.l && b.n == 6) = false →
  let t := s.now
  let c := s.cur / 256
  t.check s.cur false false false false [(a, t.gov), (b, t.gov)] = .ok () →
  let entry := fun l => s.srcLane t false (vrep 64 0) 0 a l
  let bad := fun l => t.gov.getLsbD l && (entry l &&& 15 != 0 || entry l >>> 52 != 0)
  let lanes := (List.range 64).filter fun l => t.gov.getLsbD l && !t.spawned.getLsbD l
  let key := launchKey t.bind.part t.bind.lid
  let done := (∀ x ∈ s.contribs, x.sid ≠ some s.cur) ∧ s.sinkLeft s.cur t = []
  let core := fun (u : State) bins => u.core c = { s.core c with bins := bins } ∧ ∀ k, k ≠ c → u.core k = s.core k
  ((∃ l, l < 64 ∧ bad l = true) → ∃ l, bad l = true ∧ (∀ k, k < l → bad k = false) ∧
    Traps (.spawn a b) s { code := 0x04, lanes := maskOf bad, addr := entry l }) ∧
  ((∀ l, l < 64 → bad l = false) → (¬done → t.gov ≠ 0 → exec (.spawn a b) s = .next { s with stalled := true }) ∧
    (done → ∃ (n : Nat) (st : Nat → Vector SpawnBin 16), n ≤ lanes.length ∧ st 0 = (s.core c).bins ∧
      (∀ j l, j < n → lanes[j]? = some l → let k := (entry l).toNat / 16 % 16
        (∀ k', k' ≠ k → vget {} (st (j + 1)) k' = vget {} (st j) k') ∧
        (vget {} (st j) k).Takes (vget {} (st (j + 1)) k) s.time.toNat (s.part t.bind.part).bint key (entry l)
          (s.srcLane t false (vrep 64 0) 1 b l)) ∧
      (n = lanes.length → ∃ u, exec (.spawn a b) s = .next u ∧ LatchesKept s u ∧
        Slot { s with cores := u.cores } u { t with spawned := 0 }.advance ∧ core u (st n)) ∧
      ∀ l, lanes[n]? = some l → (vget {} (st n) ((entry l).toNat / 16 % 16)).full key (entry l) ∧
        ∃ u, exec (.spawn a b) s = .next u ∧ core u (st n) ∧ (∀ k, k ≠ s.cur → u.seat k = s.seat k) ∧
          u = { s with stalled := true, seats := u.seats, cores := u.cores } ∧
          u.now = { t with spawned := t.spawned ||| maskOf fun l => decide (l ∈ lanes.take n) })))
/-! ### Records of a row in memory (14 R351 to R353) -/

/-- 14 R351, R352, R353; 12 R296, R302: at handler level, MSPILL and CTXSV write the mask stack and the context image
to global memory, MFILL and CTXLD read them back; an ill-formed record traps, and nothing of the seat changes. A
codebook NaN is loaded as it is, and the matrix flags as those of the last closed batch (logs 82, 83); an uncached load
drops the sector its core holds (log 97), and write completion times reach the core too (log 98). -/
def Obligations.ContextRecords : Prop := ∀ (s : State) a, CtlReady s [a] [] → s.now.hl = true →
  let t := s.now
  let addr := s.scalar t a
  let put := fun (u : State) (ls : List LaneLoc) (fs : List ImgField) => u.hbyte = (fs.filterMap fun f => match locAt ls f.off with
      | .mem pa _ => some (pa + f.off % 8, f.n, f.v)
      | .peer _ => none).foldl (fun m w => storeBytes m w.1 w.2.1 w.2.2) s.hbyte
  (∀ ls s1, MemOk s → s.global (granules addr (4 * t.stack.length)) (if addr.toNat % 32 = 0 then [] else [(0, addr)]) 8 true false
      (fun j => some (.store 3 ((t.stack.reverse.flatMap fun e => [e.mask, e.alt, e.tgt, BitVec.ofNat 64 e.kind.code]).getD j 0) false)) ls s1 →
    ∃ u g, exec (.mspill a) s = .next u ∧ LatchesKept s u ∧ Completed s u ls g ∧
      CachesStored s u 8 ((memLocs ls).map fun x => x.2) ∧
      Slot { s1 with hbm := u.hbm, cores := u.cores, hpois := u.hpois, hue := u.hue, elided := u.elided } u { t with gwct := g }.advance ∧
      put u ls ((t.stack.reverse.flatMap fun e =>
        [e.mask.toNat, e.alt.toNat, e.tgt.toNat, e.kind.code]).zipIdx.map fun (x : Nat × Nat) => ⟨8 * x.2, 8, x.1, false⟩)) ∧
  (∀ (n : BitVec 4) ls s1 (w : Nat → Word), s.global (granules addr (4 * (n.toNat + 1)))
      (if addr.toNat % 32 = 0 then [] else [(0, addr)]) 8 false true (loadOp 8) ls s1 →
    (∀ x ∈ ls, ∀ p, x.2.2 = .peer p → ∃ v, p = .data v) →
    (∀ j, j < 4 * (n.toNat + 1) → LoadedAt s 8 false false ls (ls.getD j (0, 0, .peer (.data 0))) (w j)) →
    let good := w 3 = 0 ∧ (∀ i, i ≤ n.toNat → w (4 * i + 3) >>> 2 = 0) ∧ ∀ i, 0 < i → i ≤ n.toNat → w (4 * i + 3) ≠ 0
    (good → ∃ u, exec (.mfill a n) s = .next u ∧ Held s u false ls ∧
        Slot { s1 with cores := u.cores, leases := u.leases, elided := u.elided } u
      { t with stack := ((List.range (n.toNat + 1)).map fun i =>
        MaskEntry.mk (.ofCode (w (4 * i + 3)).toNat) (w (4 * i)) (w (4 * i + 1)) (w (4 * i + 2))).reverse }.settle) ∧
    (¬good → Traps (.mfill a n) s { code := 0x01 })) ∧
  (∀ ls s1, MemOk s → let fs := t.image t.tpc t.tmode t.shadow t.shpois [] [] t.bind.ports.toNat
    s.global (granules addr 8192) (if addr.toNat % 4096 = 0 then [] else [(0, addr)]) 8 true false (imageOp fs) ls s1 →
    (s.matBusy s.cur = true ∨ s.allDone s.cur t = false ∨ (∃ g, t.gwct = some g ∧ s.time.toNat < g + 4) → exec (.ctxsv a) s = .next { s with stalled := true }) ∧
    (s.matBusy s.cur = false → (∀ x ∈ s.contribs, x.sid ≠ some s.cur) → s.sinkLeft s.cur t = [] →
      (∀ g, t.gwct = some g → g + 4 ≤ s.time.toNat) →
      ∃ u g, exec (.ctxsv a) s = .next u ∧ LatchesKept s u ∧ put u ls fs ∧ ImageStored s u ls fs g ∧
        Slot { s1 with hbm := u.hbm, cores := u.cores, hpois := u.hpois, hue := u.hue, elided := u.elided } u { t with gwct := g }.advance ∧
        ⟨0, 8, t.tpc.toNat, false⟩ ∈ fs ∧ ⟨8, 2, t.tmode.toNat, false⟩ ∈ fs ∧ ⟨0x1C, 4, t.batch.toNat, false⟩ ∈ fs ∧
        (∀ n, n < 31 → t.sdead.getLsbD n = false → ⟨0x40 + 8 * n, 8, (t.sr n).toNat, t.spois.getLsbD n⟩ ∈ fs) ∧
        (∀ n, n < 8 → ⟨0x140 + 8 * n, 8, (t.mr n).toNat, t.mpois.getLsbD n⟩ ∈ fs) ∧
        ∀ n l, n < 31 → l < 64 → (vget 0 t.xdead n).getLsbD l = false →
          ⟨0x1000 + 512 * n + 8 * l, 8, (t.xr n l).toNat, (vget 0 t.xpois n).getLsbD l⟩ ∈ fs)) ∧
  (∀ ls s1, s.cur < 16384 →
    s.global (granules addr 8192) (if addr.toNat % 4096 = 0 then [] else [(0, addr)]) 8 false false (loadOp 8) ls s1 →
    let r := s1.imgRead ls
    s1.imagePois ls (r.used t.nblk) = .ok () →
    (t.imageBad r = true → Traps (.ctxld a) s { code := 0x01 }) ∧
    (t.imageBad r = false → ∃ u, exec (.ctxld a) s = .next u ∧ LatchesKept s u ∧
      Slot { s1 with cores := u.cores, rows := u.rows, elided := u.elided } u { t.loadImage r with
        tpc := (let pc := BitVec.ofNat 64 (r.rd 0 8)
          if pc &&& 3 = 0 then (pc &&& ~~~11#64) ||| 1 else pc &&& ~~~8#64)
        tmode := BitVec.ofNat 16 (r.rd 8 2)
        shadow := r.latches, shpois := vrep 4 0 }.advance ∧
      u.core (s.cur / 256) = { s.core (s.cur / 256) with lcache := [] } ∧ (∀ k, k ≠ s.cur / 256 → u.core k = s.core k) ∧
      (∀ n, n < 31 → (r.rd 0x0C 4).testBit n = true → u.now.sr n = BitVec.ofNat 64 (r.rd (0x40 + 8 * n) 8)) ∧
      u.now.batch = BitVec.ofNat 32 (r.rd 0x1C 4) ∧ u.now.mfl = BitVec.ofNat 6 (r.rd 0x18 1) ∧
      (∀ n, n < 8 → u.now.mr n = BitVec.ofNat 64 (r.rd (0x140 + 8 * n) 8)) ∧
      ∀ n l, n < 31 → l < 64 → (BitVec.ofNat 64 (r.rd (0x400 + 8 * n) 8)).getLsbD l = true →
        u.now.xr n l = BitVec.ofNat 64 (r.rd (0x1000 + 512 * n + 8 * l) 8)))

/-! ### Matrix work and ports (06) -/

/-- 06 R153 to R159, R164 to R166; 02 R62; 14 R346: each matrix instruction puts one item with what it samples at the
end of its row's queue, and waits while eight are queued; an MDOTP takes a slot of the south port too, with where its
entry will be stored in a tail, unless nothing takes it; the lanes of the item are the active ones, and its result is undefined only in lanes that read a dead
register. Where the type is none that MDOT accepts, a group has m registers (log 79). -/
def Obligations.MatrixQueue : Prop := ∀ s : State, s.now.resident = true →
  let t := s.now
  let row := fun (u : State) => u.row (s.cur / 4)
  let first := (t.abase - t.ablk) * 32
  let full := 8 ≤ (row s).queued.length
  let waits := fun i : Instr => exec i s = .next { s with stalled := true }
  let queues := fun (i : Instr) (r : State) (w : Seat) (P : MatItem → Prop) => ∃ u it, exec i s = .next u ∧ LatchesKept s u ∧
    Slot { r with rows := u.rows } u w.advance ∧ (∀ k, k ≠ s.cur / 4 → u.row k = r.row k) ∧
    (row u).mat = (row r).mat ++ [it] ∧ (row u).north = (row r).north ∧ it.id = (row r).nextItem ∧ it.seat = s.cur % 4 ∧
    it.mask = t.gov ∧ it.batch = t.batch + 1 ∧ it.done = 0 ∧ it.flags = 0 ∧ it.pois = 0 ∧ P it
  (∀ (d : BitVec 5) (k : BitVec 4), d.toNat + k.toNat ≤ 31 → t.check s.cur false false false false [] = .ok () →
    (full → waits (.azero d k)) ∧
    (¬full → queues (.azero d k) s t fun it => it.kind = .azero ∧ it.acc = first + d.toNat ∧ it.count = k.toNat + 1 ∧
      it.steps = 1 ∧ it.undef = 0)) ∧
  (∀ (d : BitVec 5) (a : Src) (k : BitVec 4), t.check s.cur false false false false [(a, t.gov)] = .ok () →
    let samples := fun (e : PortEntry) (it : MatItem) => it.steps = 1 ∧ it.undef = 0 ∧ it.acc = first + d.toNat ∧
      ∀ l, l < 64 → vget 0 it.cur l = s.srcLane t false e.v 0 a l
    (d ≠ 31 → (full → waits (.aput d a)) ∧
      (¬full → ∀ e r, s.readPorts s.cur t [a] = .ok (e, r) → e.pois &&& t.gov = 0 →
        queues (.aput d a) r t fun it => it.kind = .aput ∧ it.count = 2 ∧ samples e it)) ∧
    (d.toNat + k.toNat ≤ 31 → (∀ j, j ≤ k.toNat → vget 0 t.accpois (first + d.toNat + j) &&& t.gov = 0) →
      (full → waits (.ascl d a k)) ∧
      (¬full → ∀ e r, s.readPorts s.cur t [a] = .ok (e, r) → e.pois &&& t.gov = 0 →
        queues (.ascl d a k) r t fun it => it.kind = .ascl ∧ it.count = k.toNat + 1 ∧ samples e it))) ∧
  (∀ (a b : Src) (k : BitVec 3), k.toNat < 5 → (t.ety = 8 ∨ t.ety = 10 ∨ t.ety = 11 ∨ t.ety = 13) →
    let g := groupSize t.ety (2 ^ k.toNat)
    let regs := groupSrcs a g ++ groupSrcs b g
    groupIllegal a g = false → groupIllegal b g = false → (a.isPort && b.isPort) = false →
    (t.ety = 13 → t.cbpois.getLsbD 0 = false ∧ t.cbpois.getLsbD 1 = false) →
    let same := fun (ea eb : List PortEntry) (it : MatItem) => it.ty = t.ety ∧ it.steps = 2 ^ k.toNat ∧ it.ngroup = g ∧
      it.a = s.group t a ea ∧ it.b = s.group t b eb ∧ it.cb0 = vget (vrep 16 0) t.cb 0 ∧ it.cb1 = vget (vrep 16 0) t.cb 1 ∧
      it.undef = regs.foldl (fun m x => m ||| t.deadIn false t.gov x) 0
    (∀ d : BitVec 5, t.check s.cur false false false false (regs.map fun x => (x, t.gov)) = .ok () →
      vget 0 t.accpois (first + d.toNat) &&& t.gov = 0 →
      (full → waits (.mdot d a b k)) ∧
      (¬full → ∀ ea s1 eb s2, s.groupPorts s.cur t a g = .ok (ea, s1) → s1.groupPorts s.cur t b g = .ok (eb, s2) →
        (∀ e ∈ ea ++ eb, e.pois &&& t.gov = 0) →
        queues (.mdot d a b k) s2 t fun it => same ea eb it ∧ it.kind = .mdot ∧ it.acc = first + d.toNat ∧ it.count = 1)) ∧
    (t.check s.cur false false false true (regs.map fun x => (x, t.gov)) = .ok () →
      (full → waits (.mdotp a b 1 k) ∧ (a.isPort = false → b.isPort = false → waits (.mdotp a b 0 k))) ∧
      (¬full → t.isTail = true → ∀ keys, s.sinkKeys s.cur t t.gov = .ok keys → keys = none ∨ (row s).south.length < 8 →
        ∀ ea s1 eb s2, s.groupPorts s.cur t a g = .ok (ea, s1) → s1.groupPorts s.cur t b g = .ok (eb, s2) →
        (∀ e ∈ ea ++ eb, e.pois &&& t.gov = 0) →
        queues (.mdotp a b 1 k) s2 { t with tail := if keys.isSome then t.tail.step else t.tail } fun it =>
          same ea eb it ∧ it.kind = .mdotp ∧ it.count = 0 ∧ ∀ u, exec (.mdotp a b 1 k) s = .next u →
            (row u).south = (row s2).south ++ keys.toList.map fun ks => .reserved it.id (some ks)) ∧
      (¬full → t.isTail = false → ∀ ea s1 eb s2, s.groupPorts s.cur t a g = .ok (ea, s1) →
        s1.groupPorts s.cur t b g = .ok (eb, s2) → (∀ e ∈ ea ++ eb, e.pois &&& t.gov = 0) →
        let gone := (row s).consExited = true
        gone ∨ ((row s).consExited = false ∧ (row s).severedS = false ∧ (row s).south.length < 8) →
        let slot := fun (i : Instr) (r : State) (it : MatItem) => ∀ u, exec i s = .next u →
          (row u).south = (row r).south ++ if (row s).consExited then [] else [.reserved it.id none]
        queues (.mdotp a b 1 k) s2 t (fun it => same ea eb it ∧ it.kind = .mdotp ∧ it.count = 0 ∧
          (∀ l, l < 64 → vget 0 it.cur l = 0) ∧ slot (.mdotp a b 1 k) s2 it) ∧
        ∀ e s3, a.isPort = false → b.isPort = false → s2.readNorth s.cur t true = .ok (e, s3) → e.pois &&& t.gov = 0 →
          queues (.mdotp a b 0 k) s3 t fun it => same ea eb it ∧ it.kind = .mdotp ∧ it.count = 0 ∧
            (∀ l, l < 64 → vget 0 it.cur l = (vget 0 e.v l) &&& 0xFFFFFFFF) ∧ slot (.mdotp a b 0 k) s3 it)))

/-- 06 R159 to R163, R167; 03 R89: MBATCH closes a batch and gives its number; MWAIT waits until no work of the batch
or an earlier one is queued, unless the batch is too old, brings the flags of closed batches up to it into FSTAT and
closes their windows; AGET packs two accumulators outside
every window; LDCB loads sixteen codebook entries, a NaN as the canonical one, behind its row's sink stores to them. -/
def Obligations.BatchesAndAccumulators : Prop := ∀ s : State,
  let t := s.now
  let first := (t.abase - t.ablk) * 32
  (∀ d, CtlReady s [] [] → ∃ u, exec (.mbatch d) s = .next u ∧
    Slot s u (let w := { t with batch := t.batch + 1 }
      if d.nw then w else w.putS d.dr.toNat ((t.batch + 1).setWidth 64)).advance ∧
    Latched s u fun y => y = .scalar ((t.batch + 1).setWidth 64)) ∧
  (∀ a, (Src.bcast a).isSome = true ∨ a.latch.isSome = true ∨ a = ⟨false, false, 31⟩ → CtlReady s [a] [] →
    Sparse.wf RowUnit.empty s.rows = true →
    let n0 := (s.scalar t a).setWidth 32
    let n := if a.l then (if 0 < (n0 - t.batch).toInt then t.batch else n0) else t.batch
    let upTo := fun b : BitVec 32 => b != t.batch + 1 && decide ((b - n).toInt ≤ 0)
    let waits := ∃ i ∈ (s.row (s.cur / 4)).mat, i.done < i.steps ∧ i.seat = s.cur % 4 ∧ upTo i.batch = true
    (¬waits ∨ 2 ^ 31 - 8 ≤ (t.batch - n).toInt → ∃ u, exec (.mwait a) s = .next u ∧ LatchesGone u ∧ Slot { s with rows := u.rows } u
        { t with fstat := t.fstat ||| (t.mflags.filter fun (p : Nat × BitVec 6) => upTo (BitVec.ofNat 32 p.1)).foldl
                   (fun x (p : Nat × BitVec 6) => x ||| p.2) 0
                 mflags := t.mflags.filter fun (p : Nat × BitVec 6) => !upTo (BitVec.ofNat 32 p.1) }.advance ∧
      ∀ i, i ∈ (u.row (s.cur / 4)).mat ↔ i ∈ (s.row (s.cur / 4)).mat ∧ ¬(i.seat = s.cur % 4 ∧ upTo i.batch = true)) ∧
    (waits → (t.batch - n).toInt < 2 ^ 31 - 8 → ∃ u, exec (.mwait a) s = .next u ∧ LatchesGone u ∧
      u.now.status = .parked (.batch n.toNat) ∧ u.now.pc = t.pc ∧ u.now.slot = t.slot ∧ u.now.fstat = t.fstat)) ∧
  (∀ (d : Dst) (a : BitVec 5), t.resident = true → a ≠ 31 → (d.nw = true ∨ d.dr ≠ 31) →
    t.check s.cur false false false (d.isSp false) [] = .ok () →
    (∀ j, j < 2 → vget 0 t.accpois (first + a.toNat + j) &&& t.gov = 0) →
    (∀ i ∈ (s.row (s.cur / 4)).mat, i.seat = s.cur % 4 → ∀ j, j < 2 → i.writes (first + a.toNat + j) = false) →
    let v := fun l => t.ar (first + a.toNat + 1) l ++ t.ar (first + a.toNat) l
    ∃ u, exec (.aget d a) s = .next u ∧
      Slot s u (if d.nw then t else t.putX d.dr.toNat (if t.ezero then BitVec.allOnes 64 else t.gov)
        fun l => if t.gov.getLsbD l then v l else 0).advance ∧
      Latched s u fun y => ∃ e, y = .lane e ∧ ∀ l, t.gov.getLsbD l = true → vget 0 e l = v l) ∧
  (∀ (n : BitVec 2) a k, (Src.bcast a).isSome = true ∨ a.latch.isSome = true → CtlReady s [a] [] →
    s.spadOpen 64 64 true ((s.scalar t a).toNat % 2 ^ 32 : Nat) k →
    (s.sinkMeets (k + 0x20) 32 → exec (.ldcb n a) s = .next { s with stalled := true }) ∧
    (¬s.sinkMeets (k + 0x20) 32 → ∃ u cb, exec (.ldcb n a) s = .next u ∧ LatchesKept s u ∧
      Slot s u { t with cb := vset t.cb n.toNat cb, cbpois := t.cbpois &&& ~~~(1#4 <<< n.toNat) }.advance ∧
      ∀ j, j < 16 → let w := s.spad.byte (k + 0x20 + 2 * j + 1) ++ s.spad.byte (k + 0x20 + 2 * j)
        vget 0 cb j = if w.extractLsb' 7 8 = 0xFF ∧ w.extractLsb' 0 7 ≠ 0 then 0x7FC0 else w))

/-- 06 R169, R173 to R175; 02 R65, R68: PPASS moves an entry from the north to the south, PDROP drops one; PSTAT
reports; TAILCFG sets a tail's sink, a misaligned address trapping as of a slot that executes once for its row (log
32); an unassigned word raises ILLEGAL_OP, and a MOD with reserved bits set waits for its target. PDROP reads no mask,
and an error in the entry it drops is not met (log 42). -/
def Obligations.PortsAndUnassigned : Prop := ∀ s : State, s.now.resident = true →
  let t := s.now
  (∀ e r, s.readNorth s.cur t true = .ok (e, r) →
    (t.check s.cur false false false true [] (masks := []) = .ok () →
      ∃ u, exec .pdrop s = .next u ∧ LatchesKept s u ∧ Slot r u t.advance ∧ u.rows = r.rows) ∧
    (t.check s.cur false false false true [] = .ok () → e.pois &&& t.gov = 0 → t.isTail = false → (s.row (s.cur / 4)).consExited = false → (s.row (s.cur / 4)).severedS = false →
      (r.row (s.cur / 4)).south.length < 8 → ∃ u x, exec .ppass s = .next u ∧ LatchesKept s u ∧
        let row := r.row (s.cur / 4)
        u = { r with seats := u.seats, rows := (r.setRow (s.cur / 4) { row with south := row.south ++ [.filled x] }).rows } ∧
        Slot { r with rows := u.rows } u t.advance ∧ x.act = t.gov ∧
        ∀ l, l < 64 → vget 0 x.v l = if t.gov.getLsbD l then vget 0 e.v l else 0)) ∧
  (t.check s.cur true false false true [] = .ok () → ∀ d, s.readable s.cur t ≤ 16 → ∃ v : Word, Writes (.pstat d) s d v ∧
    (v.extractLsb' 0 5).toNat = s.readable s.cur t ∧
    ((s.row (s.cur / 4)).south.length ≤ 8 → (v.extractLsb' 5 4).toNat = 8 - (s.row (s.cur / 4)).south.length) ∧
    (v.getLsbD 9 = t.isHead) ∧ (v.getLsbD 10 = t.isTail) ∧ (v.getLsbD 11 = (t.isHead && (s.row (s.cur / 4)).feed.isSome)) ∧
    (v.getLsbD 12 = true ↔ (s.row (s.cur / 4)).prodExited = true ∧
      (t.isHead = true ∨ s.cur / 4 % 64 = 0 → (s.row (s.cur / 4)).north = []) ∧
      (t.isHead = false → (s.row (s.cur / 4)).prodGone = false → (s.row (rowAbove (s.cur / 4))).south = [])) ∧
    (v.getLsbD 13 = (s.row (s.cur / 4)).consExited) ∧ (v.getLsbD 14 = (t.isTail && t.tail.on)) ∧
    (v.getLsbD 15 = (!t.isHead && decide (s.cur / 4 % 64 = 0))) ∧ (v.getLsbD 16 = (!t.isTail && decide (s.cur / 4 % 64 = 63))) ∧
    v >>> 17 = 0) ∧
  (∀ a b, (Src.bcast a).isSome = true → (Src.bcast b).isSome = true → CtlReady s [a, b] [] →
    let x := s.scalar t a
    let y := s.scalar t b 1
    let tail := s.cur % 4 = 0 ∧ t.bind.ports = true ∧ t.isTail = true
    (¬tail → Traps (.tailcfg a b) s { code := 0x1C, nottail := true }) ∧
    (tail → x >>> 32 ≠ 0 ∨ y >>> 49 ≠ 0 → Traps (.tailcfg a b) s { code := 0x01 }) ∧
    (tail → x >>> 32 = 0 → y >>> 49 = 0 → (x &&& 7 ≠ 0 → Traps (.tailcfg a b) s { code := 0x12, lanes := 1, addr := x }) ∧
      (x &&& 7 = 0 → y &&& 7 ≠ 0 → Traps (.tailcfg a b) s { code := 0x12, lanes := 1, addr := y &&& 0xFFFFFFFF })) ∧
    (tail → x >>> 32 = 0 → y >>> 49 = 0 → x &&& 7 = 0 → y &&& 7 = 0 →
      Moves (.tailcfg a b) s { t with tail := { a := x, b := y, i := 0, on := y.getLsbD 48 } }.advance)) ∧
  (∀ w : Half, (w.extractLsb' 24 8 ≠ 0xF0 → Traps (.unassignedOpcode w) s { code := 0x01 }) ∧
    (w.extractLsb' 24 8 = 0xF0 → Moves (.unassignedOpcode w) s
      { t with pmod := some (w.setWidth 24), slot := t.slot + 1, pslot := if t.pslot = 0 then t.slot else t.pslot }))

/-! ### What cores and girth units do by themselves -/

/-- 11 R281, R282, R285; 12 R301, R318, R319; 09 R251; 06 R160: a seat skipped sixteen times issues, and its issue
partition idles for a clock; a parked seat whose condition is met wakes as the youngest, and any other stays as it is.
06 R168, R172; 01 R25; 08 R233: the oldest entry of a die's last row crosses where the buffer below has room; a tail's is
stored where its lines are present. 04 R112, R113, R115; 08 R217; 14 R361: a waiting contribution is performed where its
accumulator is open, or one is free and no earlier arrival waits for it; neither it nor a store of a frozen seat's is
performed; and it is reported after 100 µs. The model's choices: an entry is readable nine of the reader's clocks after it
crosses (log 44), a seat that wakes has the latches that its slot found (log 17), a JOIN parks for a fetch (log 96), and
what a contribution's core receives of its write completion time (log 98). -/
def Obligations.SeatsAndPorts : Prop :=
  (∀ (s : State) (k : Fin 16384),
  let t := s.seat k
  let wakesAt := fun (i : Instr) (late : Nat) => ∃ u, exec i s = .next u ∧ u = { s with seats := u.seats } ∧ (∀ j, j ≠ k.val → u.seat j = s.seat j) ∧
    u.seat k = { t.unhold with status := .ready, stamp := (s.core (k.val / 256)).clkc + late }
  let wakes := fun i : Instr => wakesAt i 0
  (t.status = .ready → 16 ≤ t.skip → ∃ u, exec (.forcedIssue k) s = .next u ∧ u.agenda = .issue k :: s.agenda ∧
    u = { s with seats := u.seats, cores := u.cores, agenda := u.agenda } ∧ u.seat k = { t with skip := 0 } ∧
    (∀ j, j ≠ k.val → u.seat j = s.seat j) ∧ (∀ c, c ≠ k.val / 256 → u.core c = s.core c) ∧
    u.core (k.val / 256) = { s.core (k.val / 256) with idleNext := (s.core (k.val / 256)).idleNext ||| (1#8 <<< (k.val / 4 % 8)) }) ∧
  (∀ ls, t.status = .parked (.lines ls) → ((∀ c ∈ ls, s.isAbsent c = false) → wakes (.seatWake k)) ∧
    ((∃ c ∈ ls, s.isAbsent c = true) → exec (.seatWake k) s = .next s)) ∧
  (∀ a g, t.status = .parked (.barrier a g) → (0 < (BitVec.ofNat 32 (s.bar a).gen - g.setWidth 32).toInt → wakes (.seatWake k)) ∧
    ((BitVec.ofNat 32 (s.bar a).gen - g.setWidth 32).toInt ≤ 0 → s.isPois (a / 128) = false → exec (.seatWake k) s = .next s)) ∧
  (∀ n, t.status = .parked (.batch n) →
    let busy := ∃ i ∈ (s.row (k.val / 4)).mat, i.done < i.steps ∧ i.seat = k.val % 4 ∧ (i.batch - BitVec.ofNat 32 n).toInt ≤ 0
    (¬busy → wakes (.seatWake k)) ∧ (busy → exec (.seatWake k) s = .next s)) ∧
  (∀ h q n, t.status = .parked (.ring h) → s.queue t.bind.part h = some q → t.qput = some n →
    (s.hdrHeld q = false → n - s.ridx q < 2 ^ q.log2n → wakes (.seatWake k)) ∧
    (s.hdrHeld q = true ∨ 2 ^ q.log2n ≤ n - s.ridx q → exec (.seatWake k) s = .next s)) ∧
  (∀ c, t.status = .parked (.yield c) → (c < (s.core (k.val / 256)).clkc → wakesAt (.seatWake k) 1) ∧
    ((s.core (k.val / 256)).clkc ≤ c → exec (.seatWake k) s = .next s)) ∧
  (t.status = .parked .fetch → (s.fetchWaits k = false → wakes (.seatWake k)) ∧
    (s.fetchWaits k = true → exec (.seatWake k) s = .next s)) ∧
  (∀ v, t.status = .parked (.sleep v) → (v.toNat ≤ s.time.toNat → wakes (.sleeptWake k)) ∧
    (s.time.toNat < v.toNat → exec (.sleeptWake k) s = .next s) ∧ exec (.seatWake k) s = .next s)) ∧
  (∀ s : State, Sparse.wf RowUnit.empty s.rows = true →
  (∀ (k : Fin 4096) e rest, (s.row k.val).south = .filled e :: rest →
    (k.val % 64 = 63 → k.val / 64 % 32 < 24 → e.sink = none → (s.row k.val).consGone = false →
      (s.row k.val).consExited = false →
      let b := (k.val / 64 + 8) * 64
      let below := s.core (k.val / 64 + 8)
      ((s.row b).north.length < 16 → ∃ u, exec (.portCrossingMove k) s = .next u ∧ u = { s with rows := u.rows } ∧
        u.row k.val = { s.row k.val with south := rest } ∧
        u.row b = { s.row b with north := (s.row b).north ++ [{ e with ready := below.clkc + below.phase / 1000 + 9 }] } ∧
        ∀ r, r ≠ k.val → r ≠ b → u.row r = s.row r) ∧
      (16 ≤ (s.row b).north.length → exec (.portCrossingMove k) s = .next s)) ∧
    (∀ ks, MemOk s → (s.seat (4 * k.val)).isTail = true → e.sink = some ks →
      let stays := exec (.tailSinkStore k) s = .next s
      ((s.seat (4 * k.val)).status = .frozen → stays) ∧ ((∃ x ∈ ks, ∃ c ∈ linesOf x.2 8, s.isAbsent c = true) → stays) ∧
      ((s.seat (4 * k.val)).status ≠ .frozen → (∀ x ∈ ks, ∀ c ∈ linesOf x.2 8, s.isAbsent c = false) →
        ∃ u, exec (.tailSinkStore k) s = .next u ∧
        u = { s with rows := u.rows, spad := u.spad, spois := u.spois } ∧ u.row k.val = { s.row k.val with south := rest } ∧
        (∀ r, r ≠ k.val → u.row r = s.row r) ∧
        u.spad.byte = storeAll 8 (ks.map fun x => (x.2, (vget 0 e.v x.1).toNat)) s.spad.byte ∧
        (Sparse.wf false s.spois = true → ∀ c, u.isPois c = true ↔
          (∃ x ∈ ks, e.pois.getLsbD x.1 = true ∧ c ∈ linesOf x.2 8) ∨
            s.isPois c = true ∧ ¬Covered 8 (ks.map fun x => x.2) 128 c)))) ∧
  (∀ i c, s.contribs[i]? = some c →
    let blocked := s.unitRoom c.addr = false ∨ ∃ o ∈ s.contribs.take i, s.homeOf o.addr = s.homeOf c.addr ∧
      s.accum o.addr = none ∧ s.contribFrozen o = false
    let g := if c.nc then s.time.toNat else max s.time.toNat (s.leaseOf c.addr)
    (s.contribFrozen c = true ↔ (∃ q, c.sid = some q ∧ (s.seat q).status = .frozen) ∨ c.sid = none ∧
      ∃ link dev src va, c.who = .peer link dev src va ∧ (link, dev.toNat) ∈ (s.part c.part).spanFrozen) ∧
    (s.contribFrozen c = true ∨ s.accum c.addr = none ∧ blocked → exec (.faddxContribution i) s = .next s) ∧
    (s.contribFrozen c = false → ∀ a, (s.accum c.addr = some a ∨ s.accum c.addr = none ∧ ¬blocked ∧
        a = ({} : Accum).add (readBytes s.hbyte c.addr 4)) →
      ∃ u, exec (.faddxContribution i) s = .next u ∧ u.contribs = s.contribs.eraseIdx i ∧
        u.accum c.addr = some (a.add c.v.toNat) ∧ (∀ x, x ≠ c.addr → u.accum x = s.accum x) ∧
        u = { s with contribs := u.contribs, accums := u.accums, seats := u.seats, acks := u.acks, cores := u.cores } ∧
        (∀ q, some q ≠ c.sid → u.seat q = s.seat q) ∧ (∀ x, c.sid.map (fun q => q / 256) ≠ some x → u.core x = s.core x) ∧
        (∀ q, c.sid = some q → u.acks = s.acks ∧
          u.seat q = { s.seat q with gwct := some (max g ((s.seat q).gwct.getD 0)) } ∧
          let x := s.core (q / 256)
          (q / 256 < 64 → u.core (q / 256) = { x with gwct := some (max g (x.gwct.getD 0)) })) ∧
        ∀ link dev src va, c.sid = none → c.who = .peer link dev src va →
          u.acks = s.acks ++ [{ part := c.part, va := va, reply := .data 0, due := g + 4 }]) ∧
    (c.part < 8 → c.reported = false → c.since + 100000 ≤ s.time.toNat → ∃ u, exec (.faddxWaitReport i) s = .next u ∧
      u = { s with contribs := s.contribs.set i { c with reported := true }, parts := u.parts } ∧
      (∀ q, q ≠ c.part → u.part q = s.part q) ∧ u.part c.part = { s.part c.part with
        reports := (s.part c.part).reports ++ [.faddx (s.homeOf c.addr) c.addr c.who] }) ∧
    (c.reported = true ∨ s.time.toNat < c.since + 100000 → exec (.faddxWaitReport i) s = .next s)) ∧
  (∀ a : Accum, ∀ v, let x := decodeF f32 v
    (a.add v).q = a.q + BitVec.ofInt 320 (fixedOf x) ∧ ((a.add v).pinf = (a.pinf || decide (x = .inf false))) ∧
      ((a.add v).ninf = (a.ninf || decide (x = .inf true))) ∧ ((a.add v).nan = (a.nan || x.isNan)) ∧
      ((a.add v).negz = (a.negz && decide (x = .zero true)))))

/-- 06 R153, R155 to R157, R164 to R166; 04 R99, R103 to R105; 02 R62: a matrix step moves the oldest item of a row by
one step; AZERO, APUT and ASCL write their accumulators in the lanes of the item; a step of MDOT or MDOTP adds the exact
products of its elements to the running sum, rounds once, and gathers the flags; the last one writes the accumulator, or
fills the slot of the south port. Only lanes that read a dead register are left free, and they raise no flag (log 80). A
zero product of tapered elements counts as positive (the model's reading, log 66). -/
def Obligations.MatrixSteps : Prop := ∀ (s : State) (k : Fin 4096) pre i rest, (s.row k.val).mat = pre ++ i :: rest →
  (∀ j ∈ pre, j.steps ≤ j.done) → i.done < i.steps → (∀ j ∈ pre ++ rest, j.id ≠ i.id) → (s.seat (k.val * 4 + i.seat)).resident = true →
  let sid := k.val * 4 + i.seat
  let t := s.seat sid
  let dot := i.kind = .mdot ∨ i.kind = .mdotp
  let member := fun (g : OpGroup) l => t.member g (if i.ty = 13 then i.done / 2 else i.done) l
  let elems := fun (cb : Vector (BitVec 16) 16) (g : OpGroup) l => (List.range (if i.ty = 10 ∨ i.ty = 13 then 8 else 4)).map fun e =>
    if i.ty = 13 then decodeF (.ieee 8) (vget 0 cb (elem 4 (member g l) (8 * (i.done % 2) + e))).toNat
    else decodeF (fmtOf i.ty) (elem (tyBits i.ty) (member g l) e)
  let sums := fun l (r : Nat × BitVec 6) =>
    let c := decodeF f32 (if i.kind = .mdot ∧ i.done = 0 then (t.ar i.acc l).toNat else (vget 0 i.cur l).toNat)
    let xs := elems i.cb0 i.a l
    let ys := elems i.cb1 i.b l
    SumsTo f32 0 (c :: xs ++ ys) ((xs.zip ys).any fun p => p.1.clash p.2) (c.term :: (xs.zip ys).map fun p =>
      let z := p.1.term.times p.2.term
      if isTap i.ty && z.q = 0 && !z.inf then { z with neg := false } else z) r
  let gathers := fun (fx : Nat → BitVec 6) (lanes : Word) (fl : BitVec 6) => ∀ j, j < 6 → (fl.getLsbD j = true ↔
    i.flags.getLsbD j = true ∨ ∃ l, l < 64 ∧ lanes.getLsbD l = true ∧ (fx l).getLsbD j = true)
  let sure := i.mask &&& ~~~i.undef
  let closes := fun (u : State) (fl : BitVec 6) => ∀ j, j < 6 → ((u.seat sid).mfl.getLsbD j = true ↔
    t.mfl.getLsbD j = true ∨ fl.getLsbD j = true)
  (dot → i.done + 1 < i.steps → ∃ u it fx, exec (.matrixStep k) s = .next u ∧ u = { s with rows := u.rows } ∧
    (∀ r, r ≠ k.val → u.row r = s.row r) ∧ (u.row k.val).mat = pre ++ it :: rest ∧ (u.row k.val).south = (s.row k.val).south ∧
    it.done = i.done + 1 ∧ it.steps = i.steps ∧ it.id = i.id ∧ it.mask = i.mask ∧ it.undef = i.undef ∧
    (∀ l, l < 64 → i.mask.getLsbD l = true → (vget 0 it.cur l) >>> 32 = 0 ∧ sums l ((vget 0 it.cur l).toNat, fx l)) ∧
    gathers fx sure it.flags) ∧
  (i.done + 1 = i.steps →
    (i.kind ≠ .mdotp → (dot → i.count = 1) → ∃ u fl fx, ∃ fy : Nat → Nat → BitVec 6,
      exec (.matrixStep k) s = .next u ∧ u = { s with rows := u.rows, seats := u.seats, freeCtr := u.freeCtr } ∧ (∀ q, q ≠ sid → u.seat q = s.seat q) ∧
      (∀ r, r ≠ k.val → u.row r = s.row r) ∧ (u.row k.val).south = (s.row k.val).south ∧
      (u.seat sid).x = t.x ∧ (u.seat sid).s = t.s ∧ (u.seat sid).fstat = t.fstat ∧
      (∀ n l, n < 128 → l < 64 → i.undef.getLsbD l = false →
        if i.writes n && i.mask.getLsbD l then match i.kind with
          | .azero => (u.seat sid).ar n l = 0
          | .aput => (u.seat sid).ar n l = (if n = i.acc then vget 0 i.cur l else vget 0 i.cur l >>> 32).setWidth 32
          | .ascl => let x := decodeF f32 (t.ar n l).toNat
            let y := decodeF f32 ((vget 0 i.cur l).toNat % 2 ^ 32)
            SumsTo f32 0 [x, y] (x.clash y) [x.term.times y.term] (((u.seat sid).ar n l).toNat, fy n l)
          | _ => sums l (((u.seat sid).ar n l).toNat, fx l)
        else (u.seat sid).ar n l = t.ar n l) ∧
      (∀ n l, n < 128 → l < 64 → i.mask.getLsbD l = false ∨ i.writes n = false → (u.seat sid).ar n l = t.ar n l) ∧
      (dot → gathers fx sure fl ∧ closes u fl) ∧ (i.kind = .azero ∨ i.kind = .aput → closes u i.flags) ∧
      (i.kind = .ascl → closes u fl ∧ ∀ j, j < 6 → (fl.getLsbD j = true ↔ i.flags.getLsbD j = true ∨
        ∃ n l, n < 128 ∧ l < 64 ∧ i.writes n = true ∧ sure.getLsbD l = true ∧ (fy n l).getLsbD j = true))) ∧
    (i.kind = .mdotp → i.count = 0 → t.isTail = false →
      ∀ before after, (s.row k.val).south = before ++ .reserved i.id none :: after →
      (∀ x ∈ before ++ after, ∀ ks, x ≠ .reserved i.id ks) → ∃ u e fl fx, exec (.matrixStep k) s = .next u ∧
        u = { s with rows := u.rows, seats := u.seats, freeCtr := u.freeCtr } ∧ (u.seat sid).acc = t.acc ∧
        (u.seat sid).x = t.x ∧ gathers fx sure fl ∧ closes u fl ∧
        (if (s.row k.val).consExited || (s.row k.val).severedS then (u.row k.val).south = before ++ after
          else (u.row k.val).south = before ++ .filled e :: after) ∧ e.act = i.mask ∧
        ∀ l, l < 64 → i.undef.getLsbD l = false → if i.mask.getLsbD l then
          (vget 0 e.v l) >>> 32 = 0 ∧ sums l ((vget 0 e.v l).toNat, fx l) else vget 0 e.v l = 0) ∧
    (i.kind = .mdotp → i.count = 0 → i.seat = 0 → t.isTail = true → t.status ≠ .frozen → MemOk s →
      ∀ ks, (s.row k.val).south = [.reserved i.id (some ks)] →
      let present := ∀ x ∈ ks, ∀ c ∈ linesOf x.2 8, s.isAbsent c = false
      ∃ u, ∃ v : Nat → Word, ∃ fx : Nat → BitVec 6, exec (.matrixStep k) s = .next u ∧ (u.seat sid).acc = t.acc ∧ (u.seat sid).x = t.x ∧
        u = { s with rows := u.rows, seats := u.seats, freeCtr := u.freeCtr, spad := u.spad, spois := u.spois } ∧
        (∀ l, l < 64 → i.undef.getLsbD l = false → if i.mask.getLsbD l then
          (v l : Word) >>> 32 = 0 ∧ sums l ((v l).toNat, fx l) else v l = 0) ∧
        (present → (u.row k.val).south = [] ∧
          u.spad.byte = storeAll 8 (ks.map fun x => (x.2, (v x.1).toNat)) s.spad.byte) ∧
        (¬present → u.spad = s.spad ∧ ∃ e : PortEntry, (u.row k.val).south = [.filled e] ∧ e.act = i.mask ∧
          e.sink = some ks ∧ ∀ l, l < 64 → vget 0 e.v l = v l)))

/-! ### Queues and engines (09) -/

/-- 09 R254, R256, R263; 12 R311; 13 R320, R336; 14 R362, R365: what registering a queue captures, the errors of its reads
met; a header with a reserved field set (log 84) or a poisoned one (log 85) is not registered. What clearing a halt does,
CODE staying (log 21). A submission from outside stores its packet at WIDX and moves WIDX, and halts the queue where that
is out of range (log 73). A counter's freeze cleared drops the task that it has frozen at. Each comes through the control
port, refused where that takes no command (log 71), and is brought again while the header takes no access (logs 9, 99):
these are the model's choices. -/
def Obligations.QueueUpkeep : Prop := ∀ (s : State) (p : Fin 8) (hdr : Word), MemOk s →
  let refused := { s with module := { s.module with out := s.module.out ++ [.refused] } }
  let r := s.metHeader p hdr
  let waits := r.hdrOpen p hdr = false ∨ r.walksWait p hdr = true
  (s.hue = [] → r = s) ∧
  (r.hdrOpen p hdr = true ↔ ∃ pa, r.physOf p hdr = some pa ∧ ∀ a ∈ [pa, pa + 32], r.held a = false ∧
    r.fenced.getLsbD (paStack a / 3) = false) ∧
  (s.commanded = false → ∀ pkt w n, ∀ i ∈ [Instr.queueRegister p hdr, .queueHaltClear p hdr, .extQueueSubmit p hdr pkt w,
    .counterFrozenClear p n], exec i s = .next refused) ∧
  (s.commanded = true →
    ((s.part p).en = false → exec (.queueRegister p hdr) s = .next s) ∧
    ((s.part p).en = true → (waits → exec (.queueRegister p hdr) s = .next r) ∧
      (∀ c, r.capture p hdr = some c → c.hdr = hdr ∧ hdr &&& 63 = 0 ∧ c.base &&& 63 = 0 ∧ 2 ≤ c.log2n ∧ c.log2n ≤ 16 ∧
        r.physOf p hdr = some c.pa ∧ c.base = BitVec.ofNat 64 (readBytes r.hbyte c.pa 8) ∧ c.kind = r.hbyte (c.pa + 9) ∧
        c.kind.toNat % 4 ≠ 3 ∧ c.kind.extractLsb' 2 5 = 0 ∧ r.hbyte (c.pa + 0x0B) = 0 ∧
        (∀ j, j < 16 → r.hbyte (c.pa + 0x30 + j) = 0) ∧ (c.kind.toNat % 4 = 0 → c.engine = 0) ∧
        r.secPois c.pa = false ∧ r.secPois (c.pa + 32) = false ∧ c.engine = r.hbyte (c.pa + 10) ∧
        (¬waits → r.queue p hdr = none →
          exec (.queueRegister p hdr) s = .next (r.setPart p { r.part p with queues := (r.part p).queues ++ [c] }))) ∧
      (r.queue p hdr ≠ none ∨ r.capture p hdr = none → exec (.queueRegister p hdr) s = .next r)) ∧
    (s.queue p hdr = none → exec (.queueHaltClear p hdr) s = .next s) ∧
    (∀ q, s.queue p hdr = some q →
      (r.hdrHeld q = true ∨ r.walksWait p hdr = true → exec (.queueHaltClear p hdr) s = .next r) ∧
      (r.hdrHeld q = false → r.walksWait p hdr = false → ∃ u, exec (.queueHaltClear p hdr) s = .next u ∧
        u = { r with hbm := u.hbm, hpois := u.hpois, hue := u.hue, parts := u.parts, elided := u.elided } ∧
        (∀ x, x < q.pa + 0x0C ∨ q.pa + 0x10 ≤ x → u.hbyte x = r.hbyte x) ∧
        readBytes u.hbyte (q.pa + 0x0C) 4 = readBytes r.hbyte (q.pa + 0x0C) 4 / 2 * 2 ∧
        (∀ k, k ≠ p.val → u.part k = r.part k) ∧ ∃ q', u.queue p hdr = some q' ∧ q'.stalled = false ∧ q'.told = none ∧
          q'.frozen = q.frozen ∧ q'.run = q.run ∧ q'.pa = q.pa ∧ ∀ c, r.capture p hdr = some c → q'.base = c.base ∧
            q'.log2n = c.log2n ∧ q'.pages = c.pages ∧ q'.kind = c.kind ∧ q'.engine = c.engine) ∧
      ∀ pkt w, ((s.part p).en = false ∨ q.ext = false → exec (.extQueueSubmit p hdr pkt w) s = .next s) ∧
        ((s.part p).en = true → q.ext = true → let fenced := s.hdrFenced q = true ∨ s.slotFenced q (s.widx q) = true
          let held := s.hdrHeld q = true ∨ s.slotHeld q (s.widx q) = true
          (fenced → exec (.extQueueSubmit p hdr pkt w) s = .next refused) ∧
          (¬fenced → held → exec (.extQueueSubmit p hdr pkt w) s = .next s) ∧
          (¬fenced → ¬held → (q.slotPa (s.widx q) + 64 ≤ q.pa ∨ q.pa + 64 ≤ q.slotPa (s.widx q)) →
            let at' := q.back.getD (s.ridx q)
            let bad := w.toNat < at' ∨ at' + 2 ^ q.log2n < w.toNat
            ∃ u, exec (.extQueueSubmit p hdr pkt w) s = .next u ∧ u.widx q = w.toNat ∧ u.ridx q = s.ridx q ∧
              u = { s with hbm := u.hbm, hpois := u.hpois, hue := u.hue, parts := u.parts, elided := u.elided } ∧
              (∀ k, k < 8 → vget 0 (u.slotPacket q (s.widx q)) k = vget 0 pkt k) ∧
              (¬bad → u.parts = s.parts ∧ u.status q = s.status q) ∧
              (bad → s.halted q = false → u.status q = s.status q / 2 % 2 * 2 + 1 + 0x0A * 256 ∧
                (u.part p).reports = (s.part p).reports ++ [.halt hdr (s.ridx q) 0x0A])))) ∧
    ∀ n : Fin 4096, let c := s.counter p n
      (c.frozen = false → exec (.counterFrozenClear p n) s = .next s) ∧
      (c.frozen = true → (if c.atTask then c.pend.tail else c.pend) = [] → Sparse.wf {} (s.part p).counters = true →
        let c' := { c with frozen := false, atTask := false, pend := [], hold := false, told := none }
        exec (.counterFrozenClear p n) s = .next (s.setPart p { s.part p with
          counters := Sparse.set {} (s.part p).counters n c' })))

/-- 09 R257 to R260, R263; 06 R170; 07 R185; 08 R223; 13 R331, R337: a copy engine accepts the packet at RIDX, or halts
with the lowest code; it moves one row of a COPY, FILL or GATHER at a time (log 48), to or from a peer by one access for
each eight bytes (log 67), and pushes one row of a FEED into its head's port; RELEASE and LANDED take their targets, a
barrier's on an absent line too (log 56), and the packet that has both is done. A violation freezes the packet, with
RIDX back at it (log 49); a page not present is reported, and the packet goes on once it is mapped; a fenced die halts
the queue (log 68), and so does a slot on one, or (the model's choice, log 85) a poisoned slot. Acceptance acquires, and
both targets wait for its core's write completion time (the model's reading of 08 R211, log 98). -/
def Obligations.CopyEngines : Prop := ∀ s : State, MemOk s → Sparse.wf none s.packets = true →
  (∀ (p : Fin 8) hdr q i kind, s.queue p hdr = some q → q.sort = 1 →
    (i, kind) ∈ [(Instr.copy p hdr, 1), (.feed p hdr, 2), (.fill p hdr, 3), (.gather p hdr, 4)] →
    let r := s.metQueue q
    (s.hue = [] → r = s) ∧
    let halts := fun c => ∃ u, exec i s = .next u ∧ u.status q = r.status q / 2 % 2 * 2 + 1 + c * 256 ∧ u.ridx q = r.ridx q ∧
      (u.part p).reports = (r.part p).reports ++ [.halt hdr (r.ridx q) c] ∧ u.packets = s.packets
    (s.moving p hdr = none → kind = 1 → ∀ c, r.offer q = .code c → halts c) ∧
    (∀ k, s.moving p hdr = none → r.offer q = .packet k → pktKind k = kind ∨ kind = 1 ∧ (pktKind k = 0 ∨ 4 < pktKind k) →
      let cut := ∃ c, q.core = some c ∧ r.fenced.getLsbD (c / 8) = true
      let bound := ∃ c h, kind = 2 ∧ q.core = some c ∧ r.feedHead p c k = some h ∧ (r.row h).feed ≠ none
      (∀ c, Lowest (r.copyFails p q k) c → halts c) ∧
      ((∀ c, ¬r.copyFails p q k c) →
        (∀ c cs a, r.targetsCheck q k = .vio c cs a → ∃ u, exec i s = .next u ∧ u.ridx q = r.ridx q ∧ u.packets = s.packets ∧
          u.queue p hdr = some { q with frozen := true } ∧ ((r.part p).vring.length < 64 → ∃ v : VioRec,
            (u.part p).vring = (r.part p).vring ++ [v] ∧ v.code = c ∧ v.codes = cs ∧ v.addr = a ∧ v.mkind = 1 ∧
            v.owner = hdr ∧ v.pc = BitVec.ofNat 64 (r.ridx q))) ∧
        (r.targetsCheck q k = .ok () → cut ∨ bound → exec i s = .next r)) ∧
      ((∀ c, ¬r.copyFails p q k c) → r.targetsCheck q k = .ok () → ¬cut → ¬bound → r.ridx q + 1 < 2 ^ 64 →
        ∃ u pk, exec i s = .next u ∧ u.packet s.nextPacket = some pk ∧ u.nextPacket = s.nextPacket + 1 ∧ u.ridx q = r.ridx q + 1 ∧
          pk.part = p ∧ pk.hdr = hdr ∧ pk.slot = r.ridx q ∧ pk.pkt = k ∧ pk.core = q.core ∧ pk.row = 0 ∧ pk.released = false ∧
          pk.landed = false ∧ pk.fault = false ∧ pk.frozen = false ∧ pk.gidx = none ∧
          (∀ c, q.core = some c → pk.acq = (r.core c).gwct) ∧ (q.core = none → pk.acq = none) ∧
          (∀ n, n ≠ s.nextPacket → u.packet n = s.packet n) ∧
          (∀ c h, kind = 2 → q.core = some c → r.feedHead p c k = some h → (u.row h).feed = some s.nextPacket ∧ pk.head = some h) ∧
          (∀ c, kind ≠ 2 → pktDsp k = true → q.core = some c → ∀ l ∈ r.dstLines c k, u.isAbsent l = true) ∧
          u = { r with hbm := u.hbm, hpois := u.hpois, hue := u.hue, parts := u.parts, absent := u.absent
                       rows := u.rows, packets := u.packets, nextPacket := u.nextPacket, elided := u.elided })) ∧
    ∀ n k, s.moving p hdr = some (n, k) → pktKind k.pkt = kind → k.fault = false → k.frozen = false → s.rowsHeld k = false →
      (∀ idx src dst, (kind = 4 → ∃ x, s.idxSide k = .ok (some x) ∧ x.isPeer = false ∧ s.sideClean 4 x ∧
          idx = (s.sideBytes 4 x).foldr (fun b v => b.toNat + 256 * v) 0) → s.rowSrc k idx = .ok src → s.rowDst k = .ok dst →
        (∀ x, src = some x → x.isPeer = false ∧ s.sideClean (pktLen k.pkt) x) →
        let bytes := match src with
          | some x => s.sideBytes (pktLen k.pkt) x
          | none => (List.range (pktLen k.pkt)).map fun j => BitVec.ofNat 8 (pktField k.pkt (8 + j % 8) 1)
        let marks := match src with
          | some x => s.sideMarks (pktLen k.pkt) x
          | none => []
        let stores := ((dst.bytes (pktLen k.pkt)).zip bytes).map fun x => (x.1, x.2.toNat)
        let does := fun (F : State → Packet → Prop) => ∃ u pk, exec i s = .next u ∧ u.packet n = some pk ∧ pk.row = k.row + 1 ∧
          pk.pkt = k.pkt ∧ pk.slot = k.slot ∧ pk.released = k.released ∧ pk.landed = k.landed ∧
          (∀ m, m ≠ n → u.packet m = s.packet m) ∧ F u pk
        (∀ key, dst = .spad key → does fun u _ => u.spad.byte = storeAll 1 stores s.spad.byte ∧
          u = { s with spad := u.spad, spois := u.spois, absent := u.absent, packets := u.packets, elided := u.elided }) ∧
        (∀ ps, dst = .mem ps → does fun u pk => u.hbyte = storeAll 1 stores s.hbyte ∧
          (∀ a ∈ dst.bytes (pktLen k.pkt), s.leaseOf a ≤ pk.waitE) ∧ k.waitE ≤ pk.waitE ∧ u = { s with
            hbm := u.hbm, hpois := u.hpois, hue := u.hue, packets := u.packets, elided := u.elided }) ∧
        ∀ va rs rest, dst = .peer va → kind ≠ 4 → rs.length = pktLen k.pkt / 8 → (∀ x ∈ rs, ∃ w, x = .data w) →
          s.peerReplies = rs ++ rest → does fun u _ => u.spanOut = s.spanOut ++ (List.range rs.length).map (fun j =>
              s.frame p (va + BitVec.ofNat 64 (8 * j)) (.store 3 (BitVec.ofNat 64
                ((List.range 8).foldr (fun b v => (bytes.getD (8 * j + b) 0).toNat + 256 * v) 0))
                ((List.range 8).any fun b => marks.getD (8 * j + b) false)) (rs.getD j .retry)) ∧
            u = { s with peerReplies := rest, spanOut := u.spanOut, packets := u.packets, elided := u.elided }) ∧
      (kind ≠ 4 → ∀ a, (s.rowSrc k 0).both (s.rowDst k) = .fault a → ∃ u, exec i s = .next u ∧
        u.packet n = some { k with fault := true, told := some a } ∧ (∀ m, m ≠ n → u.packet m = s.packet m) ∧
        u = { s with packets := u.packets, parts := u.parts, elided := u.elided } ∧ (u.part p).reports = (s.part p).reports ++
          if k.told = some a then [] else [.fault hdr k.slot a]) ∧
      (kind ≠ 4 → ∀ c cs a, (s.rowSrc k 0).both (s.rowDst k) = .vio c cs a → k.slot < s.ridx q → s.ridx q < 2 ^ 64 →
        ∃ u q', exec i s = .next u ∧ u.packet n = some { k with frozen := true } ∧ (∀ m, m ≠ n → u.packet m = s.packet m) ∧
          u.ridx q = k.slot ∧ u.doneIdx q = s.doneIdx q ∧ u.queue p hdr = some q' ∧ q'.frozen = true ∧
          q'.back = some (q.back.getD (s.ridx q)) ∧ ((s.part p).vring.length < 64 → ∃ v : VioRec,
            (u.part p).vring = (s.part p).vring ++ [v] ∧ v.code = c ∧ v.codes = cs ∧ v.addr = a ∧ v.mkind = 1 ∧
            v.owner = hdr ∧ v.pc = BitVec.ofNat 64 k.slot))) ∧
  (∀ (h : Fin 4096) n k x, (s.row h).feed = some n → s.packet n = some k → k.fault = false → k.frozen = false →
    k.row < pktRows k.pkt → (s.row h).north.length < 16 → s.rowsHeld k = false → s.rowSrc k 0 = .ok (some x) →
    s.sideClean (pktLen k.pkt) x →
    ∃ u e pk, exec (.feedEntryPush h) s = .next u ∧ (u.row h).north = (s.row h).north ++ [e] ∧ e.act = BitVec.allOnes 64 ∧
      (∀ l j, l < 64 → j < 8 → (vget 0 e.v l).extractLsb' (8 * j) 8 = (s.sideBytes (pktLen k.pkt) x).getD (8 * l + j) 0) ∧
      u.packet n = some pk ∧ pk.row = k.row + 1 ∧ pk.pkt = k.pkt ∧ (∀ r, r ≠ h.val → u.row r = s.row r) ∧
      u = { s with rows := u.rows, packets := u.packets, elided := u.elided }) ∧
  (∀ n k, s.packet n = some k → s.packetHeld k = false →
    (∀ i w done, (i = .release n ∧ w = pktWord k.pkt 0x28 ∧ k.released = false ∧ k.readAll = true ∧ k.landed = false ∧
          (∀ g, k.acq = some g → g + 4 ≤ s.time.toNat) ∧ done = { k with released := true }) ∨
        (i = .landed n ∧ w = pktWord k.pkt 0x30 ∧ k.landed = false ∧ s.landable n k = true ∧ k.released = false ∧ k.head = none ∧
          done = { k with landed := true }) →
      (targetKind w = 0 → exec i s = .next (s.setPacket n (some done))) ∧
      (targetKind w = 2 → ∃ u, exec i s = .next u ∧
        u = (s.setPacket n (some done)).decrement k.part (w.extractLsb' 0 12).toNat) ∧
      (∀ c key, targetKind w = 1 → k.core = some c → s.engineDecode c (w.setWidth 32).toNat = .ok key →
        s.isPois (key / 128) = false → let b := s.bar key
        pktBytes k.pkt < b.pendb → ∃ u, exec i s = .next u ∧ u.packet n = some done ∧
          u = { s with packets := u.packets, spad := u.spad, spois := u.spois } ∧
          u.bar key = { b with pendb := b.pendb - pktBytes k.pkt, st := true
                               cur := if b.st then b.cur else s.time.toNat % 2 ^ 32 })) ∧
    (∀ q i, (i = .release n ∧ k.landed = true ∧ k.released = false ∧ k.readAll = true ∧
          (∀ g, k.acq = some g → g + 4 ≤ s.time.toNat) ∧ targetKind (pktWord k.pkt 0x28) = 0) ∨
        (i = .landed n ∧ k.released = true ∧ k.landed = false ∧ s.landable n k = true ∧ k.head = none ∧
          targetKind (pktWord k.pkt 0x30) = 0) → k.pois = [] →
      s.queue k.part k.hdr = some q → s.doneIdx q + 1 < 2 ^ 64 →
      ∃ u, exec i s = .next u ∧ u.packet n = none ∧ u.doneIdx q = s.doneIdx q + 1 ∧
        u = { s with packets := u.packets, hbm := u.hbm, hpois := u.hpois, hue := u.hue, elided := u.elided }) ∧
    (∀ g, k.acq = some g → s.time.toNat < g + 4 → exec (.release n) s = .next s ∧ exec (.landed n) s = .next s) ∧
    (k.fault = false → exec (.copyFaultResume n) s = .next s) ∧
    ∀ q, k.fault = true → s.queue k.part k.hdr = some q →
      (s.halted q = true → exec (.copyFaultResume n) s = .next s) ∧
      (s.halted q = false →
        ((∃ x, s.rowState k = .ok x) ∨ s.rowState k = .wait ∨ (∃ c cs a, s.rowState k = .vio c cs a) →
          exec (.copyFaultResume n) s = .next (s.setPacket n (some { k with fault := false, told := none }))) ∧
        (∀ c, s.rowState k = .code c → exec (.copyFaultResume n) s = .next s) ∧
        ∀ a, s.rowState k = .fault a → ∃ u, exec (.copyFaultResume n) s = .next u ∧
          u.packet n = some { k with fault := true, told := some a } ∧ u = { s with packets := u.packets, parts := u.parts, elided := u.elided } ∧
          (k.part < 8 → (u.part k.part).reports = (s.part k.part).reports ++
            if k.told = some a then [] else [.fault k.hdr k.slot a])))

/-- 09 R261, R262, R263; 04 R112, R114; 08 R217, R227; 12 R314; 14 R362: the girth command at the head of its queue or
task stream is performed, all its elements read before any is written (log 57), each with the roundings of R262 or, for
XCLOSE, with its accumulator closed; a command is done 4 ns past its last lease. Its ranges are judged by their virtual
addresses, and its pages before whether they lie on the stack (logs 57, 86). A bad packet halts the queue, or is
refused, with the lowest code that it fails; a page not present is reported, and a violation freezes the queue, or the
counter whose task it is. -/
def Obligations.GirthCommands : Prop := ∀ (s : State) (p : Fin 8) (src : GirthSrc) i cmd, MemOk s →
  (i, cmd) ∈ [(Instr.axpy p src, 0x10), (.scale p src, 0x11), (.momentum p src, 0x12), (.adamw p src, 0x13),
    (.girthZero p src, 0x14), (.xclose p src, 0x15)] →
  let clean := fun (s1 : State) (k : Vector Word 8) => cmd < 0x14 → ∀ j, j < pktField k 4 4 → ∀ a ∈ s1.elemPas p k j,
    s1.secUE a = false ∧ s1.secPois a = false
  let performed := fun (s1 u : State) (k : Vector Word 8) (e : Nat) =>
    u.hbyte = storeAll 4 ((List.range (pktField k 4 4)).flatMap (s1.girthStores p k)) s1.hbyte ∧ s1.time.toNat ≤ e ∧
    (∀ j, j < pktField k 4 4 → ∀ w ∈ s1.girthStores p k j, s1.leaseOf w.1 ≤ e) ∧
    (cmd ≠ 0x15 → u.accums = s1.accums) ∧
    (cmd = 0x15 → Sparse.wf none s1.accums = true → ∀ x, u.accum x =
      if (List.range (pktField k 4 4)).any fun j => s1.elemPa p (pktWord k 8) j == x then none else s1.accum x)
  let violates := fun (r u : State) (c : Nat) (cs : BitVec 16) (a : Word) (kind : Nat) => (r.part p).vring.length < 64 →
    ∃ v : VioRec, (u.part p).vring = (r.part p).vring ++ [v] ∧ v.code = c ∧ v.codes = cs ∧ v.addr = a ∧ v.mkind = kind
  (∀ hdr q, src = .queue hdr → s.queue p hdr = some q → q.sort = 2 →
    let m := s.metQueue q
    let halts := fun (r : State) c => ∃ u, exec i s = .next u ∧
      u.status q = r.status q / 2 % 2 * 2 + 1 + c * 256 ∧ u.ridx q = r.ridx q ∧
      (u.part p).reports = (r.part p).reports ++ [.halt hdr (r.ridx q) c]
    let ok := decide (q.engine.toNat < 24) && (s.part p).dies.getLsbD (q.engine.toNat / 3)
    (q.run = none → cmd = 0x10 → ∀ c, m.offer { q with stalled := false } = .code c → halts m c) ∧
    (∀ k, q.run = none → m.offer { q with stalled := false } = .packet k →
      pktKind k = cmd ∨ cmd = 0x10 ∧ (pktKind k < 0x10 ∨ 0x15 < pktKind k) →
      let r := if (girthCodes k (s.stackOk p q)).isEmpty then m.metGirth p k else m
      let verdict := r.girthCheck p q.stack (s.stackOk p q) k
      (s.hue = [] → r = s) ∧
      (∀ c, Lowest (girthFails k ok) c → halts r c) ∧
      ((∀ c, ¬girthFails k ok c) → ∀ c, verdict = .code c → c < 256 → halts r c ∧
        (c = 0x0C ∨ c = 0x08 ∧ ∃ x ∈ girthRanges k, ∃ b ∈ pagesOf x.1.toNat x.2.1,
          (r.physOf p (BitVec.ofNat 64 b)).map paStack ≠ some q.stack)) ∧
      (verdict = .ok () → r.fenced.getLsbD (stackDie q.stack) = true → halts r 0x0C) ∧
      (∀ a, verdict = .fault a → ∃ u, exec i s = .next u ∧ u = { r with parts := u.parts, elided := u.elided } ∧
        u.queue p hdr = some { q with stalled := true, told := some a } ∧
        (u.part p).reports = (r.part p).reports ++ if q.told = some a then [] else [.fault hdr (r.ridx q) a]) ∧
      (∀ c cs a, verdict = .vio c cs a → ∃ u, exec i s = .next u ∧ u = { r with parts := u.parts, elided := u.elided } ∧
        u.queue p hdr = some { q with frozen := true } ∧ violates r u c cs a 2) ∧
      (verdict = .wait → exec i s = .next r) ∧
      (verdict = .ok () → r.fenced.getLsbD (stackDie q.stack) = false → (r.stack q.stack).hBusy = false →
        let s1 := r.stepRidx q
        clean s1 k → ∃ u e, exec i s = .next u ∧ performed s1 u k e ∧
          u.queue p hdr = some { q with
            stalled := false, told := none, run := some { done := BitVec.ofNat 32 (pktField k 0x20 4), waitE := e } } ∧
          u = { r with hbm := u.hbm, hpois := u.hpois, hue := u.hue, parts := u.parts, accums := u.accums
                       elided := u.elided })) ∧
    (∀ r, q.run = some r → (s.time.toNat < r.waitE + 4 ∨ s.hdrHeld q = true → exec i s = .next s) ∧
      (r.waitE + 4 ≤ s.time.toNat → s.hdrHeld q = false → r.done.getLsbD 31 = false → s.doneIdx q + 1 < 2 ^ 64 →
        ∃ u, exec i s = .next u ∧ u.queue p hdr = some { q with run := none } ∧ u.doneIdx q = s.doneIdx q + 1 ∧
        u = { s with hbm := u.hbm, hpois := u.hpois, hue := u.hue, parts := u.parts, elided := u.elided }))) ∧
  (∀ st t rest, src = .task st → (s.part p).tasks = t :: rest → t.stack = st →
    (t.run = none → pktKind t.pkt = cmd → (s.stack st).hBusy = false →
      let r := s.metGirth p t.pkt
      let verdict := r.girthCheck p st true t.pkt
      (s.hue = [] → r = s) ∧ (∀ c, Lowest (girthFails t.pkt true) c → verdict = .code c) ∧
      (verdict = .ok () → clean r t.pkt → ∃ u e, exec i s = .next u ∧ performed r u t.pkt e ∧
        (u.part p).tasks = { t with run := some { done := BitVec.ofNat 32 (pktField t.pkt 0x20 4), waitE := e } } :: rest ∧
        u = { r with hbm := u.hbm, hpois := u.hpois, hue := u.hue, parts := u.parts, accums := u.accums
                     elided := u.elided }) ∧
      (∀ c, verdict = .code c → ∃ u, exec i s = .next u ∧ u = { r with parts := u.parts } ∧ (u.part p).tasks = rest ∧
        u.counter p t.counter = { s.counter p t.counter with err := true } ∧
        (u.part p).reports = (r.part p).reports ++ [.counter t.counter c]) ∧
      (∀ a, verdict = .fault a → ∃ u, exec i s = .next u ∧ u = { r with parts := u.parts, elided := u.elided } ∧
        (u.part p).tasks = { t with told := some a } :: rest ∧
        (u.part p).reports = (r.part p).reports ++ if t.told = some a then [] else [.fault 0 t.counter a]) ∧
      (∀ c cs a, verdict = .vio c cs a → ∃ u, exec i s = .next u ∧ u = { r with parts := u.parts } ∧ (u.part p).tasks = rest ∧
        u.counter p t.counter = { s.counter p t.counter with
          pend := t.task :: (s.counter p t.counter).pend, frozen := true, atTask := true } ∧ violates r u c cs a 4) ∧
      (verdict = .wait → exec i s = .next r)) ∧
    (∀ r, t.run = some r → (s.time.toNat < r.waitE + 4 → exec i s = .next s) ∧
      (r.waitE + 4 ≤ s.time.toNat → r.done.getLsbD 31 = false →
        exec i s = .next (s.setPart p { s.part p with tasks := rest }))))

/-! ### Launches (10) -/

/-- 10 R264, R265, R271 to R276, R279, R280, R394; 13 R331, R332; 14 R354, R365: a launch is accepted from the queue
whose turn it is, or halts it with the lowest of the codes of R265; strings are placed at the first LAUNCH_PLACE that
finds room by the rules of R272, one placement after another at once, each row starting as R273 has it, but on no fenced
die; a page not present is reported and waited for, and a violation freezes the queue. A spawn bin's timer makes a pending
row, which is placed with its lanes' arguments and has acquired what its core's rows stored; a drained row's seat is free,
and a launch without rows is done, its serial numbers with it. The model's choices: placements follow at once (log 19),
none on a fenced die (log 90), a launch's code is looked for before its bridle's pages (log 86), a packet that is
rejected, stalled or frozen counts as taken for the rotation (log 103), RIDX stays past an accepted launch that freezes
(log 50), a slot that is poisoned halts its queue (log 85), a row starts with its core's write completion time (log 98). -/
def Obligations.LaunchesRun : Prop := ∀ s : State, MemOk s →
  let start := fun (t : Seat) (l : Launch) (string srow role ablk lanes : Nat) => t.status = .ready ∧ t.pc = l.entry ∧ t.slot = 1 ∧
    t.bind.part = l.part ∧ t.bind.lid = l.lid ∧ t.bind.string = string ∧ t.bind.srow = srow ∧ t.bind.role = role ∧
    t.ablk = ablk ∧ t.nblk = l.acc ∧ t.hl = false ∧ t.exited = 0 ∧ t.tvec = (s.part l.part).tvecdef ∧
    t.sr 0 = l.arg ∧ t.sr 1 = BitVec.ofNat 64 srow ∧ t.sr 2 = BitVec.ofNat 64 string ∧ t.sr 3 = BitVec.ofNat 64 role ∧
    t.sr 4 = l.lid ∧ (∀ n, 4 < n → n < 31 → t.sr n = 0) ∧ t.mode = BitVec.ofNat 16 (9 + ablk * 2 ^ 12) ∧
    (∀ k, k < 64 → (t.mr 0).getLsbD k = decide (k < lanes)) ∧ t.stack = [{ kind := .base, mask := t.mr 0 }]
  (∀ p : Fin 8,
    let takes := fun (r : State) (i : Instr) (q : Queue) (l : Launch) => ∃ u, exec i s = .next u ∧ u.ridx q = r.ridx q + 1 ∧
      Sparse.get none u.launches (launchKey p l.lid) = some { l with slot := r.ridx q } ∧ (u.part p).order = l.order + 1 ∧
      (∀ k, k ≠ launchKey p l.lid → Sparse.get none u.launches k = Sparse.get none s.launches k) ∧
      u = { r with hbm := u.hbm, hpois := u.hpois, hue := u.hue, parts := u.parts, launches := u.launches, elided := u.elided }
    let m := s.metQueues p 0
    ((s.part p).acceptStalled = true → exec (.launchAccept p) s = .next s) ∧ (s.hue = [] → m = s) ∧
    ((s.part p).acceptStalled = false →
      (m.nextLaunch p = none → exec (.launchAccept p) s = .next m) ∧
      ∀ j q f, m.nextLaunch p = some (j, q, f) → m.queue p q.hdr = some q →
        (f = .wait → exec (.launchAccept p) s = .next m) ∧
        let halts := fun (r : State) (c : Nat) => ∃ u, exec (.launchAccept p) s = .next u ∧ (u.part p).rot = j + 1 ∧
          u.status q = r.status q / 2 % 2 * 2 + 1 + c % 2 ^ 24 * 256 ∧ u.ridx q = r.ridx q ∧ u.launches = s.launches ∧
          (u.part p).reports = (r.part p).reports ++ [.halt q.hdr (r.ridx q) c]
        (∀ c, f = .code c → halts m c) ∧
        ∀ k, f = .packet k → let r := m.metBridle p k
          let asked := asLaunch p k (some q.hdr) 0 (r.part p).order
          let verdict := r.accept p k (some q.hdr) 0
          (s.hue = [] → r = s) ∧ (verdict = .wait → exec (.launchAccept p) s = .next r) ∧
          (∀ c, Lowest (r.launchFails k asked) c → halts r c) ∧
          ((∀ c, ¬r.launchFails k asked c) → asked.bridle = 0 → verdict = .ok asked) ∧
          (∀ c, verdict = .code c → halts r c) ∧
          (∀ a, verdict = .fault a → ∃ u, exec (.launchAccept p) s = .next u ∧ (u.part p).rot = j + 1 ∧
            u = { r with parts := u.parts, elided := u.elided } ∧
            u.queue p q.hdr = some { q with stalled := true, told := some a } ∧
            (u.part p).reports = (r.part p).reports ++ if q.told = some a then [] else [.fault q.hdr (r.ridx q) a]) ∧
          (∀ c cs a, verdict = .vio c cs a → ∃ u, exec (.launchAccept p) s = .next u ∧ (u.part p).rot = j + 1 ∧
            u = { r with parts := u.parts, elided := u.elided } ∧
            u.queue p q.hdr = some { q with frozen := true, atAccept := true } ∧ ((r.part p).vring.length < 64 → ∃ v : VioRec,
              (u.part p).vring = (r.part p).vring ++ [v] ∧ v.code = c ∧ v.codes = cs ∧ v.addr = a ∧ v.mkind = 5 ∧
              v.owner = q.hdr ∧ v.pc = BitVec.ofNat 64 (r.ridx q))) ∧
          (∀ l, verdict = .ok l → r.ridx q + 1 < 2 ^ 64 → takes r (.launchAccept p) q l ∧
            l.lid = pktWord k 0x30 ∧ l.entry = pktWord k 0x10 ∧ l.arg = pktWord k 0x18 ∧ l.lanes = pktField k 4 1 ∧
            l.slen = pktField k 6 2 ∧ l.nstr = pktField k 8 4 ∧ l.acc = pktField k 3 1 ∧ l.placed = false ∧ l.nextString = 0 ∧
            ∀ u, exec (.launchAccept p) s = .next u → (u.part p).rot = j + 1)) ∧
    (∀ q, (s.part p).counters = [] → (s.part p).queues.find? (fun q => q.sort == 0 && q.stalled) = some q →
      s.queue p q.hdr = some q → let m := s.metQueue q
      (m.offer q.unstall = .wait ∨ m.offer q.unstall = .none → exec (.bridleFaultResume p) s = .next m) ∧
      ∀ k, m.offer q.unstall = .packet k → let r := m.metBridle p k
        let verdict := r.accept p k (some q.hdr) 0
        (verdict = .wait → exec (.bridleFaultResume p) s = .next r) ∧
        (∀ a, verdict = .fault a → ∃ u, exec (.bridleFaultResume p) s = .next u ∧
          u = { r with parts := u.parts, elided := u.elided } ∧
          u.queue p q.hdr = some { q with stalled := true, told := some a } ∧
          (u.part p).reports = (r.part p).reports ++ if q.told = some a then [] else [.fault q.hdr (r.ridx q) a]) ∧
        ∀ l, verdict = .ok l → r.ridx q + 1 < 2 ^ 64 → takes r (.bridleFaultResume p) q l) ∧
    (∀ l rig xs, s.firstWaiting p = some l → l.bfrozen = false →
      (s.nextPlaces l = none → exec (.launchPlace p) s = .next s) ∧
      (s.nextPlaces l = some (rig, xs) → s.placesFenced xs l.slen = true → exec (.launchPlace p) s = .next s) ∧
      (s.nextPlaces l = some (rig, xs) → s.placesFenced xs l.slen = false → let r := s.metWrites l (l.placeWrites rig xs)
        let gate := r.bridleGate l (l.placeWrites rig xs)
        let key := launchKey l.part l.lid
        (s.hue = [] ∨ l.placeWrites rig xs = [] → r = s) ∧ (l.placeWrites rig xs = [] → gate = .ok ()) ∧
        (gate = .wait ∨ (∃ c, gate = .code c) → exec (.launchPlace p) s = .next r) ∧
        (∀ a, gate = .fault a → ∃ u, exec (.launchPlace p) s = .next u ∧
          u = { r with launches := u.launches, parts := u.parts, elided := u.elided } ∧ Sparse.get none u.launches key = some { l with bstall := some a } ∧ (u.part p).reports = (r.part p).reports ++
            if l.bstall = some a then [] else [.fault (l.queue.getD 0) (if l.queue.isSome then l.slot else l.counter) a]) ∧
        (∀ c cs a, gate = .vio c cs a → ∃ u, exec (.launchPlace p) s = .next u ∧
          u = { r with launches := u.launches, parts := u.parts } ∧ Sparse.get none u.launches key = some { l with bfrozen := true } ∧
          ((r.part p).vring.length < 64 → ∃ v : VioRec, (u.part p).vring = (r.part p).vring ++ [v] ∧ v.code = c ∧ v.codes = cs ∧
            v.addr = a ∧ ∀ q, l.queue = some q.hdr → s.queue p q.hdr = some q → v.owner = q.hdr ∧ v.pc = BitVec.ofNat 64 l.slot)) ∧
        (gate = .ok () →
        let at' := fun (x : Place) k => (stringRows x.core x.head l.slen).getD k 0 * 4 + x.seat
        (xs.flatMap fun x => (List.range l.slen).map (at' x)).Nodup →
        ∃ u, exec (.launchPlace p) s = .next u ∧
          (∀ i k, i < xs.length → k < l.slen → let x := xs.getD i ⟨0, 0, 0, 0⟩
            start (u.seat (at' x k)) l (l.nextString + i) k (rig.findIdx (· == at' x k / 256)) x.ablk l.lanes) ∧
          (∀ n, (∀ x ∈ xs, ∀ k, k < l.slen → n ≠ at' x k) → u.seat n = s.seat n) ∧
          Sparse.get none u.launches (launchKey l.part l.lid) = some { l with
            placed := true, roles := rig, nextString := l.nextString + xs.length, bstall := none } ∧
          u.hbyte = ((l.placeWrites rig xs).filterMap fun (w : Nat × Nat × Nat) =>
            match r.xlate p (r.walker p) (l.bridle + BitVec.ofNat 64 w.1) .write with
            | .mem pa _ => some (pa, w.2.1, w.2.2)
            | _ => none).foldl (fun m w => storeBytes m w.1 w.2.1 w.2.2) r.hbyte ∧
          u.agenda = .event (.launchPlace p) :: s.agenda ∧
          u = { r with agenda := u.agenda, seats := u.seats, rows := u.rows, cores := u.cores, launches := u.launches
                       hbm := u.hbm, hpois := u.hpois, hue := u.hue, elided := u.elided })))) ∧
  (∀ (c : Fin 64) (b : Fin 16), let x := s.bin c b
    (x.args ≠ [] → x.fire ≤ s.time.toNat → x.pending = none → exec (.spawnBinTimer c b) s = .next (s.setBin c b
      { x with args := [], pending := some (x.launch, x.entry, x.args) })) ∧
    (x.args = [] ∨ s.time.toNat < x.fire ∨ x.pending ≠ none → exec (.spawnBinTimer c b) s = .next s) ∧
    ∀ key entry args l y, x.pending = some (key, entry, args) → Sparse.get none s.launches key = some l →
      args.length ≤ 64 → ((s.part l.part).heldWhole l.lid = true → exec (.pendingRowPlace c b) s = .next s) ∧
      ((s.part l.part).heldWhole l.lid = false → s.fenced.getLsbD (c.val / 8) = false → s.fitPending c l.acc = some y → let n := (c * 64 + y.head) * 4 + y.seat
      let serial := Sparse.get 0 (s.core c).serial key
      ∃ u, exec (.pendingRowPlace c b) s = .next u ∧
        start (u.seat n) { l with entry := entry } serial 0 (l.roles.findIdx (· == c.val)) y.ablk args.length ∧
        (u.seat n).bind.spawned = true ∧ (u.seat n).gwct = (s.core c).gwct ∧ (∀ k, k < 64 → (u.seat n).xr 0 k = args.getD k 0) ∧
        (∀ r k, 0 < r → r < 31 → k < 64 → (u.seat n).xr r k = 0) ∧ (∀ m, m ≠ n → u.seat m = s.seat m) ∧
        u.bin c b = { x with pending := none } ∧ u = { s with seats := u.seats, cores := u.cores })) ∧
  (∀ n : Fin 16384, Sparse.wf Seat.blank s.seats = true → Sparse.wf none s.launches = true → let t := s.seat n
    let key := launchKey t.bind.part t.bind.lid
    (t.status ≠ .exited ∨ s.drained n = false → exec (.seatRelease n) s = .next s) ∧
    (t.status = .exited → s.drained n = true →
      (Sparse.get none s.launches key = none ∨ (∃ k, k ≠ n.val ∧ (s.seat k).resident = true ∧
          launchKey (s.seat k).bind.part (s.seat k).bind.lid = key) ∧
          (∀ l, Sparse.get none s.launches key = some l → l.closing = 0) →
        ∃ u, exec (.seatRelease n) s = .next u ∧ u.seat n = Seat.blank ∧ (∀ k, k ≠ n.val → u.seat k = s.seat k) ∧
          u = { s with seats := u.seats, rows := u.rows }) ∧
      ∀ l q, Sparse.get none s.launches key = some l → l.closing = 0 → l.killed = false → l.waiting = false → l.bfrozen = false →
        l.bridle = 0 → l.done.getLsbD 31 = false → (s.part l.part).saved = [] → (s.freeSeat n).rowsGone key = true →
        launchKey l.part l.lid = key → l.queue = some q.hdr → s.queue l.part q.hdr = some q → s.hdrHeld q = false → s.doneIdx q + 1 < 2 ^ 64 →
        ∃ u, exec (.seatRelease n) s = .next u ∧ u.seat n = Seat.blank ∧ (∀ k, k ≠ n.val → u.seat k = s.seat k) ∧
          Sparse.get none u.launches key = none ∧ u.doneIdx q = s.doneIdx q + 1 ∧
          ((∀ c, Sparse.wf 0 (s.core c).serial = true) → ∀ c, c < 64 → Sparse.get 0 (u.core c).serial key = 0)))

/-! ### The supervisor (13, 14) -/

/-- 13 R331, R333, R334, R336; 10 R276, R394; 02 R47; 07 R197: RESUME lets a frozen master run on, a packet from where RIDX
stood; ABORT drops a frozen queue's packet and halts the queue with CODE 0x0B, but drops no launch (log 50), and the queue
stays frozen where a launch of it is; SKIP drops a halted queue's; KILL removes the rows of a launch, its serial numbers
and the launch, one that waits for its last write too (log 89), and frees the queue that it froze where nothing else
holds that. SUPARG names the master in the places of log 24. The model's choices: a command without a session is refused
(log 71), and one that writes a header waits, brought again, while the header takes no access (log 9). -/
def Obligations.FrozenMasters : Prop := ∀ (s : State) (p : Fin 8), MemOk s →
  let a := vget 0 (s.part p).suparg 0
  let kind := (a >>> 56).toNat
  (s.commanded = false → ∀ i ∈ [Instr.resume p, .abort p, .skip p, .kill p],
    exec i s = .next { s with module := { s.module with out := s.module.out ++ [.refused] } }) ∧
  (s.commanded = true →
  (kind = 0 → let n := midSid a
    let t := s.seat n
    let slot := if t.pslot = 0 then t.slot else t.pslot
    (t.status = .frozen → t.bind.part = p → ∃ u, exec (.resume p) s = .next u ∧ u = { s with seats := u.seats } ∧
      (∀ k, k ≠ n → u.seat k = s.seat k) ∧ (u.seat n).status = .ready ∧ (u.seat n).pc = t.pc ∧
      (u.seat n).slot = slot ∧ (u.seat n).bundle = none ∧ (u.seat n).pmod = none ∧
      (u.seat n).brkbSkip = ((t.brkbSkip || t.brkbPassed && t.brkb) && decide (slot ≤ 1)) ∧
      (u.seat n).pximm = none ∧ (u.seat n).x = t.x ∧ (u.seat n).s = t.s ∧ (u.seat n).stack = t.stack) ∧
    (t.status ≠ .frozen ∨ t.bind.part ≠ p → exec (.resume p) s = .next s)) ∧
  (kind ∈ [1, 2, 5] → let hdr := a &&& 0xFFFFFFFFFFFFF
    ∀ q, s.queue p hdr = some q → (s.hdrHeld q = true → exec (.resume p) s = .next s) ∧
    (s.hdrHeld q = false → (∀ b, q.back = some b → b < 2 ^ 64) → ∃ u, exec (.resume p) s = .next u ∧
    u.queue p hdr = some { q with frozen := false, atAccept := false, back := none } ∧ u.ridx q = q.back.getD (s.ridx q) ∧
    (∀ n k, s.packet n = some k → u.packet n = some (if k.part = p ∧ k.hdr = hdr then { k with frozen := false, gidx := none } else k)) ∧
    (∀ n l, Sparse.get none s.launches n = some l → Sparse.get none u.launches n = some (if l.part = p ∧ l.queue = some hdr
      then { l with bfrozen := false } else l)) ∧
    u = { s with parts := u.parts, packets := u.packets, launches := u.launches, hbm := u.hbm, hpois := u.hpois
                 hue := u.hue, elided := u.elided })) ∧
  (kind = 3 → exec (.resume p) s = .next (s.setPart p { s.part p with spanFrozen := (s.part p).spanFrozen.filter (fun x =>
    x != ((a.extractLsb' 0 4).toNat, (a.extractLsb' 4 16).toNat)) })) ∧
  (kind = 4 → let n := a.toNat % 4096
    let c := s.counter p n
    (c.frozen = false → exec (.resume p) s = .next s) ∧
    (c.frozen = true → Sparse.wf {} (s.part p).counters = true → ∃ v : State, exec (.resume p) s = .next (v.takeTask p n) ∧ (c.pend = [] → v.takeTask p n = v) ∧
      v = { s with parts := v.parts, launches := v.launches } ∧ (∀ q, q ≠ p.val → v.part q = s.part q) ∧
      v.part p = { s.part p with counters := Sparse.set {} (s.part p).counters n { c with frozen := false, atTask := false } } ∧
      ∀ m l, Sparse.get none s.launches m = some l → Sparse.get none v.launches m =
        some (if l.part = p ∧ l.queue = none ∧ l.counter = n then { l with bfrozen := false } else l))) ∧
  (∀ q, s.queue p a = some q → let from' := q.back.getD (s.ridx q)
    (q.frozen = false ∨ s.hdrHeld q = true → exec (.abort p) s = .next s) ∧
    ((∃ n l, Sparse.get none s.launches n = some l ∧ l.part = p ∧ l.queue = some q.hdr ∧ l.bfrozen = true) →
      q.atAccept = false → exec (.abort p) s = .next s) ∧
    (∀ stays : Bool, (stays = true ↔ ∃ e ∈ s.launches, ∃ l, e.2 = some l ∧ l.part = p ∧ l.queue = some a ∧ l.bfrozen = true) →
      q.frozen = true → s.hdrHeld q = false → (stays = true → q.atAccept = true) → from' + 1 < 2 ^ 64 →
      s.doneIdx q + 1 < 2 ^ 64 →
      let drops := fun (i : Nat) (P : State → Prop) => ∃ u, exec (.abort p) s = .next u ∧ u.ridx q = i ∧
        u.doneIdx q = s.doneIdx q + 1 ∧ u.status q = s.status q / 2 % 2 * 2 + 1 + 0x0B * 256 ∧
        u.queue p a = some { q with frozen := stays, atAccept := false, back := none } ∧ P u ∧ u = { s with
          hbm := u.hbm, hpois := u.hpois, hue := u.hue, parts := u.parts, elided := u.elided
          packets := u.packets, rows := u.rows }
      ((∀ e ∈ s.packets, ∀ k, e.2 = some k → k.part = p → k.hdr = a → k.frozen = false) →
        drops (from' + 1) fun u => u.packets = s.packets ∧ u.rows = s.rows) ∧
      ∀ n k, Sparse.wf none s.packets = true → s.packet n = some k → k.part = p → k.hdr = a → k.frozen = true →
        (∀ m k', s.packet m = some k' → k'.part = p → k'.hdr = a → k'.frozen = true → m = n) →
        drops from' fun u => u.packet n = none ∧ ∀ m, m ≠ n → u.packet m = s.packet m) ∧
    (s.halted q = true → s.ridx q < s.widx q → s.hdrHeld q = false → s.ridx q + 1 < 2 ^ 64 → s.doneIdx q + 1 < 2 ^ 64 →
      ∃ u, exec (.skip p) s = .next u ∧ u.ridx q = s.ridx q + 1 ∧ u.doneIdx q = s.doneIdx q + 1 ∧
        u.status q = s.status q ∧ u.queue p a = some { q with stalled := false, told := none } ∧
        u = { s with hbm := u.hbm, hpois := u.hpois, hue := u.hue, parts := u.parts, elided := u.elided }) ∧
    (s.halted q = false ∨ s.widx q ≤ s.ridx q ∨ s.hdrHeld q = true → exec (.skip p) s = .next s)) ∧
  (Sparse.get none s.launches (launchKey p a) = none → exec (.kill p) s = .next s) ∧
  (∀ l, Sparse.wf Seat.blank s.seats = true → Sparse.wf none s.launches = true → Sparse.get none s.launches (launchKey p a) = some l →
    l.lid = a → l.part = p → l.bridle = 0 → ∃ u, exec (.kill p) s = .next u ∧
      Sparse.get none u.launches (launchKey p a) = none ∧ SameBytes s u ∧
      ((∀ c, Sparse.wf 0 (s.core c).serial = true) → ∀ c, c < 64 → Sparse.get 0 (u.core c).serial (launchKey p a) = 0) ∧
      (∀ q, l.bfrozen = true → l.queue = some q.hdr → s.queue p q.hdr = some q → ∃ q', u.queue p q.hdr = some q' ∧
        (q'.frozen = true ↔ q.atAccept = true ∨ ∃ e ∈ s.launches, ∃ l', e.2 = some l' ∧ l'.part = p ∧ l'.lid ≠ a ∧
          l'.queue = some q.hdr ∧ l'.bfrozen = true)) ∧
      (l.closing ≠ 0 → u.seats = s.seats) ∧
      (l.closing = 0 → ∀ k, (s.seat k).resident = true →
        launchKey (s.seat k).bind.part (s.seat k).bind.lid = launchKey p a → u.seat k = Seat.blank) ∧
      (∀ k, launchKey (s.seat k).bind.part (s.seat k).bind.lid ≠ launchKey p a → u.seat k = s.seat k) ∧
      u = { s with seats := u.seats, rows := u.rows, cores := u.cores, launches := u.launches, packets := u.packets
                   contribs := u.contribs, parts := u.parts }))

/-- 14 R354 to R360, R362; 13 R336; 11 R281; 10 R272, R394: what PREEMPT refuses and accepts; a seat of the unit stops at a switch-out
point unless a neighbour needs it (log 51); a unit that has not stopped in time runs on; once its seats have settled and
its bridle entries can be written it is saved, and its seats are free; RESTORE, which keeps what it was given, brings it
back to the same place or another (log 52), or waits for an earlier launch that is not yet placed whole, for room, or for
a fenced die (log 90). That either is refused without a session is the model's choice (log 71). -/
def Obligations.Preemption : Prop := ∀ (s : State) (p : Fin 8),
  let u0 := s.part p
  let lid := vget 0 u0.suparg 0
  let str : Half := (vget 0 u0.suparg 1).setWidth 32
  let area := vget 0 u0.suparg 2
  let refuses := fun (i : Instr) (r : BitVec 8) => exec i s = .next (s.setPart p { u0 with supReason := r, supRefused := true })
  let us := s.unitSeats p lid str
  (s.commanded = false → ∀ i ∈ [Instr.preempt p, .restore p],
    exec i s = .next { s with module := { s.module with out := s.module.out ++ [.refused] } }) ∧
  (s.commanded = true → u0.pre.isSome = true ∨ u0.restoring.isSome = true → refuses (.preempt p) 6 ∧ refuses (.restore p) 6) ∧
  (s.commanded = true → u0.pre = none → u0.restoring = none →
    (Sparse.get none s.launches (launchKey p lid) = none → refuses (.preempt p) 1) ∧
    ∀ l, Sparse.get none s.launches (launchKey p lid) = some l → l.lid = lid →
      (us = [] → refuses (.preempt p) 1) ∧
      (us ≠ [] → l.cls = 2 → str ≠ 0xFFFFFFFF → refuses (.preempt p) 2) ∧
      (us ≠ [] → (l.cls ≠ 2 ∨ str = 0xFFFFFFFF) → area &&& 0xFFFF ≠ 0 → refuses (.preempt p) 4) ∧
      (us ≠ [] → (l.cls ≠ 2 ∨ str = 0xFFFFFFFF) → area &&& 0xFFFF = 0 →
        let size := 65536 * us.length + 0x40 + 128 * (s.boundPackets p lid str).length
        let r := s.metWalks p ((pagesOf area.toNat size).map (BitVec.ofNat 64))
        let probe := r.checkPages p area size .write
        (s.hue = [] → r = s) ∧ (probe = .wait → exec (.preempt p) s = .next r) ∧
        (probe ≠ .wait → probe ≠ .ok () →
          exec (.preempt p) s = .next (r.setPart p { r.part p with supReason := 4, supRefused := true })) ∧
        (probe = .ok () → ∃ u x, exec (.preempt p) s = .next u ∧ u = { r with parts := u.parts } ∧
          (∀ k, k ≠ p.val → u.part k = r.part k) ∧
          (u.part p).pre = some x ∧ x.lid = lid ∧ x.str = str ∧ x.area = area ∧ x.t0 = s.time.toNat ∧ x.pkts = [] ∧
          (x.t1 = none ↔ ∃ e ∈ us, e.2.halted = false) ∧ (u.part p).supDone = false ∧ (u.part p).supRefused = false))) ∧
  (∀ t : Seat, t.atSwitch = true → t.hl = false ∧ t.qput = none ∧ t.slot = 1 ∧ t.pslot = 0 ∧
    (t.status = .ready → t.waits = false ∧ t.spawned = 0 ∧ ∀ k, k < 4 → vget .invalid t.lat k = .invalid)) ∧
  (∀ (t : Seat) w, t.status = .parked w → t.hl = false → t.qput = none → t.slot = 1 → t.pslot = 0 →
    (∀ k, k < 4 → vget .invalid t.lat k = .invalid) → t.atSwitch = true) ∧
  (∀ (n : Fin 16384) x, (s.seat n).bind.part = p → u0.pre = some x → x.t1 = none → (s.seat n).inUnit p x.lid x.str = true →
    let t := s.seat n
    let need := s.wanted (s.unitSeats p x.lid x.str) t
    let comes := fun w : Status => ∃ u, exec (.preemptSeatStop n) s = .next u ∧ u = { s with seats := u.seats, parts := u.parts } ∧
      u.seat n = { t with status := w } ∧ (∀ k, k ≠ n.val → u.seat k = s.seat k) ∧ (∀ k, k ≠ p.val → u.part k = s.part k)
    (t.atSwitch = true → need = false → (t.status = .ready → comes (.stopped none)) ∧
      (∀ w, t.status = .parked w → comes (.stopped (some w)))) ∧
    (need = true → (∀ w, t.status = .stopped (some w) → comes (.parked w)) ∧ (t.status = .stopped none → comes .ready)) ∧
    (t.atSwitch = false → t.status = .ready → comes .ready)) ∧
  (∀ x, u0.pre = some x →
    (x.t1.isSome = true ∨ s.time.toNat < x.t0 + 200000 → exec (.preemptDeadline p) s = .next s) ∧
    (x.t1 = none → x.t0 + 200000 ≤ s.time.toNat → Sparse.wf Seat.blank s.seats = true → ∃ u, exec (.preemptDeadline p) s = .next u ∧
      u = { s with seats := u.seats, parts := u.parts } ∧ (u.part p).pre = none ∧ (u.part p).supReason = 3 ∧
      (u.part p).supRefused = true ∧
      ∀ k, u.seat k = if (s.seat k).inUnit p x.lid x.str then (s.seat k).unstop else s.seat k) ∧
    (x.t1 = none → exec (.preemptDrainEnd p) s = .next s) ∧
    (∀ t1 l, x.t1 = some t1 → Sparse.get none s.launches (launchKey p x.lid) = some l → l.part = p → l.lid = x.lid →
      Sparse.wf Seat.blank s.seats = true → MemOk s → s.boundPackets p x.lid x.str = [] →
      let vs := s.unitSeats p x.lid x.str
      let ws := l.entryWrites (freedEntries vs)
      (s.settled vs = false ∨ l.bfrozen = true → exec (.preemptDrainEnd p) s = .next s) ∧
      (s.settled vs = true → l.bfrozen = false → (s.metWrites l ws).bridleGate l ws = .ok () → s.checkPages p x.area (65536 * vs.length + 0x40 + 128 * x.pkts.length) .write = .ok () →
      ∃ u, exec (.preemptDrainEnd p) s = .next u ∧ (u.part p).pre = none ∧ (u.part p).supDone = true ∧
        (∃ z, (u.part p).saved = u0.saved ++ [z] ∧ z.lid = x.lid ∧ z.str = x.str ∧ z.area = x.area ∧ z.tstop = t1 ∧
          z.pkts = x.pkts ∧ z.rows.length = vs.length ∧ ∀ k, k < vs.length → ∃ y e, z.rows[k]? = some y ∧ vs[k]? = some e ∧
            y.seat = e.2 ∧ y.sid = e.1) ∧
        (∀ k, u.seat k = if (s.seat k).inUnit p x.lid x.str then Seat.blank else s.seat k) ∧
        (Sparse.wf none s.launches = true → ∀ k, Sparse.get none u.launches k =
          if k = launchKey p x.lid then some { l with bstall := none } else Sparse.get none s.launches k) ∧
        u = { s.metWrites l ws with seats := u.seats, rows := u.rows, parts := u.parts, launches := u.launches, hbm := u.hbm
                                    hpois := u.hpois, hue := u.hue, elided := u.elided }))) ∧
  (s.commanded = true → u0.pre = none → u0.restoring = none →
    let w0 := { u0 with restoring := some (lid, str, area), supDone := false, supRefused := false }
    let gives := fun (r : State) (reason : BitVec 8) => exec (.restore p) s =
      .next (r.setPart p { r.part p with restoring := none, supReason := reason, supRefused := true })
    ((∀ x ∈ u0.saved, ¬(x.lid = lid ∧ x.str = str)) → gives (s.setPart p w0) 1) ∧
    ∀ x l, u0.saved.find? (fun x => x.lid == lid && x.str == str) = some x →
    Sparse.get none s.launches (launchKey p lid) = some l →
    let size := 65536 * x.rows.length + 0x40 + 128 * x.pkts.length
    let r := (s.setPart p w0).metRange p x.area size
    let waits := exec (.restore p) s = .next r
    (s.hue = [] → r = s.setPart p w0) ∧ (x.area ≠ area → gives r 5) ∧
    (x.area = area → r.checkPages p x.area size .read = .wait → waits) ∧
    (x.area = area → r.checkPages p x.area size .read ≠ .wait → (r.recordOk p x = false → gives r 5) ∧
      (r.recordOk p x = true →
      let early := ∃ w, r.firstWaiting p = some w ∧ w.order < l.order
      (l.bfrozen = true ∨ early → waits) ∧ (l.bfrozen = false → ¬early → (r.fitUnit l x x.groups r.taken = none → waits) ∧
      ∀ ys, r.fitUnit l x x.groups r.taken = some ys →
        let cut := ys.any fun y => r.placesFenced [y.2] (if y.1.1 then 1 else l.slen)
        let v := r.metWrites l (restoreWrites l ys)
        (cut = true → waits) ∧ (cut = false → v.bridleGate l (restoreWrites l ys) = .ok () →
        ∃ u, exec (.restore p) s = .next u ∧ (u.part p).restoring = none ∧ (u.part p).supDone = true ∧
          (u.part p).saved = u0.saved.filter (fun z => !(z.lid == lid && z.str == str)) ∧
          u = { v with seats := u.seats, rows := u.rows, parts := u.parts, launches := u.launches, hbm := u.hbm, hpois := u.hpois, hue := u.hue
                       cores := u.cores, packets := u.packets, nextPacket := u.nextPacket, absent := u.absent
                       elided := u.elided })))))

/-! ### Recovery, power, partitions and the root (13, 14, 21) -/

/-- 13 R325 to R328, R336; 08 R232; 07 R196, R197; 14 R363, R364: without a session the control port refuses these
commands (log 71). A table update while one is busy, or of a partition that does not exist, is ignored; a bad one leaves its ERRC; a good one is made in the table of
every die of the partition, its cores' caches are emptied whole, and it is complete once no contribution of the
partition waits, whether its master is frozen or not (log 25); a hash change and a channel's retirement are refused or made, in two steps; a retirement is refused
also where the parity in force is off (log 91), and PCH can be written meanwhile; an access answered RETRY is sent again. -/
def Obligations.TablesAndStacks : Prop := ∀ s : State, MemOk s →
  let tells := fun (a : Answer) => Host.Outcome.next (φ := Fault) (ρ := Refusal)
    { s with module := { s.module with out := s.module.out ++ [a] } }
  (s.commanded = false → ∀ (p : Fin 8) cnt level (k : Fin 24), ∀ i ∈ [Instr.tuSet p cnt level, .tuClear p cnt level,
    .tuSetrange p cnt level, .apply k, .retireGo k], exec i s = tells .refused) ∧
  (s.commanded = true →
    (∀ (p : Fin 8) (cnt : BitVec 10) (level : BitVec 2) i op,
      (i, op) ∈ [(Instr.tuSet p cnt level, 1), (.tuClear p cnt level, 2), (.tuSetrange p cnt level, 3)] →
      let w := s.part p
      let r := s.tuCheck p op cnt.toNat level.toNat
      let first := vaIndex w.tuva.toNat level.toNat
      (w.tuctl.getLsbD 25 = true ∨ w.en = false → exec i s = .next s) ∧
      (w.tuctl.getLsbD 25 = false → w.en = true → r.1 ≠ 0 → exec i s = .next (s.setPart p { w with tuctl := tuReg r.1 false cnt level op })) ∧
      (op ≠ 2 → w.tupte.extractLsb' 52 12 ≠ 0 → r.1 = 1) ∧
      (w.tuctl.getLsbD 25 = false → w.en = true → r.1 = 0 → ∃ u, exec i s = .next u ∧
        u = { s with hbm := u.hbm, cores := u.cores, parts := u.parts, elided := u.elided } ∧
        u.part p = { w with tuctl := tuReg 0 true cnt level op } ∧ (∀ q, q ≠ p.val → u.part q = s.part q) ∧
        u.hbyte = storeAll 8 ((List.range 8).flatMap fun d =>
          match if w.dies.getLsbD d then w.region d else none with
          | some (b, _) => (List.range (cnt.toNat + 1)).map fun j =>
            (b + r.2 + 8 * (first + j), (tuValue op w.tupte level.toNat j).toNat)
          | none => []) s.hbyte ∧
        ∀ c, c < 64 → u.core c = if w.dies.getLsbD (c / 8) then { s.core c with lcache := [], icache := [] } else s.core c)) ∧
    ∀ k : Fin 24, let u := s.stack k
      let busy := u.retBusy = true ∨ s.girthBusy k = true ∨ ∃ e ∈ s.accums, e.2 ≠ none ∧ paStack e.1 = k
      let no := u.parW = false ∨ u.par = false ∨ u.retBusy = true ∨ u.hBusy = true ∨
        (vget 0 u.retgrp (u.pch.toNat % 16)).getLsbD 7 = true
      (u.hBusy = true → exec (.apply k) s = .next s) ∧
      (u.hBusy = false → busy → exec (.apply k) s = .next (s.setStack k { u with hErr := true })) ∧
      (u.hBusy = false → ¬busy → exec (.apply k) s = .next (s.setStack k { u with hBusy := true })) ∧
      (¬no → exec (.retireGo k) s = .next (s.setStack k { u with retBusy := true, retiring := u.pch })) ∧
      (no → exec (.retireGo k) s = .next (s.setStack k { u with retErr := true })) ∧
      ∀ (p : Fin 8) (v : Word), s.ownsStack p k = true → v.getLsbD 1 = false →
        exec (.registerWrite p (.retctl k) v) s =
          .next (s.setStack k { u with pch := v.extractLsb' 8 8, retErr := u.retErr && !v.getLsbD 3 })) ∧
  (∀ p : Fin 8,
    let owed := ∃ c ∈ s.contribs, c.part = p
    (owed → exec (.tuComplete p) s = .next s) ∧
    (¬owed → exec (.tuComplete p) s = .next (s.setPart p { s.part p with tuctl := (s.part p).tuctl &&& 0xFDFFFFFF }))) ∧
  (∀ k : Fin 24, let u := s.stack k
    let grp := u.retiring.toNat % 16
    (u.hBusy = false → exec (.applyDone k) s = .next s) ∧
    (u.hBusy = true → ∃ t, exec (.applyDone k) s = .next t ∧ (t.stack k).hmask = u.hmaskW ∧ (t.stack k).par = u.parW ∧
      (t.stack k).hBusy = false ∧ t = { s with hbmStacks := t.hbmStacks, hbm := t.hbm, hpois := t.hpois, hue := t.hue, kept := t.kept
                                               epoch := t.epoch, freeCtr := t.freeCtr, cores := t.cores, parts := t.parts }) ∧
    (u.retBusy = false → exec (.retireSwitch k) s = .next s) ∧
    (u.retBusy = true → ∃ t, exec (.retireSwitch k) s = .next t ∧ (t.stack k).retBusy = false ∧
      vget 0 (t.stack k).retgrp grp = BitVec.ofNat 8 (0x80 + u.retiring.toNat / 16) ∧ (∀ g, g ≠ grp →
        vget 0 (t.stack k).retgrp g = vget 0 u.retgrp g) ∧ t.hbm = s.hbm ∧
      t = { s with hbmStacks := t.hbmStacks, hpois := t.hpois, hue := t.hue, parts := t.parts, elided := t.elided })) ∧
  exec .peerRetryResend s = .next { s with peerReplies := s.peerReplies.erase .retry }

/-- 14 R346, R361, R365 to R367; 07 R184; 09 R247; 13 R336; 21 R388: a reset, which the control port takes in a session
(log 71), fences a die and removes its rows, waits for the contributions that it crosses, and after 100 µs leaves its scratchpad zero and present and CLKC zero, and lets
it rejoin, or, after a thermal trip, keeps it fenced until it is cool (logs 64, 69); an SRAM error marks the part that it met,
whichever it is; a voltage trial is one step below SAFEVID, passes, or is undone with its VID blacklisted. -/
def Obligations.DieRecovery : Prop := ∀ (s : State) (d : Fin 8),
  let u := s.die d
  let mine := fun k : Nat => k / 256 / 8 = d
  (Sparse.wf Seat.blank s.seats = true → ∀ i, i = .dieFault d ∨
      (∃ p : Fin 8, i = .diereset p ∧ s.commanded = true ∧ vget 0 (s.part p).suparg 0 = BitVec.ofNat 64 d ∧
        (s.part p).en = true ∧ (s.part p).dies.getLsbD d = true) →
    (u.reset ≠ none → exec i s = .next s) ∧
    (u.reset = none → ∃ t, exec i s = .next t ∧ t.fenced = s.fenced ||| (1#8 <<< d.val) ∧
      (t.die d).reset = some (s.time.toNat, false) ∧ (t.die d).resetDone = false ∧
      (∀ k, mine k → (s.seat k).resident = true → t.seat k = Seat.blank) ∧ (∀ k, ¬mine k → t.seat k = s.seat k))) ∧
  (∀ p : Fin 8, let w := s.part p
    (s.commanded = true → w.en = false ∨ w.dies.getLsbD (vget 0 w.suparg 0).toNat = false → exec (.diereset p) s = .next s) ∧
    (s.commanded = false → exec (.diereset p) s = .next { s with module := { s.module with out := s.module.out ++ [.refused] } })) ∧
  (Sparse.wf Seat.blank s.seats = true → u.hottest.toInt ≥ 120 * 64 → u.tripped = false → u.reset = none →
    ∃ t, exec (.thermalTrip d) s = .next t ∧ (t.die d).tripped = true ∧ t.fenced = s.fenced ||| (1#8 <<< d.val) ∧
      (t.die d).reset = some (s.time.toNat, true) ∧ ∀ k, mine k → (s.seat k).resident = true → t.seat k = Seat.blank) ∧
  (u.hottest.toInt < 120 * 64 ∨ u.tripped = true → exec (.thermalTrip d) s = .next s) ∧
  (∀ t0 therm, u.reset = some (t0, therm) →
    (s.time.toNat < t0 + 100000 → (∃ c ∈ s.contribs, stackDie (paStack c.addr) = d ∨ ∃ k pc, c.who = .row k pc ∧ mine k) →
      exec (.dieResetForce d) s = .next s) ∧
    (u.resetDone = false → t0 + 100000 ≤ s.time.toNat → ∃ t, exec (.dieResetForce d) s = .next t ∧
      (∀ a, a / 2 ^ 24 / 8 = d → t.spad.byte a = 0) ∧ (∀ a, a / 2 ^ 24 / 8 ≠ d → t.spad.byte a = s.spad.byte a) ∧
      (∀ l, l / 2 ^ 17 / 8 = d → t.isAbsent l = false ∧ t.isPois l = false) ∧ (∀ k, mine k → t.seat k = Seat.blank) ∧
      (∀ k, ¬mine k → t.seat k = s.seat k) ∧ (∀ c, c / 8 = d.val → (t.core c).clkc = 0) ∧
      (therm = false → t.fenced = s.fenced &&& ~~~(1#8 <<< d.val) ∧ (t.die d).reset = none) ∧
      (therm = true → t.fenced = s.fenced ∧ (t.die d).resetDone = true)) ∧
    (u.resetDone = true → u.hottest.toInt < 90 * 64 → ∃ t, exec (.dieRejoin d) s = .next t ∧
      t.fenced = s.fenced &&& ~~~(1#8 <<< d.val) ∧ (t.die d).reset = none ∧ (t.die d).tripped = false ∧ SameBytes s t ∧
      t = { s with fenced := t.fenced, dies := t.dies, cores := t.cores, parts := t.parts }) ∧
    (90 * 64 ≤ u.hottest.toInt ∨ u.resetDone = false → exec (.dieRejoin d) s = .next s)) ∧
  (∀ place, placeDie place = d → ∃ t, exec (.sramUe place) s = .next t ∧ SameBytes s t ∧
    (∀ c l, place = .spad c l → t.isPois (c * 2 ^ 17 + l) = true) ∧
    (∀ n r l, place = .x n r l → (s.seat n).resident = true → (vget 0 (t.seat n).xpois r).getLsbD l = true) ∧
    (∀ n r, place = .s n r → (s.seat n).resident = true → (t.seat n).spois.getLsbD r = true) ∧
    (∀ n r, place = .m n r → (s.seat n).resident = true → (t.seat n).mpois.getLsbD r = true) ∧
    (∀ n r, place = .cb n r → (s.seat n).resident = true → (t.seat n).cbpois.getLsbD r = true) ∧
    (∀ n r l, place = .latch n r l → (s.seat n).resident = true → vget .invalid (s.seat n).lat r ≠ .invalid →
      (vget 0 (t.seat n).latpois r).getLsbD l = true) ∧
    (∀ k e l, place = .south k e l →
      (∀ x, (s.row k).south[e.val]? = some (.filled x) → t.row k = { s.row k with
        south := (s.row k).south.set e (.filled { x with pois := x.pois ||| (1#64 <<< l.val) }) }) ∧
      ((∀ x, (s.row k).south[e.val]? ≠ some (.filled x)) → t.row k = s.row k)) ∧
    (∀ k e l, place = .north k e l →
      (∀ x, (s.row k).north[e.val]? = some x → t.row k = { s.row k with
        north := (s.row k).north.set e { x with pois := x.pois ||| (1#64 <<< l.val) } }) ∧
      ((s.row k).north[e.val]? = none → t.row k = s.row k)) ∧
    (∀ n r l, place = .acc n r l → (s.seat n).resident = true → (vget 0 (t.seat n).accpois r).getLsbD l = true) ∧
    (∀ c, place = .cache c → (t.core c).lcache = [] ∧ (t.core c).icache = []) ∧
    (u.trial = false → (t.die d).health = u.health + 1 ∧ t.agenda = s.agenda) ∧
    (u.trial = true → t.agenda = .event (.uvAbort d) :: s.agenda)) ∧
  (let v := u.safeVid.toNat - 1
    let able := u.trial = false ∧ u.safeVid ≠ 0 ∧ ∀ e ∈ u.black, ¬(v ≤ e.1 ∧ s.time.toNat < e.2)
    (able → exec (.uvTrial d) s = .next (s.setDie d { u with trial := true, trialVid := u.safeVid - 1, vid := v, vidNext := none })) ∧
    (¬able → exec (.uvTrial d) s = .next s)) ∧
  (u.trial = false → exec (.trialPassed d) s = .next s ∧ exec (.uvAbort d) s = .next s) ∧
  (u.trial = true → exec (.trialPassed d) s = .next (s.setDie d { u with trial := false, safeVid := u.trialVid, trialVid := 0 }) ∧
    ∃ t, exec (.uvAbort d) s = .next t ∧ t = { s with dies := t.dies, parts := t.parts } ∧ (t.die d).trial = false ∧
      (t.die d).vid = u.safeVid.toNat + 3 ∧ (t.die d).vidNext = none ∧ (t.die d).safeVid = u.safeVid ∧
      (t.die d).black = (u.trialVid.toNat, s.time.toNat + 86400 * 10 ^ 9) :: u.black.filter (fun e => e.1 != u.trialVid.toNat)) ∧
  (∀ v, exec (.uvBlacklistExpire d v) s = .next (s.setDie d { u with
    black := u.black.filter fun e => e.1 != v.toNat || decide (s.time.toNat < e.2) }))

/-- 21 R379, R381 to R387: each 100 µs a die's levels move as its meter, which sixteen units for each sector of zeros
lessen, its limit and its temperature say; its rail follows the fastest clock and the average of the junction readings, at
once but where that clock falls; its cores' values take effect 10 µs later, and with the last of them such a rail; a shortfall that reaches TH
steps of 5 mV stretches six clocks and halves the budget for 64; a coolant fault comes and goes. Readings, shortfalls and
what else the surroundings bring are inputs (log 8). -/
def Obligations.PowerControl : Prop := ∀ s : State,
  (s.time.toNat % 100000 ≠ 0 ∨ s.module.phase = .off ∨ s.module.phase = .starting → exec .controlInterval s = .next s) ∧
  (s.time.toNat % 100000 = 0 → s.time ≠ 0 → s.module.phase ≠ .off → s.module.phase ≠ .starting →
    ∃ t, exec .controlInterval s = .next t ∧ SameBytes s t ∧ (∀ d, d < 8 → vget 0 t.elided d = 0) ∧ t.seats = s.seats ∧ t.module.ein = s.module.ein + s.module.pin ∧
      t.module.pin = 0 ∧ ∀ d, d < 8 → (s.die d).first = false → let u := s.die d
        let m := u.charges - (u.credits + 16 * vget 0 s.elided d)
        let lim := s.mlim d
        let temp := u.tmax.toInt
        let l := if lim < m then min (u.l + 1) 15 else if 16 * m < 15 * lim then u.l - 1 else u.l
        let q := if s.module.coolant then 48
          else if 105 * 64 < temp then min (u.q + 2) 48 else if temp ≤ 103 * 64 then u.q - 1 else u.q
        let b := if 0 < l ∨ 0 < q ∨ u.cappedPrev = true ∨ u.boosten = false then 0
          else if temp ≤ 100 * 64 ∧ 8 * m ≤ 7 * lim then min (u.bst + 1) 8 else u.bst
        let f := fun c => if 0 < b then s.tableMHz c + 25 * b else min (s.tableMHz c - 25 * q) (s.tableMHz c - 100 * (l - 7))
        let fmax := (((List.range 8).map (fun i => 8 * d + i)).filter s.usable).foldl (fun n c => max n (f c)) 0
        let ta := BitVec.ofInt 16 (u.tsum / u.tcnt)
        let leak : Int := if ta.toInt ≤ 60 * 64 then 1 else if ta.toInt ≤ 85 * 64 then 0 else if ta.toInt ≤ 100 * 64 then -1 else -2
        let vid := if u.trial then u.trialVid.toNat else (max (Config.vf d fmax) u.safeVid.toNat + leak).toNat
        let clocksFirst := s.module.phase = .ready ∧ u.tripped = false ∧
          fmax < (((List.range 8).map (fun i => 8 * d + i)).filter s.usable).foldl (fun n c => max n (s.core c).freq) 0
        (t.die d).tavg = ta ∧ (t.die d).vid = (if clocksFirst then u.vid else vid) ∧
          (t.die d).vidNext = (if clocksFirst then some vid else none) ∧
          vget 0 (t.die d).record 0 = s.time ∧ vget 0 (t.die d).record 1 = BitVec.ofNat 64 (u.tmax.toNat + ta.toNat * 2 ^ 16) ∧
          vget 0 (t.die d).record 3 = BitVec.ofNat 64 m ∧ (t.die d).l = l ∧ (t.die d).q = q ∧ (t.die d).bst = b ∧ (t.die d).charges = 0 ∧ (t.die d).credits = 0 ∧
          (t.die d).droops = 0 ∧ ∀ c, c / 8 = d →
            (t.core c).next = some (s.time.toNat + 10000, f c, 384 - 48 * min l 7)) ∧
  (∀ c : Fin 64, let u := s.core c
    let stretched := u.stretchFrom ≤ u.clkc ∧ u.clkc < u.stretchUntil
    let halved := u.halveFrom ≤ u.clkc ∧ u.clkc < u.halveUntil
    (∀ t f b, u.next = some (t, f, b) →
      (t ≤ s.time.toNat → ¬stretched → ∃ w, exec (.newValuesApply c) s = .next w ∧ w = { s with cores := w.cores, dies := w.dies } ∧
        w.core c = { u with freq := f, budget := b, next := none } ∧ (∀ k, k ≠ c.val → w.core k = s.core k) ∧
        let d := c.val / 8
        let last := ∀ k, k / 8 = d → k ≠ c → (s.core k).next = none
        (last → w.die d = { s.die d with vid := (s.die d).vidNext.getD (s.die d).vid, vidNext := none }) ∧
        (∀ k, k ≠ d → w.die k = s.die k) ∧ (¬last → w.dies = s.dies)) ∧
      (s.time.toNat < t ∨ stretched → exec (.newValuesApply c) s = .next s)) ∧
    (u.next = none → exec (.newValuesApply c) s = .next s) ∧
    (u.droopEn = false ∨ u.shortfall < u.droopTh * 5 ∨ s.clocked c = false → exec (.droopTrip c) s = .next s) ∧
    (u.droopEn = true → u.droopTh * 5 ≤ u.shortfall → s.clocked c = true → ∃ t, exec (.droopTrip c) s = .next t ∧ t = { s with cores := t.cores, dies := t.dies } ∧
      (t.core c).stretchUntil = u.clkc + 7 ∧ (t.core c).halveUntil = u.clkc + 65 ∧ (t.core c).droopCnt = u.droopCnt + 1 ∧
      (¬stretched → (t.core c).stretchFrom = u.clkc + 1) ∧ (¬halved → (t.core c).halveFrom = u.clkc + 1) ∧
      (t.die (c / 8)).droops = (s.die (c / 8)).droops + 1 ∧ ∀ k, k ≠ c.val → t.core k = s.core k) ∧
    ∃ t, exec (.droopWindowEnd c) s = .next t ∧ t = { s with cores := t.cores } ∧
      (u.stretchUntil ≤ u.clkc → (t.core c).stretchUntil = 0) ∧ (u.halveUntil ≤ u.clkc → (t.core c).halveUntil = 0) ∧
      (u.clkc < u.stretchUntil → (t.core c).stretchUntil = u.stretchUntil) ∧
      (u.clkc < u.halveUntil → (t.core c).halveUntil = u.halveUntil)) ∧
  (let since := fun (o : Option Nat) n => ∃ t, o = some t ∧ t + n ≤ s.time.toNat
    let bad := since s.module.hotSince (10 ^ 9) ∨ since s.module.lowSince (10 ^ 9)
    let good := ¬bad ∧ since s.module.okSince (10 ^ 10)
    (bad → exec .coolantFault s = .next { s with module := { s.module with coolant := true } }) ∧
    (¬bad → exec .coolantFault s = .next s) ∧
    (good → exec .coolantFaultClear s = .next { s with module := { s.module with coolant := false } }) ∧
    (¬good → exec .coolantFaultClear s = .next s))

/-- 13 R320, R321, R324, R336 to R338; 00 R10; 08 R217; 21 R385; 07 R191, R196: forming a partition, whose ERR only a 1
clears, and dissolving it, which clears EN (log 70) and ends its queues' registrations (log 100: the model's choice); its registers written with their reserved bits dropped, those of
what it does not own keeping their values (log 72); without a session the port refuses (log 71); the control node's accesses;
and those of peers: none over a link that is not UP, dropped on links that it does not own, refused and frozen where no grant
admits them, else performed and, where they write, acknowledged 4 ns past the last lease, what poisoned data they store being
poisoned. -/
def Obligations.PartitionsAndPeers : Prop := ∀ (s : State) (p : Fin 8), MemOk s →
  let w := s.part p
  let put := fun w' : Part => Host.Outcome.next (s.setPart p w')
  let tells := fun (t : State) (a : Answer) => { t with module := { t.module with out := t.module.out ++ [a] } }
  let write := fun r v => exec (.registerWrite p r v) s
  (s.commanded = false → ∀ v va z o r, exec (.partitionEnable p v) s = .next (tells s .refused) ∧
    exec (.partitionDisable p) s = .next (tells s .refused) ∧ exec (.pwrshareWrite p v) s = .next (tells s .refused) ∧
    exec (.controlNodeAccess p va z o) s = .next (tells s .refused) ∧ write r v = .next (tells s .refused)) ∧
  (s.commanded = true →
    (∀ v : Word, let moves := w.dies ≠ v.extractLsb' 0 8 ∨ w.keel ≠ v.extractLsb' 8 16 ∨ w.span ≠ v.extractLsb' 24 16
      let err := w.err && !v.getLsbD 41
      (w.en = true → moves → exec (.partitionEnable p v) s = .next s) ∧
      (w.en = true → ¬moves → exec (.partitionEnable p v) s = put { w with err := err }) ∧
      (v.getLsbD 40 = true → write .partcfg v = exec (.partitionEnable p v) s) ∧
      (w.en = false → s.enableBad p v = true → exec (.partitionEnable p v) s = put { w with err := true }) ∧
      (v.extractLsb' 0 8 = 0 ∨ (∃ q, q < 8 ∧ q ≠ p.val ∧ (s.part q).en = true ∧ (s.part q).dies &&& v.extractLsb' 0 8 ≠ 0) →
        s.enableBad p v = true) ∧
      (w.en = false → s.enableBad p v = false → ∃ t, exec (.partitionEnable p v) s = .next t ∧
        t.part p = { w with en := true, err := err, dies := v.extractLsb' 0 8, keel := v.extractLsb' 8 16
                            span := v.extractLsb' 24 16 } ∧ (∀ q, q ≠ p.val → t.part q = s.part q) ∧
        ∀ d, d < 8 → if v.getLsbD d then (t.die d).owner = some p.val ∧
            (∀ q, (s.die d).owner = some q → q ≠ p → ∀ a, a / 2 ^ 24 / 8 = d → t.spad.byte a = 0)
          else t.die d = s.die d) ∧
      (w.en = true → moves → write .partcfg v = .next s) ∧
      (w.en = true → ¬moves → v.getLsbD 40 = false → s.partBusy p = false →
        write .partcfg v = put { w with err := err, en := false, queues := [], rot := 0 }) ∧
      (w.en = false → v.getLsbD 40 = false → write .partcfg v = put { w with
        err := err, dies := v.extractLsb' 0 8, keel := v.extractLsb' 8 16, span := v.extractLsb' 24 16 })) ∧
    (s.partBusy p = true → exec (.partitionDisable p) s = .next s) ∧
    (s.partBusy p = false → exec (.partitionDisable p) s = put { w with en := false, queues := [], rot := 0 }) ∧
    (∀ v : Word, let sum := (((List.range 8).filter fun (q : Nat) => (s.part q).en).map fun (q : Nat) =>
        if q = p then (v.setWidth 40).toNat else (s.part q).pwrshare.toNat).sum
      (Config.modMlim < sum → exec (.pwrshareWrite p v) s = put { w with pwrErr := true }) ∧
      (sum ≤ Config.modMlim → exec (.pwrshareWrite p v) s = put { w with
        pwrshare := v.setWidth 40, pwrErr := w.pwrErr && !v.getLsbD 41 })) ∧
    (∀ (va : Word) (z : Fin 4) o,
      let s1 := s.metWalks p [va]
      let x := s1.xlate p (s1.walker p) va (if o.isSome then .write else .read)
      let does := fun t => exec (.controlNodeAccess p va z o) s = .next t
      (w.en = false ∨ va.toNat % 2 ^ z.val ≠ 0 → does (tells s .refused)) ∧
      (w.en = true → va.toNat % 2 ^ z.val = 0 → (x = .wait → does s1) ∧
        (x ≠ .wait → (∀ pa nc, x ≠ .mem pa nc) → does (tells s1 .refused)) ∧
        ∀ pa nc, x = .mem pa nc → (s1.held pa = true → does s1) ∧
          (s1.held pa = false →
            (s1.fenced.getLsbD (stackDie (paStack pa)) = true → does (tells s1 .refused)) ∧
            (s1.fenced.getLsbD (stackDie (paStack pa)) = false →
              (o = none → let s2 := (s1.meetUE pa).elide [pa / 32]
                (s2.secPois pa = true → does (tells s2 .refused)) ∧
                (s2.secPois pa = false → does (tells s2 (.data (BitVec.ofNat 64 (readBytes s1.hbyte pa (2 ^ z.val))))))) ∧
              ∀ y, o = some y → ∃ t, does t ∧ t.hbyte = storeBytes s1.hbyte pa (2 ^ z.val) y.toNat ∧
                t.module = (tells s1 .done).module ∧ t.elided = ({ s1 with hbm := t.hbm }.elide [pa / 32]).elided ∧
                t = { s1 with hbm := t.hbm, elided := t.elided, module := t.module })))) ∧
    (∀ v : Word, let n := (v.setWidth 8 : BitVec 8)
      (write .leasecfg v = if n = 0 ∨ 128 < n.toNat then .next s else put { w with leaseLen := n }) ∧
      write .spawncfg v = put { w with bint := max 64 (v.toNat % 2 ^ 16) } ∧
      write .tvecdef v = put { w with tvecdef := v &&& ~~~15#64 } ∧
      (∀ d : Fin 8, write (.tregion d) v = if w.en then .next s else put { w with
        tregion := vset w.tregion d (v &&& 0x7FFFFC00000F#64) }) ∧
      (∀ k : Fin 128, write (.ogrant k) v = put { w with ogrant := vset w.ogrant k (v &&& 0xC0000007FFFFFFFF#64) } ∧
        write (.igrant k) v = put { w with igrant := vset w.igrant k (v &&& 0xC0000007FFFFFFFF#64) }) ∧
      (∀ k : Fin 3, write (.suparg k) v = put { w with suparg := vset w.suparg k v }) ∧
      write .supstat v = put { w with
        supDone := w.supDone && !v.getLsbD 1, supRefused := w.supRefused && !v.getLsbD 2 } ∧
      (∀ (k : Fin 24) (i : Fin 8), let u := s.stack k
        write (.hmask k i) v = if u.hBusy || !(w.en && w.dies.getLsbD (stackDie k)) then .next s
          else .next (s.setStack k { u with hmaskW := vset u.hmaskW i (v.setWidth 28) })) ∧
      (∀ d : Fin 8, write (.pwrctl d) v = if w.en && w.dies.getLsbD d then
        .next (s.setDie d { s.die d with boosten := v.getLsbD 63, mlim := v.setWidth 40 }) else .next s))) ∧
  ∀ (link : Fin 16) dev src va op,
    let does := fun t => exec (.peerAccessInbound link dev src p va op) s = .next t
    let reply := fun (t : State) (r : PeerReply) => { t with spanIn := t.spanIn ++ [(p.val, va, r)] }
    let who := Master.peer link dev src va
    let stops := fun (s1 : State) code r => ∃ t, does t ∧ t.spanIn = s.spanIn ++ [(p.val, va, r)] ∧
      (t.part p).spanFrozen = (s1.part p).spanFrozen ++ [(link.val, dev.toNat)] ∧ SameBytes s1 t ∧
      ((s1.part p).vring.length < 64 → ∃ e, (t.part p).vring = (s1.part p).vring ++ [e] ∧ e.code = code ∧ e.mkind = 3 ∧ e.addr = va)
    let wr := match op with
      | .load _ => false
      | _ => true
    ((vget {} s.module.links link).up = false → does s) ∧
    ((vget {} s.module.links link).up = true →
      (w.en = false ∨ w.span.getLsbD link = false → does { s with module := { s.module with dropped := s.module.dropped + 1 } }) ∧
      (w.en = true → w.span.getLsbD link = true →
        (w.spanFrozen.contains (link.val, dev.toNat) = true → does s) ∧
        (w.spanFrozen.contains (link.val, dev.toNat) = false →
          (w.admits link dev src wr = false ∨ va.getLsbD 63 = true → stops s vPARTITION_BOUND .refused) ∧
          (w.admits link dev src wr = true → va.getLsbD 63 = false →
            let s1 := s.metWalks p [va]
            let x := s1.xlate p (s1.walker p) va (if wr then .write else .read)
            (∀ c, x = .vio c → stops s1 c (.violation c)) ∧
            (x = .absent ∨ x = .poison → does (reply s1 .pageFault)) ∧
            (x = .wait → does s1) ∧
            ∀ pa nc, x = .mem pa nc → let d := stackDie (paStack pa)
              (s1.fenced.getLsbD d = true → does (reply s1 (.fenced d))) ∧
              (s1.fenced.getLsbD d = false → ((s1.stack (paStack pa)).hBusy = true → does s1) ∧
                ((s1.stack (paStack pa)).hBusy = false → (s1.held pa = true → does (reply s1 .retry)) ∧
                  (s1.held pa = false →
                    let due := max s1.time.toNat (if nc then 0 else s1.leaseOf pa) + 4
                    let s2 := s1.meetUE pa
                    let stores := fun (s3 : State) n v r => ∃ t, does t ∧ t.hbyte = storeBytes s3.hbyte pa n v ∧
                      t.acks = s.acks ++ [{ part := p, va := va, reply := .data r, due := due }] ∧ t.spanIn = s.spanIn
                    (∀ z v bad, op = .store z v bad → stores s1 (2 ^ z.val) v.toNat 0 ∧
                      (bad = true → ∀ t, does t → t.secPois pa = true)) ∧
                    (wr = false ∨ (∃ f ty v, op = .atomic f ty v) ∨ (∃ ty c v, op = .cas ty c v) →
                      (s2.secPois pa = true → does (reply s2 .poison)) ∧
                      (s2.secPois pa = false →
                        (∀ z, op = .load z → does (reply (s2.elide [pa / 32])
                          (.data (BitVec.ofNat 64 (readBytes s2.hbyte pa (2 ^ z.val)))))) ∧
                        (∀ ty v, op = .atomic 9 ty v → does (s2.arrive
                          { addr := pa, v := v.setWidth 32, sid := none, who := who, part := p, since := s.time.toNat, nc := nc })) ∧
                        (∀ f ty v, op = .atomic f ty v → f ≠ 9 → let n := tyBits ty / 8
                          let old := readBytes s2.hbyte pa n
                          stores s2 n (atomNew f.toNat ty old (v.toNat % 2 ^ tyBits ty)) (BitVec.ofNat 64 old)) ∧
                        ∀ ty c v, op = .cas ty c v → let n := tyBits ty / 8
                          let old := readBytes s2.hbyte pa n
                          stores s2 n (if old = c.toNat % 2 ^ tyBits ty then v.toNat % 2 ^ tyBits ty else old)
                            (BitVec.ofNat 64 old))))))))))

/-- 21 R389 to R393; 01 R42; 13 R336; 11 R288: start-up in its phases leaves the module ready only with an accepted image
and no defect (log 58), its links trained and its measurement folded; without power what is not fused or in flash is lost; an
image reloaded is accepted first; a session opens to the owner's signature over the nonce, and its end changes the nonce; a
quote signs the measurement; what a supervisor and the control node can read (logs 58 to 61); links train, resend flits and go
down. The nonce, the owner's key and the seeds of the identity keys are uninterpreted (logs 5, 7), and so is the randomness of a
quote's ML-DSA signature (log 10). -/
def Obligations.RootAndLinks : Prop := ∀ s : State,
  let m := s.module
  let goes := fun (m' : Module) => Host.Outcome.next (φ := Fault) (ρ := Refusal) { s with module := m' }
  let tells := fun (m' : Module) (a : Answer) => { m' with out := m'.out ++ [a] }
  let ended := if m.session then { m with session := false, nonces := m.nonces + 1 } else m
  let runs := m.phase ≠ .off ∧ m.phase ≠ .starting
  let open? := m.session = true ∧ m.phase = .ready
  (runs → exec .identityQuery s = goes (tells (tells m (.status m.phase Config.device)) (.report m.selftest))) ∧
  (¬runs → exec .identityQuery s = .next s ∧ (∀ img, exec (.firmwareReload img) s = .next s) ∧
    exec .powerGood s = .next { s with
      module := { m with firmOk := imageOk m.flash m.arb, phase := .testing }
      agenda := .event .controlInterval :: .event .powerGood :: s.agenda }) ∧
  (m.phase = .ready ∨ m.phase = .grounded → exec .powerGood s = .next s) ∧
  (m.phase = .testing → ∃ t, exec .powerGood s = .next t ∧ t = { s with module := t.module } ∧
    let pass := m.firmOk = true ∧ m.defects = 0
    let u := t.module
    (pass → u.phase = .ready ∧ u.arb = max m.arb (min 64 (imageArb m.flash))) ∧
    (¬pass → u.phase = .grounded ∧ u.arb = m.arb) ∧
    (∀ n, n < 16 → vget {} u.links n = { vget {} m.links n with
      train := false, up := (Config.spanPeer n).isSome, peerdev := (Config.spanPeer n).getD (vget {} m.links n).peerdev }) ∧
    vget 0 u.selftest 0 = BitVec.ofNat 64 (m.defects.toNat + (if m.firmOk then 0 else 32) +
      (if m.defects ≠ 0 then m.defectAt.toNat else if m.firmOk then 0 else 0xFF) * 2 ^ 32) ∧
    (∀ n, n < 16 → (vget 0 u.selftest 1).getLsbD n = (Config.spanPeer n).isNone) ∧ vget 0 u.selftest 2 = s.time ∧
    u.mv = [imageHead m.flash, s.speedBytes, s.defectBytes, Config.calibration, reportBytes u.selftest].foldl
      (fun v item => sha384 (bytesOf v.toNat 48 ++ item)) 0 ∧
    u.session = m.session ∧ u.flash = m.flash ∧ u.nonces = m.nonces ∧ u.out = m.out) ∧
  (∀ img, runs → (imageOk img m.arb = false → exec (.firmwareReload img) s = goes (tells m .refused)) ∧
    (imageOk img m.arb = true → exec (.firmwareReload img) s = .next { s with
      module := tells { ended with flash := img, firmOk := true, phase := .testing } .done
      agenda := .event .powerGood :: s.agenda })) ∧
  (∃ t, exec .powerOff s = .next t ∧ t.module.phase = .off ∧ t.module.flash = m.flash ∧ t.module.arb = m.arb ∧
    t.module.session = false ∧ t.module.nonces = ended.nonces ∧ t.steps = s.steps ∧ t.badRows = s.badRows ∧
    t.badSeats = s.badSeats ∧ t.agenda = [] ∧
    t.seats = [] ∧ t.spad = [] ∧ t.hbm = [] ∧ t.launches = [] ∧ t.time = 0 ∧ t.parts = State.reset.parts) ∧
  exec .lossOfLight s = goes ended ∧
  (m.session = true → exec .close s = goes (tells ended .done)) ∧ (m.session = false → exec .close s = goes (tells m .refused)) ∧
  (∀ nonce keys ed ml, let msg := bytesOf nonce.toNat 48
    let good := m.phase = .ready ∧ nonce = Config.nonce m.nonces ∧ sha384 keys = Config.ownerHash ∧
      edVerify (keys.take 32) msg ed = true ∧ mlVerify (keys.drop 32) msg ml = true
    (good → exec (Instr.open nonce keys ed ml) s = goes (tells { m with session := true } .done)) ∧
    (¬good → exec (Instr.open nonce keys ed ml) s = goes (tells m .refused))) ∧
  (∀ nonce : BitVec 384,
    let msg := bytesOf nonce.toNat 48 ++ bytesOf m.mv.toNat 48 ++ bytesOf Config.device.toNat 2 ++ bytesOf s.time.toNat 8
    let rnd := (List.range 4).flatMap fun i => bytesOf (s.free i).toNat 8
    let signed := Answer.quote nonce m.mv Config.device s.time (edSign Config.idSeed msg) (mlSign Config.mlSeed rnd msg)
    (open? → exec (.quote nonce) s = .next { s with freeCtr := s.freeCtr + 4, module := tells m signed }) ∧
    (¬open? → exec (.quote nonce) s = goes (tells m .refused))) ∧
  (∀ (p : Nat) (n : Bool) (what : Readable) rest, s.agenda = .env (if n then .supRead p what else .portRead p what) :: rest → p < 8 →
    let q := { s with agenda := rest }
    let word := fun v : Nat => (tab 8 fun i => if i = 0 then BitVec.ofNat 64 v else 0 : Vector Word 8)
    let answers := fun a : Option (Vector Word 8) => step s = .next (if n then
        q.setPart p { s.part p with answers := (s.part p).answers ++ [a] }
      else { q with module := tells m ((a.map Answer.words).getD .refused) })
    let owns := fun d => (s.part p).en = true ∧ (s.part p).dies.getLsbD d = true
    (¬runs → step s = .next q) ∧
    (runs →
      (∀ d, what = .dieRecord d → (n = false ∨ open? ∧ owns d → answers (some (s.die d).record)) ∧
        (n = true → ¬(open? ∧ owns d) → answers none)) ∧
      (what = .moduleRecord → answers (if n then none else some m.record)) ∧
      (what = .selftest → answers (if n then none else some m.selftest)) ∧
      (what = .certificates → if n then answers none else
        step s = .next { q with module := tells m (.certificates Config.certificates) }) ∧
      (∀ l, what = .linkstat l → let k := vget {} m.links l
        let may := open? ∧ (n = false ∨ (s.part p).en = true ∧ (s.part p).span.getLsbD l = true)
        (may → answers (some (word (k.up.toNat + 2 * k.train.toNat + k.downs % 2 ^ 8 * 2 ^ 8 + k.retry % 2 ^ 16 * 2 ^ 32 +
          k.peerdev.toNat * 2 ^ 48)))) ∧ (¬may → answers none)) ∧
      (∀ c, what = .speed c → (open? ∧ owns (c / 8) → answers (some (word (vget 0 s.steps c).toNat))) ∧
        (¬(open? ∧ owns (c / 8)) → answers none)))) ∧
  ∀ n : Fin 16, let l := vget ({} : Link) m.links n
    let count := (if l.ms = s.time.toNat / 10 ^ 6 then l.inMs else 0) + 1
    (∀ dev, (runs → exec (.linkTrained n dev) s = goes { m with links := vset m.links n { l with
      peerdev := dev, train := false, up := true } }) ∧ (¬runs → exec (.linkTrained n dev) s = .next s)) ∧
    (l.up = false → exec (.flitCrcError n) s = .next s) ∧
    (l.up = true → ∃ x : Link, exec (.flitCrcError n) s = goes { m with links := vset m.links n x } ∧
      x.retry = min (l.retry + 1) 0xFFFF ∧ x.peerdev = l.peerdev ∧
      (count ≤ 1000 → x.up = true ∧ x.inMs = count ∧ x.downs = l.downs) ∧
      (1000 < count → x.up = false ∧ x.train = true ∧ x.downs = min (l.downs + 1) 0xFF))

/-! ### The words, the step, memory and reset -/

/-- 05 R117, R152; 02 R46, R66; 06 R176; 12 R294; 14 R347: worked encodings of the spec, one or more of each opcode
group that it works out, and a word that no encoding matches. -/
def Obligations.DecodeWords : Prop :=
  decodeWord 0x00000000 = some .nop ∧ decodeWord 0x00000001 = none ∧
  decodeWord 0xF000C000 = some (.mod 0 0 1 8 0 0 0) ∧ decodeWord 0xF8000001 = some (.ximm 1) ∧
  decodeWord 0x04100003 = some (.brd 1 3) ∧ decodeWord 0x0D2FFFFC = some (.loop 2 0xFFFFC) ∧
  decodeWord 0x08003800 = some (.jmpv ⟨false, false, 7⟩) ∧ decodeWord 0x150C0823 = some (.mlog 3 1 2 3) ∧
  decodeWord 0x200C2050 = some (.add ⟨false, 3⟩ ⟨false, false, 4⟩ ⟨false, false, 5⟩) ∧
  decodeWord 0x30140001 = some (.addi ⟨false, 5⟩ 1) ∧
  decodeWord 0x400C2052 = some (.cmp ⟨false, 3⟩ ⟨false, false, 4⟩ ⟨false, false, 5⟩ 2) ∧
  decodeWord 0x52181240 = some (.fmul ⟨false, 6⟩ ⟨false, false, 2⟩ ⟨false, true, 4⟩) ∧
  decodeWord 0x60143009 = some (.cvt ⟨false, 5⟩ ⟨false, false, 6⟩ ⟨false, false, 0⟩ 9) ∧
  decodeWord 0x70080801 = some (.shfl ⟨false, 2⟩ ⟨false, false, 1⟩ ⟨false, false, 0⟩ 1) ∧
  decodeWord 0x80104102 = some (.mdot 4 ⟨false, false, 8⟩ ⟨false, false, 16⟩ 2) ∧
  decodeWord 0xD3242000 = some (.take ⟨false, 9⟩ ⟨false, false, 4⟩) ∧
  decodeWord 0xE3008870 = some (.csrw 17 ⟨false, false, 7⟩)

/-- 02 R51, R67: the word that an instruction encodes to decodes to that instruction, with every operand at every
value. -/
def Obligations.DecodeEncode : Prop := ∀ i w, encode i = some w → decodeWord w = some i

/-- 02 R51, R68: a word that decodes to an instruction is the word of that instruction: no two words mean the same,
and a word with a reserved field set decodes to nothing. -/
def Obligations.WordsAreUnique : Prop := ∀ w i, decodeWord w = some i → encode i = some w

/-- 02 R43, R45, R46; 07 R200; 11 R281; 01 R42: a step takes the next act of the agenda (the model's choice, log 2). A
ready seat runs the instruction that the word in its slot decodes to, of the bundle in hand, of the line that its core's
instruction cache holds, or of the sixteen bytes at its program counter, whose line is then held: where the cache is full
some line makes room (the model's choice, log 11), and sectors read as zeros are counted (21 R386; log 81). An event is its
instruction. A core's clock begins once a thousand thousandths of a clock have gathered, two thousand in a stretched one
(21 R387); with nothing to do, a nanosecond passes, what waited is tried again and the cores gather their clocks, unless
the module has no power. -/
def Obligations.StepRunsSlot : Prop := ∀ (s : State) rest,
  (∀ k, s.agenda = .issue k :: rest →
    let s0 := { s with agenda := rest, cur := k, stalled := false }
    let t := s.seat k
    let runs := fun (s1 : State) (i : Instr) => step s = match exec i s1 with
      | .next u => .next (u.after k (s1.seat k) i)
      | o => o
    (t.status ≠ .ready → step s = .next s0) ∧
    (t.status = .ready → ∀ (b : Vector Half 4) i,
      decodeWord (vget 0 b t.slot) = some i ∨ (decodeWord (vget 0 b t.slot) = none ∧ i = .unassignedOpcode (vget 0 b t.slot)) →
      (t.bundle = some b → runs s0 i) ∧
      (t.bundle = none → bundleBad b = none → (1 < t.slot → preBit b (t.slot - 1) = false) →
        (t.brkb = false ∨ 1 < t.slot ∨ t.brkbSkip = true) →
        let t1 := { t with bundle := some b, brkbPassed := true, brkbSkip := false }
        (∀ line, Sparse.get none (s.core (k / 256)).icache (t.pc.toNat / 128) = some line →
          b = tab 4 (fun j => vget 0 line (t.pc.toNat % 128 / 4 + j)) → runs (s0.setSeat k t1) i) ∧
        (∀ pa nc, Sparse.get none (s.core (k / 256)).icache (t.pc.toNat / 128) = none →
          s.xlate t.bind.part (k / 256 / 8) t.pc .fetch = .mem pa nc → s.fenced.getLsbD (stackDie (paStack pa)) = false →
          s.secPois pa = false →
          (∀ j, j < 4 → let q := pa / 128 * 128 + 32 * j
            s.held q = false ∧ s.secPois q = false ∧ s.secUE q = false) →
          (∀ j, j < 4 → vget 0 b j = BitVec.ofNat 32 (readBytes s.hbyte (pa + 4 * j) 4)) →
          ∃ s1, runs s1 i ∧ s1.seat k = t1 ∧ (∀ j, j ≠ k → s1.seat j = s.seat j) ∧
            s1 = { s0.elide ((List.range 4).map (fun j => (pa / 128 * 128 + 32 * j) / 32)) with
              seats := s1.seats, cores := s1.cores, freeCtr := s1.freeCtr } ∧
            ∀ c, { s1.core c with icache := (s.core c).icache } = s.core c ∧
              (c ≠ k / 256 → (s1.core c).icache = (s.core c).icache))))) ∧
  (∀ i, s.agenda = .event i :: rest → step s = exec i { s with agenda := rest }) ∧
  (∀ c, c < 64 → s.agenda = .clock c :: rest →
    let u := s.core c
    let cost := if u.stretched then 2000 else 1000
    (s.clocked c = false ∨ u.phase < cost → step s = .next { s with agenda := rest }) ∧
    (s.clocked c = true → cost ≤ u.phase → ∃ due : List Act,
      step s = .next { s.setCore c { u with clkc := u.clkc + 1, phase := u.phase - cost } with
        agenda := due ++ [.select c, .clock c] ++ rest })) ∧
  (s.agenda = [] → (s.module.phase = .off → step s = .next s) ∧
    (s.module.phase ≠ .off → ∃ (s1 : State) (due : List Act),
      step s = .next { s1.retry with agenda := due ++ (List.range 64).map .clock } ∧
      s1 = { s with time := s.time + 1, cores := s1.cores } ∧
      (∀ c, c < 64 → s1.core c = { s.core c with phase := (s.core c).phase + if s.clocked c then (s.core c).freq else 0 }) ∧
      (s.module.phase ≠ .ready → s1.retry = s1)))

/-- 11 R281 to R285; 02 R46; 12 R318: as a core's clock selects, each of its issue partitions takes its seats oldest first:
each pipe class and row once, what the budget allows, or a seat skipped sixteen times; a charge is the opcode's weight times
the active lanes, a uniform slot's one and of class S. A seat whose slot would stall is no candidate, and one that would
park is an issue (the model's choice, log 106). What is selected runs by row and seat, and those that YIELD has parked wake
after it. An issue stamps its seat and clears its skip counter. -/
def Obligations.Selection : Prop :=
  (∀ (s : State) k (b : Vector Half 4) i, (s.seat k).bundle = some b → decodeWord (vget 0 b (s.seat k).slot) = some i →
    noIssue i = false →
    let t := s.seat k
    let op := (vget 0 b t.slot).toNat / 2 ^ 24
    let within := fun lo hi => decide (lo ≤ op) && decide (op ≤ hi)
    let pipe : Pipe := if t.uniform then .s else if within 0x80 0x88 then .m
      else if within 0x20 0x79 || within 0x90 0x92 then .v else .s
    let weight := if within 0x80 0x81 then 3 else if within 0x50 0x60 || within 0x63 0x65 || within 0x87 0x87 then 2
      else if within 0x20 0x43 || within 0x61 0x79 || within 0x84 0x86 || within 0x90 0x91 || within 0xA0 0xA3 ||
        within 0xA6 0xA7 || within 0xB0 0xB6 || within 0xB8 0xB8 then 1 else 0
    let charge := weight * if t.uniform then 1 else ((List.range 64).filter t.gov.getLsbD).length
    let s0 := { s with cur := k, stalled := false }
    ∀ u, exec i s0 = .next u →
      (u.stalled = false → s.look k 4 = .issue pipe charge ((vget 0 b 0).getLsbD 16)) ∧
      (u = { s0 with stalled := true } → s.look k 4 = .stalled) ∧
      (u.stalled = true → u ≠ { s0 with stalled := true } → s.look k 4 = .free) ∧
      (u.stalled = false → (u.seat k).resident = true → let v := (u.after k t i).seat k
        v.stamp = (u.core (k / 256)).clkc ∧ v.skip = 0)) ∧
  (∀ (s : State) c rest, c < 64 → Sparse.wf Seat.blank s.seats = true → s.agenda = .select c :: rest →
    ∃ (st : Nat → State) (acts : Nat → List Act) (all wakes : List Act), st 0 = { s with agenda := rest } ∧
      (∀ q, q < 8 → Selects (st q) (st (q + 1)) c q (acts q)) ∧
      step s = .next { st 8 with agenda := all ++ wakes ++ rest } ∧
      (∀ a, a ∈ all ↔ ∃ q, q < 8 ∧ a ∈ acts q) ∧ (all.Pairwise fun a b => actSeat a < actSeat b) ∧
      ∀ a, a ∈ wakes ↔ ∃ k n, k / 256 = c ∧ (s.core c).idleNext.getLsbD (k / 4 % 8) = false ∧
        (s.seat k).status = .parked (.yield n) ∧ n < (s.core c).clkc ∧ a = .event (.seatWake (Fin.ofNat 16384 k)))

/-- 02 R68; 11 R281: no instruction is refused; a word stops the machine only on a seat that holds no row; and where
no word stands first on the agenda as an event, the step goes on (the model's choice, log 2). -/
def Obligations.NothingStops : Prop :=
  (∀ i s r, exec i s ≠ .refused r) ∧
  (∀ i s f, exec i s = .fault f → f = .noSeat s.cur ∧ s.now.resident = false) ∧
  ∀ s : State, (∀ i, s.agenda.head? = some (.event i) → encode i = none ∧ ∀ w, i ≠ .unassignedOpcode w) →
    ∃ t, step s = .next t

/-- 00 R6; 07 R184, R190: every step keeps the canonical form of the scratchpads and of HBM. -/
def Obligations.StepKeepsMemory : Prop := ∀ s t, MemOk s → step s = .next t → MemOk t

/-- What the spec gives for power-good: 01 R42; 04 R112; 07 R184, R192, R193, R196, R200; 10 R277; 11 R284, R289; 12
R311; 13 R320, R326, R327, R337; 14 R354, R363; 21 R384, R385, R387, R390, R392, R393. Memory has its canonical form.
Seats without a row are blank (log 4). -/
def Obligations.ResetValues : Prop :=
  let s := State.reset
  MemOk s ∧ s.time = 0 ∧ s.module.session = false ∧ s.module.mv = 0 ∧ s.module.ein = 0 ∧ s.module.eheat = 0 ∧
  s.module.phase = .starting ∧ s.accums = [] ∧ s.launches = [] ∧ s.fenced = 0 ∧ (∀ k, s.seat k = Seat.blank) ∧
  (∀ a, s.spad.byte a = 0) ∧ (∀ l, s.isAbsent l = false ∧ s.isPois l = false) ∧
  (∀ p, p < 8 → let u := s.part p
    u.en = false ∧ u.err = false ∧ u.span = 0 ∧ u.keel = 0 ∧ u.dies = 0 ∧ u.leaseLen = 8 ∧ u.bint = 2000 ∧ u.tuctl = 0 ∧
      u.supDone = false ∧ u.supRefused = false ∧ u.supReason = 0 ∧ u.pwrshare = 0 ∧ u.pwrErr = false ∧ u.queues = [] ∧
      (∀ d, d < 8 → vget 0 u.tregion d = 0) ∧ (∀ n, n < 128 → vget 0 u.ogrant n = 0 ∧ vget 0 u.igrant n = 0) ∧
      ∀ n, s.counter p n = {}) ∧
  (∀ k, k < 24 → let u := s.stack k
    u.par = true ∧ u.parW = true ∧ u.hErr = false ∧ u.hBusy = false ∧ u.pch = 0 ∧ u.retErr = false ∧ u.retBusy = false ∧
      ∀ i, i < 8 → vget 0 u.hmask i = 1#28 <<< i ∧ vget 0 u.hmaskW i = 1#28 <<< i) ∧
  (∀ d, d < 8 → let u := s.die d
    u.boosten = true ∧ u.mlim = 0xFFFFFFFFFF ∧ u.l = 0 ∧ u.q = 0 ∧ u.bst = 0 ∧ u.cappedPrev = true ∧ u.trial = false) ∧
  (∀ c, c < 64 → let u := s.core c
    u.clkc = 0 ∧ u.budget = 384 ∧ u.droopEn = true ∧ u.droopTh = 6 ∧ u.lcache = [] ∧ u.icache = [] ∧
      ∀ b, b < 16 → s.bin c b = {}) ∧
  ∀ n, n < 16 → vget ({} : Link) s.module.links n = {}
end

