-- ==== Sys2Proof/Laws/Sparse.lean ====
section
/-! SUPPORT. Sparse tables, memory and indexed vectors: reading back what was written, and the canonical form kept. -/
namespace Sys2Proof.Machine

/-! ### Vectors read by a natural index -/

@[simp] theorem vget_vrep {α : Type} (n i : Nat) (d a : α) : vget d (vrep n a) i = if i < n then a else d := by
  simp only [vget, vrep, List.getD_eq_getElem?_getD, List.getElem?_replicate]
  split <;> rfl

theorem vget_tab {α : Type} (n i : Nat) (d : α) (f : Nat → α) : vget d (tab n f) i = if i < n then f i else d := by
  simp only [vget, tab, List.getD_eq_getElem?_getD, List.getElem?_map]
  by_cases h : i < n
  · simp [h]
  · simp [h]

@[simp] theorem vget_tab_lt {α : Type} {n i : Nat} (h : i < n) (d : α) (f : Nat → α) : vget d (tab n f) i = f i := by
  simp [vget_tab, h]

theorem vget_vset {α : Type} {n : Nat} (d : α) (v : Vector α n) (i j : Nat) (a : α) :
    vget d (vset v i a) j = if i = j ∧ i < n then a else vget d v j := by
  simp only [vget, vset, List.getD_eq_getElem?_getD, List.getElem?_set]
  by_cases h : i = j
  · subst h
    by_cases hn : i < n
    · simp [hn]
    · simp [hn]
  · simp [h]

@[simp] theorem vget_vset_self {α : Type} {n i : Nat} (h : i < n) (d a : α) (v : Vector α n) :
    vget d (vset v i a) i = a := by simp [vget_vset, h]

@[simp] theorem vget_vset_ne {α : Type} {n i j : Nat} (h : i ≠ j) (d a : α) (v : Vector α n) :
    vget d (vset v i a) j = vget d v j := by simp [vget_vset, h]

/-- A lane of a merge (05 R118): the new value where the mask's bit is set. -/
theorem vget_merge {α : Type} {l : Nat} (h : l < 64) (d : α) (mask : Word) (new old : Nat → α) :
    vget d (merge mask new old) l = if mask.getLsbD l then new l else old l := by
  simp [merge, h]

/-! ### Sparse tables -/

section Tables
variable {α : Type} [DecidableEq α] (d : α)

/-- A key reads as before when another one is set. -/
theorem Sparse.get_set_ne (m : List (Nat × α)) {i j : Nat} (v : α) (h : j ≠ i) :
    Sparse.get d (Sparse.set d m i v) j = Sparse.get d m j := by
  induction m with
  | nil => simp only [Sparse.set]; split <;> simp [Sparse.get, h]
  | cons p r ih =>
    obtain ⟨k, w⟩ := p
    simp only [Sparse.set]
    split
    · split <;> simp [Sparse.get, h]
    · split
      · rename_i h2
        subst h2
        split <;> simp [Sparse.get, h]
      · simp [Sparse.get, ih]

/-- A key set to what is not the default reads back. -/
theorem Sparse.get_set_self (m : List (Nat × α)) (i : Nat) {v : α} (h : v ≠ d) :
    Sparse.get d (Sparse.set d m i v) i = v := by
  induction m with
  | nil => simp [Sparse.set, Sparse.get, h]
  | cons p r ih =>
    obtain ⟨k, w⟩ := p
    simp only [Sparse.set, h, if_false]
    split
    · simp [Sparse.get]
    · split
      · simp [Sparse.get]
      · rename_i h2
        simp [Sparse.get, h2, ih]

theorem Sparse.wfFrom_mono {lo lo' : Nat} (h : lo' ≤ lo) :
    ∀ {m : List (Nat × α)}, Sparse.wfFrom d lo m = true → Sparse.wfFrom d lo' m = true
  | [], _ => rfl
  | (k, v) :: r, hm => by
    simp only [Sparse.wfFrom, Bool.and_eq_true, decide_eq_true_eq] at hm ⊢
    exact ⟨⟨by omega, hm.1.2⟩, hm.2⟩

/-- Below a table's first key everything is the default. -/
theorem Sparse.get_below {lo i : Nat} (h : i < lo) :
    ∀ {m : List (Nat × α)}, Sparse.wfFrom d lo m = true → Sparse.get d m i = d
  | [], _ => rfl
  | (k, v) :: r, hm => by
    simp only [Sparse.wfFrom, Bool.and_eq_true, decide_eq_true_eq] at hm
    have : i ≠ k := by omega
    simp only [Sparse.get, this, if_false]
    exact Sparse.get_below (by omega) hm.2

theorem Sparse.wfFrom_set {lo i : Nat} (v : α) (hi : lo ≤ i) :
    ∀ {m : List (Nat × α)}, Sparse.wfFrom d lo m = true → Sparse.wfFrom d lo (Sparse.set d m i v) = true
  | [], _ => by
    simp only [Sparse.set]
    split
    · rfl
    · rename_i h
      simp [Sparse.wfFrom, hi, h]
  | (k, w) :: r, hm => by
    have hm' := hm
    simp only [Sparse.wfFrom, Bool.and_eq_true, decide_eq_true_eq] at hm
    simp only [Sparse.set]
    split
    · split
      · exact hm'
      · rename_i h1 h2
        simp only [Sparse.wfFrom, Bool.and_eq_true, decide_eq_true_eq]
        exact ⟨⟨hi, by simp [h2]⟩, ⟨by omega, hm.1.2⟩, hm.2⟩
    · split
      · split
        · exact Sparse.wfFrom_mono d (by omega) hm.2
        · rename_i h1 h2 h3
          simp only [Sparse.wfFrom, Bool.and_eq_true, decide_eq_true_eq]
          subst h2
          exact ⟨⟨hi, by simp [h3]⟩, hm.2⟩
      · simp only [Sparse.wfFrom, Bool.and_eq_true, decide_eq_true_eq]
        exact ⟨hm.1, Sparse.wfFrom_set v (by omega) hm.2⟩

/-- Setting a key keeps the canonical form. -/
theorem Sparse.wf_set {m : List (Nat × α)} (i : Nat) (v : α) (h : Sparse.wf d m = true) :
    Sparse.wf d (Sparse.set d m i v) = true := Sparse.wfFrom_set d v (Nat.zero_le i) h

theorem Sparse.wfFrom_filter (p : Nat × α → Bool) :
    ∀ {lo : Nat} {m : List (Nat × α)}, Sparse.wfFrom d lo m = true → Sparse.wfFrom d lo (m.filter p) = true
  | _, [], _ => rfl
  | lo, (k, v) :: r, hm => by
    simp only [Sparse.wfFrom, Bool.and_eq_true, decide_eq_true_eq] at hm
    have ih := Sparse.wfFrom_filter p hm.2
    simp only [List.filter_cons]
    split
    · simp only [Sparse.wfFrom, Bool.and_eq_true, decide_eq_true_eq]
      exact ⟨hm.1, ih⟩
    · exact Sparse.wfFrom_mono d (by omega) ih

/-- Dropping entries keeps the canonical form. -/
theorem Sparse.wf_filter (p : Nat × α → Bool) {m : List (Nat × α)} (h : Sparse.wf d m = true) :
    Sparse.wf d (m.filter p) = true := Sparse.wfFrom_filter d p h

/-- In canonical form any key reads back, whatever it was set to. -/
theorem Sparse.get_set {m : List (Nat × α)} (h : Sparse.wf d m = true) (i j : Nat) (v : α) :
    Sparse.get d (Sparse.set d m i v) j = if j = i then v else Sparse.get d m j := by
  by_cases hj : j = i
  · subst hj
    simp only [if_true]
    by_cases hv : v = d
    · subst hv
      exact go m h
    · exact Sparse.get_set_self d m j hv
  · simp only [hj, if_false]
    exact Sparse.get_set_ne d m v hj
where
  go {v : α} {j : Nat} : ∀ (m : List (Nat × α)) {lo : Nat}, Sparse.wfFrom v lo m = true →
      Sparse.get v (Sparse.set v m j v) j = v
    | [], _, _ => by simp [Sparse.set, Sparse.get]
    | (k, w) :: r, lo, hm => by
      have hm' := hm
      simp only [Sparse.wfFrom, Bool.and_eq_true, decide_eq_true_eq] at hm
      simp only [Sparse.set, if_true]
      split
      · rename_i h1
        have : j ≠ k := by omega
        simp only [Sparse.get, this, if_false]
        exact Sparse.get_below v (by omega) hm.2
      · split
        · rename_i h1 h2
          exact Sparse.get_below v (by omega) hm.2
        · rename_i h1 h2
          simp only [Sparse.get, h2, if_false]
          exact go r hm.2

end Tables

/-! ### Memory -/

@[simp] theorem Memory.byte_put_self (m : Memory) (a : Nat) (b : Byte) (h : m.wf = true) : (m.put a b).byte a = b :=
  (Sparse.get_set _ h a a b).trans (if_pos rfl)

theorem Memory.byte_put_ne (m : Memory) {a c : Nat} (b : Byte) (h : c ≠ a) : (m.put a b).byte c = m.byte c :=
  Sparse.get_set_ne _ m b h

theorem Memory.wf_put {m : Memory} (a : Nat) (b : Byte) (h : m.wf = true) : (m.put a b).wf = true :=
  Sparse.wf_set _ a b h

theorem Memory.wf_write : ∀ (n : Nat) {m : Memory} (a v : Nat), m.wf = true → (m.write a n v).wf = true
  | 0, _, _, _, h => h
  | n + 1, _, a, v, h => Memory.wf_write n (a + 1) (v / 256) (Memory.wf_put a _ h)

/-- A write leaves every byte outside it alone. -/
theorem Memory.byte_write_outside : ∀ (n : Nat) (m : Memory) (a v c : Nat), c < a ∨ a + n ≤ c →
    (m.write a n v).byte c = m.byte c
  | 0, _, _, _, _, _ => rfl
  | n + 1, m, a, v, c, h => by
    rw [Memory.write, Memory.byte_write_outside n _ _ _ _ (by omega)]
    exact Memory.byte_put_ne m _ (by omega)

/-- A byte of a write reads back: byte `i` of the little-endian value. -/
theorem Memory.byte_write_inside : ∀ (n : Nat) {m : Memory} (a v i : Nat), m.wf = true → i < n →
    (m.write a n v).byte (a + i) = BitVec.ofNat 8 (v / 256 ^ i)
  | 0, _, _, _, _, _, h => absurd h (by omega)
  | n + 1, m, a, v, i, hm, hi => by
    rw [Memory.write]
    cases i with
    | zero =>
      rw [Memory.byte_write_outside _ _ _ _ _ (by omega)]
      simp [hm]
    | succ i =>
      have := Memory.byte_write_inside n (a + 1) (v / 256) i (Memory.wf_put a (BitVec.ofNat 8 v) hm) (by omega)
      rw [show a + (i + 1) = a + 1 + i by omega, this, Nat.div_div_eq_div_mul, Nat.pow_succ, Nat.mul_comm]

/-- What was written reads back. -/
theorem Memory.read_write : ∀ (n : Nat) {m : Memory} (a v : Nat), m.wf = true → (m.write a n v).read a n = v % 256 ^ n
  | 0, _, _, v, _ => by simp [Memory.read, Nat.mod_one]
  | n + 1, m, a, v, h => by
    rw [Memory.read, Memory.write, Memory.byte_write_outside _ _ _ _ _ (by omega), Memory.byte_put_self _ _ _ h,
      Memory.read_write n _ _ (Memory.wf_put a _ h), Nat.pow_succ', Nat.mod_mul]
    simp

/-- A read sees only its own bytes. -/
theorem Memory.read_congr : ∀ (n : Nat) {m m' : Memory} (a : Nat), (∀ c, a ≤ c → c < a + n → m.byte c = m'.byte c) →
    m.read a n = m'.read a n
  | 0, _, _, _, _ => rfl
  | n + 1, _, _, a, h => by
    rw [Memory.read, Memory.read, h a (by omega) (by omega), Memory.read_congr n (a + 1) (fun c h1 h2 => h c (by omega) (by omega))]

theorem Memory.wf_writes : ∀ (ws : List (Nat × Nat × Nat)) {m : Memory}, m.wf = true →
    (ws.foldl (fun m w => Memory.write m w.1 w.2.1 w.2.2) m).wf = true
  | [], _, h => h
  | w :: ws, _, h => Memory.wf_writes ws (Memory.wf_write w.2.1 w.1 w.2.2 h)

/-- A list of writes leaves every byte outside them alone. -/
theorem Memory.byte_writes_outside : ∀ (ws : List (Nat × Nat × Nat)) (m : Memory) (c : Nat),
    (∀ w ∈ ws, c < w.1 ∨ w.1 + w.2.1 ≤ c) →
    (ws.foldl (fun m w => Memory.write m w.1 w.2.1 w.2.2) m).byte c = m.byte c
  | [], _, _, _ => rfl
  | w :: ws, m, c, h => by
    rw [List.foldl_cons, Memory.byte_writes_outside ws _ c (fun x hx => h x (List.mem_cons_of_mem _ hx)),
      Memory.byte_write_outside _ _ _ _ _ (h w List.mem_cons_self)]

end Sys2Proof.Machine
end

