-- ==== Sys2Proof/Laws/State.lean ====
section
/-! SUPPORT. What the named updates of the state and of a seat leave alone, field by field. -/
namespace Sys2Proof.Machine

/-! `setSeat` changes seats alone. -/
section
variable (s : State) (k : Nat) (t : Seat)
@[simp] theorem State.setSeat_time : (s.setSeat k t).time = s.time := rfl
@[simp] theorem State.setSeat_agenda : (s.setSeat k t).agenda = s.agenda := rfl
@[simp] theorem State.setSeat_cur : (s.setSeat k t).cur = s.cur := rfl
@[simp] theorem State.setSeat_stalled : (s.setSeat k t).stalled = s.stalled := rfl
@[simp] theorem State.setSeat_freeCtr : (s.setSeat k t).freeCtr = s.freeCtr := rfl
@[simp] theorem State.setSeat_rows : (s.setSeat k t).rows = s.rows := rfl
@[simp] theorem State.setSeat_cores : (s.setSeat k t).cores = s.cores := rfl
@[simp] theorem State.setSeat_spad : (s.setSeat k t).spad = s.spad := rfl
@[simp] theorem State.setSeat_absent : (s.setSeat k t).absent = s.absent := rfl
@[simp] theorem State.setSeat_spois : (s.setSeat k t).spois = s.spois := rfl
@[simp] theorem State.setSeat_hbm : (s.setSeat k t).hbm = s.hbm := rfl
@[simp] theorem State.setSeat_epoch : (s.setSeat k t).epoch = s.epoch := rfl
@[simp] theorem State.setSeat_kept : (s.setSeat k t).kept = s.kept := rfl
@[simp] theorem State.setSeat_hpois : (s.setSeat k t).hpois = s.hpois := rfl
@[simp] theorem State.setSeat_hue : (s.setSeat k t).hue = s.hue := rfl
@[simp] theorem State.setSeat_leases : (s.setSeat k t).leases = s.leases := rfl
@[simp] theorem State.setSeat_steps : (s.setSeat k t).steps = s.steps := rfl
@[simp] theorem State.setSeat_badRows : (s.setSeat k t).badRows = s.badRows := rfl
@[simp] theorem State.setSeat_badSeats : (s.setSeat k t).badSeats = s.badSeats := rfl
@[simp] theorem State.setSeat_parts : (s.setSeat k t).parts = s.parts := rfl
@[simp] theorem State.setSeat_launches : (s.setSeat k t).launches = s.launches := rfl
@[simp] theorem State.setSeat_fenced : (s.setSeat k t).fenced = s.fenced := rfl
@[simp] theorem State.setSeat_dies : (s.setSeat k t).dies = s.dies := rfl
@[simp] theorem State.setSeat_hbmStacks : (s.setSeat k t).hbmStacks = s.hbmStacks := rfl
@[simp] theorem State.setSeat_accums : (s.setSeat k t).accums = s.accums := rfl
@[simp] theorem State.setSeat_contribs : (s.setSeat k t).contribs = s.contribs := rfl
@[simp] theorem State.setSeat_packets : (s.setSeat k t).packets = s.packets := rfl
@[simp] theorem State.setSeat_nextPacket : (s.setSeat k t).nextPacket = s.nextPacket := rfl
@[simp] theorem State.setSeat_module : (s.setSeat k t).module = s.module := rfl
@[simp] theorem State.setSeat_peerReplies : (s.setSeat k t).peerReplies = s.peerReplies := rfl
@[simp] theorem State.setSeat_spanOut : (s.setSeat k t).spanOut = s.spanOut := rfl
@[simp] theorem State.setSeat_spanIn : (s.setSeat k t).spanIn = s.spanIn := rfl
@[simp] theorem State.setSeat_acks : (s.setSeat k t).acks = s.acks := rfl
@[simp] theorem State.setSeat_elided : (s.setSeat k t).elided = s.elided := rfl
end
/-! `setRow` changes rows alone. -/
section
variable (s : State) (k : Nat) (r : RowUnit)
@[simp] theorem State.setRow_time : (s.setRow k r).time = s.time := rfl
@[simp] theorem State.setRow_agenda : (s.setRow k r).agenda = s.agenda := rfl
@[simp] theorem State.setRow_cur : (s.setRow k r).cur = s.cur := rfl
@[simp] theorem State.setRow_stalled : (s.setRow k r).stalled = s.stalled := rfl
@[simp] theorem State.setRow_freeCtr : (s.setRow k r).freeCtr = s.freeCtr := rfl
@[simp] theorem State.setRow_seats : (s.setRow k r).seats = s.seats := rfl
@[simp] theorem State.setRow_cores : (s.setRow k r).cores = s.cores := rfl
@[simp] theorem State.setRow_spad : (s.setRow k r).spad = s.spad := rfl
@[simp] theorem State.setRow_absent : (s.setRow k r).absent = s.absent := rfl
@[simp] theorem State.setRow_spois : (s.setRow k r).spois = s.spois := rfl
@[simp] theorem State.setRow_hbm : (s.setRow k r).hbm = s.hbm := rfl
@[simp] theorem State.setRow_epoch : (s.setRow k r).epoch = s.epoch := rfl
@[simp] theorem State.setRow_kept : (s.setRow k r).kept = s.kept := rfl
@[simp] theorem State.setRow_hpois : (s.setRow k r).hpois = s.hpois := rfl
@[simp] theorem State.setRow_hue : (s.setRow k r).hue = s.hue := rfl
@[simp] theorem State.setRow_leases : (s.setRow k r).leases = s.leases := rfl
@[simp] theorem State.setRow_steps : (s.setRow k r).steps = s.steps := rfl
@[simp] theorem State.setRow_badRows : (s.setRow k r).badRows = s.badRows := rfl
@[simp] theorem State.setRow_badSeats : (s.setRow k r).badSeats = s.badSeats := rfl
@[simp] theorem State.setRow_parts : (s.setRow k r).parts = s.parts := rfl
@[simp] theorem State.setRow_launches : (s.setRow k r).launches = s.launches := rfl
@[simp] theorem State.setRow_fenced : (s.setRow k r).fenced = s.fenced := rfl
@[simp] theorem State.setRow_dies : (s.setRow k r).dies = s.dies := rfl
@[simp] theorem State.setRow_hbmStacks : (s.setRow k r).hbmStacks = s.hbmStacks := rfl
@[simp] theorem State.setRow_accums : (s.setRow k r).accums = s.accums := rfl
@[simp] theorem State.setRow_contribs : (s.setRow k r).contribs = s.contribs := rfl
@[simp] theorem State.setRow_packets : (s.setRow k r).packets = s.packets := rfl
@[simp] theorem State.setRow_nextPacket : (s.setRow k r).nextPacket = s.nextPacket := rfl
@[simp] theorem State.setRow_module : (s.setRow k r).module = s.module := rfl
@[simp] theorem State.setRow_peerReplies : (s.setRow k r).peerReplies = s.peerReplies := rfl
@[simp] theorem State.setRow_spanOut : (s.setRow k r).spanOut = s.spanOut := rfl
@[simp] theorem State.setRow_spanIn : (s.setRow k r).spanIn = s.spanIn := rfl
@[simp] theorem State.setRow_acks : (s.setRow k r).acks = s.acks := rfl
@[simp] theorem State.setRow_elided : (s.setRow k r).elided = s.elided := rfl
end
/-! `setCore` changes cores alone. -/
section
variable (s : State) (c : Nat) (u : CoreUnit)
@[simp] theorem State.setCore_time : (s.setCore c u).time = s.time := rfl
@[simp] theorem State.setCore_agenda : (s.setCore c u).agenda = s.agenda := rfl
@[simp] theorem State.setCore_cur : (s.setCore c u).cur = s.cur := rfl
@[simp] theorem State.setCore_stalled : (s.setCore c u).stalled = s.stalled := rfl
@[simp] theorem State.setCore_freeCtr : (s.setCore c u).freeCtr = s.freeCtr := rfl
@[simp] theorem State.setCore_seats : (s.setCore c u).seats = s.seats := rfl
@[simp] theorem State.setCore_rows : (s.setCore c u).rows = s.rows := rfl
@[simp] theorem State.setCore_spad : (s.setCore c u).spad = s.spad := rfl
@[simp] theorem State.setCore_absent : (s.setCore c u).absent = s.absent := rfl
@[simp] theorem State.setCore_spois : (s.setCore c u).spois = s.spois := rfl
@[simp] theorem State.setCore_hbm : (s.setCore c u).hbm = s.hbm := rfl
@[simp] theorem State.setCore_epoch : (s.setCore c u).epoch = s.epoch := rfl
@[simp] theorem State.setCore_kept : (s.setCore c u).kept = s.kept := rfl
@[simp] theorem State.setCore_hpois : (s.setCore c u).hpois = s.hpois := rfl
@[simp] theorem State.setCore_hue : (s.setCore c u).hue = s.hue := rfl
@[simp] theorem State.setCore_leases : (s.setCore c u).leases = s.leases := rfl
@[simp] theorem State.setCore_steps : (s.setCore c u).steps = s.steps := rfl
@[simp] theorem State.setCore_badRows : (s.setCore c u).badRows = s.badRows := rfl
@[simp] theorem State.setCore_badSeats : (s.setCore c u).badSeats = s.badSeats := rfl
@[simp] theorem State.setCore_parts : (s.setCore c u).parts = s.parts := rfl
@[simp] theorem State.setCore_launches : (s.setCore c u).launches = s.launches := rfl
@[simp] theorem State.setCore_fenced : (s.setCore c u).fenced = s.fenced := rfl
@[simp] theorem State.setCore_dies : (s.setCore c u).dies = s.dies := rfl
@[simp] theorem State.setCore_hbmStacks : (s.setCore c u).hbmStacks = s.hbmStacks := rfl
@[simp] theorem State.setCore_accums : (s.setCore c u).accums = s.accums := rfl
@[simp] theorem State.setCore_contribs : (s.setCore c u).contribs = s.contribs := rfl
@[simp] theorem State.setCore_packets : (s.setCore c u).packets = s.packets := rfl
@[simp] theorem State.setCore_nextPacket : (s.setCore c u).nextPacket = s.nextPacket := rfl
@[simp] theorem State.setCore_module : (s.setCore c u).module = s.module := rfl
@[simp] theorem State.setCore_peerReplies : (s.setCore c u).peerReplies = s.peerReplies := rfl
@[simp] theorem State.setCore_spanOut : (s.setCore c u).spanOut = s.spanOut := rfl
@[simp] theorem State.setCore_spanIn : (s.setCore c u).spanIn = s.spanIn := rfl
@[simp] theorem State.setCore_acks : (s.setCore c u).acks = s.acks := rfl
@[simp] theorem State.setCore_elided : (s.setCore c u).elided = s.elided := rfl
end
/-! `setPart` changes parts alone. -/
section
variable (s : State) (p : Nat) (u : Part)
@[simp] theorem State.setPart_time : (s.setPart p u).time = s.time := rfl
@[simp] theorem State.setPart_agenda : (s.setPart p u).agenda = s.agenda := rfl
@[simp] theorem State.setPart_cur : (s.setPart p u).cur = s.cur := rfl
@[simp] theorem State.setPart_stalled : (s.setPart p u).stalled = s.stalled := rfl
@[simp] theorem State.setPart_freeCtr : (s.setPart p u).freeCtr = s.freeCtr := rfl
@[simp] theorem State.setPart_seats : (s.setPart p u).seats = s.seats := rfl
@[simp] theorem State.setPart_rows : (s.setPart p u).rows = s.rows := rfl
@[simp] theorem State.setPart_cores : (s.setPart p u).cores = s.cores := rfl
@[simp] theorem State.setPart_spad : (s.setPart p u).spad = s.spad := rfl
@[simp] theorem State.setPart_absent : (s.setPart p u).absent = s.absent := rfl
@[simp] theorem State.setPart_spois : (s.setPart p u).spois = s.spois := rfl
@[simp] theorem State.setPart_hbm : (s.setPart p u).hbm = s.hbm := rfl
@[simp] theorem State.setPart_epoch : (s.setPart p u).epoch = s.epoch := rfl
@[simp] theorem State.setPart_kept : (s.setPart p u).kept = s.kept := rfl
@[simp] theorem State.setPart_hpois : (s.setPart p u).hpois = s.hpois := rfl
@[simp] theorem State.setPart_hue : (s.setPart p u).hue = s.hue := rfl
@[simp] theorem State.setPart_leases : (s.setPart p u).leases = s.leases := rfl
@[simp] theorem State.setPart_steps : (s.setPart p u).steps = s.steps := rfl
@[simp] theorem State.setPart_badRows : (s.setPart p u).badRows = s.badRows := rfl
@[simp] theorem State.setPart_badSeats : (s.setPart p u).badSeats = s.badSeats := rfl
@[simp] theorem State.setPart_launches : (s.setPart p u).launches = s.launches := rfl
@[simp] theorem State.setPart_fenced : (s.setPart p u).fenced = s.fenced := rfl
@[simp] theorem State.setPart_dies : (s.setPart p u).dies = s.dies := rfl
@[simp] theorem State.setPart_hbmStacks : (s.setPart p u).hbmStacks = s.hbmStacks := rfl
@[simp] theorem State.setPart_accums : (s.setPart p u).accums = s.accums := rfl
@[simp] theorem State.setPart_contribs : (s.setPart p u).contribs = s.contribs := rfl
@[simp] theorem State.setPart_packets : (s.setPart p u).packets = s.packets := rfl
@[simp] theorem State.setPart_nextPacket : (s.setPart p u).nextPacket = s.nextPacket := rfl
@[simp] theorem State.setPart_module : (s.setPart p u).module = s.module := rfl
@[simp] theorem State.setPart_peerReplies : (s.setPart p u).peerReplies = s.peerReplies := rfl
@[simp] theorem State.setPart_spanOut : (s.setPart p u).spanOut = s.spanOut := rfl
@[simp] theorem State.setPart_spanIn : (s.setPart p u).spanIn = s.spanIn := rfl
@[simp] theorem State.setPart_acks : (s.setPart p u).acks = s.acks := rfl
@[simp] theorem State.setPart_elided : (s.setPart p u).elided = s.elided := rfl
end
/-! `useFree` changes freeCtr alone. -/
section
variable (s : State) (n : Nat)
@[simp] theorem State.useFree_time : (s.useFree n).time = s.time := rfl
@[simp] theorem State.useFree_agenda : (s.useFree n).agenda = s.agenda := rfl
@[simp] theorem State.useFree_cur : (s.useFree n).cur = s.cur := rfl
@[simp] theorem State.useFree_stalled : (s.useFree n).stalled = s.stalled := rfl
@[simp] theorem State.useFree_seats : (s.useFree n).seats = s.seats := rfl
@[simp] theorem State.useFree_rows : (s.useFree n).rows = s.rows := rfl
@[simp] theorem State.useFree_cores : (s.useFree n).cores = s.cores := rfl
@[simp] theorem State.useFree_spad : (s.useFree n).spad = s.spad := rfl
@[simp] theorem State.useFree_absent : (s.useFree n).absent = s.absent := rfl
@[simp] theorem State.useFree_spois : (s.useFree n).spois = s.spois := rfl
@[simp] theorem State.useFree_hbm : (s.useFree n).hbm = s.hbm := rfl
@[simp] theorem State.useFree_epoch : (s.useFree n).epoch = s.epoch := rfl
@[simp] theorem State.useFree_kept : (s.useFree n).kept = s.kept := rfl
@[simp] theorem State.useFree_hpois : (s.useFree n).hpois = s.hpois := rfl
@[simp] theorem State.useFree_hue : (s.useFree n).hue = s.hue := rfl
@[simp] theorem State.useFree_leases : (s.useFree n).leases = s.leases := rfl
@[simp] theorem State.useFree_steps : (s.useFree n).steps = s.steps := rfl
@[simp] theorem State.useFree_badRows : (s.useFree n).badRows = s.badRows := rfl
@[simp] theorem State.useFree_badSeats : (s.useFree n).badSeats = s.badSeats := rfl
@[simp] theorem State.useFree_parts : (s.useFree n).parts = s.parts := rfl
@[simp] theorem State.useFree_launches : (s.useFree n).launches = s.launches := rfl
@[simp] theorem State.useFree_fenced : (s.useFree n).fenced = s.fenced := rfl
@[simp] theorem State.useFree_dies : (s.useFree n).dies = s.dies := rfl
@[simp] theorem State.useFree_hbmStacks : (s.useFree n).hbmStacks = s.hbmStacks := rfl
@[simp] theorem State.useFree_accums : (s.useFree n).accums = s.accums := rfl
@[simp] theorem State.useFree_contribs : (s.useFree n).contribs = s.contribs := rfl
@[simp] theorem State.useFree_packets : (s.useFree n).packets = s.packets := rfl
@[simp] theorem State.useFree_nextPacket : (s.useFree n).nextPacket = s.nextPacket := rfl
@[simp] theorem State.useFree_module : (s.useFree n).module = s.module := rfl
@[simp] theorem State.useFree_peerReplies : (s.useFree n).peerReplies = s.peerReplies := rfl
@[simp] theorem State.useFree_spanOut : (s.useFree n).spanOut = s.spanOut := rfl
@[simp] theorem State.useFree_spanIn : (s.useFree n).spanIn = s.spanIn := rfl
@[simp] theorem State.useFree_acks : (s.useFree n).acks = s.acks := rfl
@[simp] theorem State.useFree_elided : (s.useFree n).elided = s.elided := rfl
end
/-! `setStack` changes hbmStacks alone. -/
section
variable (s : State) (k : Nat) (u : Stack)
@[simp] theorem State.setStack_time : (s.setStack k u).time = s.time := rfl
@[simp] theorem State.setStack_agenda : (s.setStack k u).agenda = s.agenda := rfl
@[simp] theorem State.setStack_cur : (s.setStack k u).cur = s.cur := rfl
@[simp] theorem State.setStack_stalled : (s.setStack k u).stalled = s.stalled := rfl
@[simp] theorem State.setStack_freeCtr : (s.setStack k u).freeCtr = s.freeCtr := rfl
@[simp] theorem State.setStack_seats : (s.setStack k u).seats = s.seats := rfl
@[simp] theorem State.setStack_rows : (s.setStack k u).rows = s.rows := rfl
@[simp] theorem State.setStack_cores : (s.setStack k u).cores = s.cores := rfl
@[simp] theorem State.setStack_spad : (s.setStack k u).spad = s.spad := rfl
@[simp] theorem State.setStack_absent : (s.setStack k u).absent = s.absent := rfl
@[simp] theorem State.setStack_spois : (s.setStack k u).spois = s.spois := rfl
@[simp] theorem State.setStack_hbm : (s.setStack k u).hbm = s.hbm := rfl
@[simp] theorem State.setStack_epoch : (s.setStack k u).epoch = s.epoch := rfl
@[simp] theorem State.setStack_kept : (s.setStack k u).kept = s.kept := rfl
@[simp] theorem State.setStack_hpois : (s.setStack k u).hpois = s.hpois := rfl
@[simp] theorem State.setStack_hue : (s.setStack k u).hue = s.hue := rfl
@[simp] theorem State.setStack_leases : (s.setStack k u).leases = s.leases := rfl
@[simp] theorem State.setStack_steps : (s.setStack k u).steps = s.steps := rfl
@[simp] theorem State.setStack_badRows : (s.setStack k u).badRows = s.badRows := rfl
@[simp] theorem State.setStack_badSeats : (s.setStack k u).badSeats = s.badSeats := rfl
@[simp] theorem State.setStack_parts : (s.setStack k u).parts = s.parts := rfl
@[simp] theorem State.setStack_launches : (s.setStack k u).launches = s.launches := rfl
@[simp] theorem State.setStack_fenced : (s.setStack k u).fenced = s.fenced := rfl
@[simp] theorem State.setStack_dies : (s.setStack k u).dies = s.dies := rfl
@[simp] theorem State.setStack_accums : (s.setStack k u).accums = s.accums := rfl
@[simp] theorem State.setStack_contribs : (s.setStack k u).contribs = s.contribs := rfl
@[simp] theorem State.setStack_packets : (s.setStack k u).packets = s.packets := rfl
@[simp] theorem State.setStack_nextPacket : (s.setStack k u).nextPacket = s.nextPacket := rfl
@[simp] theorem State.setStack_module : (s.setStack k u).module = s.module := rfl
@[simp] theorem State.setStack_peerReplies : (s.setStack k u).peerReplies = s.peerReplies := rfl
@[simp] theorem State.setStack_spanOut : (s.setStack k u).spanOut = s.spanOut := rfl
@[simp] theorem State.setStack_spanIn : (s.setStack k u).spanIn = s.spanIn := rfl
@[simp] theorem State.setStack_acks : (s.setStack k u).acks = s.acks := rfl
@[simp] theorem State.setStack_elided : (s.setStack k u).elided = s.elided := rfl
end
/-! `setDie` changes dies alone. -/
section
variable (s : State) (d : Nat) (u : Die)
@[simp] theorem State.setDie_time : (s.setDie d u).time = s.time := rfl
@[simp] theorem State.setDie_agenda : (s.setDie d u).agenda = s.agenda := rfl
@[simp] theorem State.setDie_cur : (s.setDie d u).cur = s.cur := rfl
@[simp] theorem State.setDie_stalled : (s.setDie d u).stalled = s.stalled := rfl
@[simp] theorem State.setDie_freeCtr : (s.setDie d u).freeCtr = s.freeCtr := rfl
@[simp] theorem State.setDie_seats : (s.setDie d u).seats = s.seats := rfl
@[simp] theorem State.setDie_rows : (s.setDie d u).rows = s.rows := rfl
@[simp] theorem State.setDie_cores : (s.setDie d u).cores = s.cores := rfl
@[simp] theorem State.setDie_spad : (s.setDie d u).spad = s.spad := rfl
@[simp] theorem State.setDie_absent : (s.setDie d u).absent = s.absent := rfl
@[simp] theorem State.setDie_spois : (s.setDie d u).spois = s.spois := rfl
@[simp] theorem State.setDie_hbm : (s.setDie d u).hbm = s.hbm := rfl
@[simp] theorem State.setDie_epoch : (s.setDie d u).epoch = s.epoch := rfl
@[simp] theorem State.setDie_kept : (s.setDie d u).kept = s.kept := rfl
@[simp] theorem State.setDie_hpois : (s.setDie d u).hpois = s.hpois := rfl
@[simp] theorem State.setDie_hue : (s.setDie d u).hue = s.hue := rfl
@[simp] theorem State.setDie_leases : (s.setDie d u).leases = s.leases := rfl
@[simp] theorem State.setDie_steps : (s.setDie d u).steps = s.steps := rfl
@[simp] theorem State.setDie_badRows : (s.setDie d u).badRows = s.badRows := rfl
@[simp] theorem State.setDie_badSeats : (s.setDie d u).badSeats = s.badSeats := rfl
@[simp] theorem State.setDie_parts : (s.setDie d u).parts = s.parts := rfl
@[simp] theorem State.setDie_launches : (s.setDie d u).launches = s.launches := rfl
@[simp] theorem State.setDie_fenced : (s.setDie d u).fenced = s.fenced := rfl
@[simp] theorem State.setDie_hbmStacks : (s.setDie d u).hbmStacks = s.hbmStacks := rfl
@[simp] theorem State.setDie_accums : (s.setDie d u).accums = s.accums := rfl
@[simp] theorem State.setDie_contribs : (s.setDie d u).contribs = s.contribs := rfl
@[simp] theorem State.setDie_packets : (s.setDie d u).packets = s.packets := rfl
@[simp] theorem State.setDie_nextPacket : (s.setDie d u).nextPacket = s.nextPacket := rfl
@[simp] theorem State.setDie_module : (s.setDie d u).module = s.module := rfl
@[simp] theorem State.setDie_peerReplies : (s.setDie d u).peerReplies = s.peerReplies := rfl
@[simp] theorem State.setDie_spanOut : (s.setDie d u).spanOut = s.spanOut := rfl
@[simp] theorem State.setDie_spanIn : (s.setDie d u).spanIn = s.spanIn := rfl
@[simp] theorem State.setDie_acks : (s.setDie d u).acks = s.acks := rfl
@[simp] theorem State.setDie_elided : (s.setDie d u).elided = s.elided := rfl
end
/-! `putX` changes x, xdead, xpois alone. -/
section
variable (t : Seat) (n : Nat) (m : Word) (v : Nat → Word)
@[simp] theorem Seat.putX_status : (t.putX n m v).status = t.status := by unfold Seat.putX; split <;> rfl
@[simp] theorem Seat.putX_bind : (t.putX n m v).bind = t.bind := by unfold Seat.putX; split <;> rfl
@[simp] theorem Seat.putX_pc : (t.putX n m v).pc = t.pc := by unfold Seat.putX; split <;> rfl
@[simp] theorem Seat.putX_slot : (t.putX n m v).slot = t.slot := by unfold Seat.putX; split <;> rfl
@[simp] theorem Seat.putX_bundle : (t.putX n m v).bundle = t.bundle := by unfold Seat.putX; split <;> rfl
@[simp] theorem Seat.putX_pmod : (t.putX n m v).pmod = t.pmod := by unfold Seat.putX; split <;> rfl
@[simp] theorem Seat.putX_pximm : (t.putX n m v).pximm = t.pximm := by unfold Seat.putX; split <;> rfl
@[simp] theorem Seat.putX_pslot : (t.putX n m v).pslot = t.pslot := by unfold Seat.putX; split <;> rfl
@[simp] theorem Seat.putX_brkbSkip : (t.putX n m v).brkbSkip = t.brkbSkip := by unfold Seat.putX; split <;> rfl
@[simp] theorem Seat.putX_brkbPassed : (t.putX n m v).brkbPassed = t.brkbPassed := by unfold Seat.putX; split <;> rfl
@[simp] theorem Seat.putX_s : (t.putX n m v).s = t.s := by unfold Seat.putX; split <;> rfl
@[simp] theorem Seat.putX_acc : (t.putX n m v).acc = t.acc := by unfold Seat.putX; split <;> rfl
@[simp] theorem Seat.putX_ablk : (t.putX n m v).ablk = t.ablk := by unfold Seat.putX; split <;> rfl
@[simp] theorem Seat.putX_nblk : (t.putX n m v).nblk = t.nblk := by unfold Seat.putX; split <;> rfl
@[simp] theorem Seat.putX_m : (t.putX n m v).m = t.m := by unfold Seat.putX; split <;> rfl
@[simp] theorem Seat.putX_cb : (t.putX n m v).cb = t.cb := by unfold Seat.putX; split <;> rfl
@[simp] theorem Seat.putX_lat : (t.putX n m v).lat = t.lat := by unfold Seat.putX; split <;> rfl
@[simp] theorem Seat.putX_shadow : (t.putX n m v).shadow = t.shadow := by unfold Seat.putX; split <;> rfl
@[simp] theorem Seat.putX_stack : (t.putX n m v).stack = t.stack := by unfold Seat.putX; split <;> rfl
@[simp] theorem Seat.putX_exited : (t.putX n m v).exited = t.exited := by unfold Seat.putX; split <;> rfl
@[simp] theorem Seat.putX_mode : (t.putX n m v).mode = t.mode := by unfold Seat.putX; split <;> rfl
@[simp] theorem Seat.putX_fstat : (t.putX n m v).fstat = t.fstat := by unfold Seat.putX; split <;> rfl
@[simp] theorem Seat.putX_mflags : (t.putX n m v).mflags = t.mflags := by unfold Seat.putX; split <;> rfl
@[simp] theorem Seat.putX_batch : (t.putX n m v).batch = t.batch := by unfold Seat.putX; split <;> rfl
@[simp] theorem Seat.putX_sdead : (t.putX n m v).sdead = t.sdead := by unfold Seat.putX; split <;> rfl
@[simp] theorem Seat.putX_spois : (t.putX n m v).spois = t.spois := by unfold Seat.putX; split <;> rfl
@[simp] theorem Seat.putX_mpois : (t.putX n m v).mpois = t.mpois := by unfold Seat.putX; split <;> rfl
@[simp] theorem Seat.putX_cbpois : (t.putX n m v).cbpois = t.cbpois := by unfold Seat.putX; split <;> rfl
@[simp] theorem Seat.putX_latpois : (t.putX n m v).latpois = t.latpois := by unfold Seat.putX; split <;> rfl
@[simp] theorem Seat.putX_accpois : (t.putX n m v).accpois = t.accpois := by unfold Seat.putX; split <;> rfl
@[simp] theorem Seat.putX_shpois : (t.putX n m v).shpois = t.shpois := by unfold Seat.putX; split <;> rfl
@[simp] theorem Seat.putX_tail : (t.putX n m v).tail = t.tail := by unfold Seat.putX; split <;> rfl
@[simp] theorem Seat.putX_tvec : (t.putX n m v).tvec = t.tvec := by unfold Seat.putX; split <;> rfl
@[simp] theorem Seat.putX_tpc : (t.putX n m v).tpc = t.tpc := by unfold Seat.putX; split <;> rfl
@[simp] theorem Seat.putX_tcause : (t.putX n m v).tcause = t.tcause := by unfold Seat.putX; split <;> rfl
@[simp] theorem Seat.putX_tinfol : (t.putX n m v).tinfol = t.tinfol := by unfold Seat.putX; split <;> rfl
@[simp] theorem Seat.putX_tinfod : (t.putX n m v).tinfod = t.tinfod := by unfold Seat.putX; split <;> rfl
@[simp] theorem Seat.putX_taddr : (t.putX n m v).taddr = t.taddr := by unfold Seat.putX; split <;> rfl
@[simp] theorem Seat.putX_tmode : (t.putX n m v).tmode = t.tmode := by unfold Seat.putX; split <;> rfl
@[simp] theorem Seat.putX_hl : (t.putX n m v).hl = t.hl := by unfold Seat.putX; split <;> rfl
@[simp] theorem Seat.putX_hs : (t.putX n m v).hs = t.hs := by unfold Seat.putX; split <;> rfl
@[simp] theorem Seat.putX_gwct : (t.putX n m v).gwct = t.gwct := by unfold Seat.putX; split <;> rfl
@[simp] theorem Seat.putX_stamp : (t.putX n m v).stamp = t.stamp := by unfold Seat.putX; split <;> rfl
@[simp] theorem Seat.putX_skip : (t.putX n m v).skip = t.skip := by unfold Seat.putX; split <;> rfl
@[simp] theorem Seat.putX_startClk : (t.putX n m v).startClk = t.startClk := by unfold Seat.putX; split <;> rfl
@[simp] theorem Seat.putX_qput : (t.putX n m v).qput = t.qput := by unfold Seat.putX; split <;> rfl
@[simp] theorem Seat.putX_held : (t.putX n m v).held = t.held := by unfold Seat.putX; split <;> rfl
@[simp] theorem Seat.putX_spawned : (t.putX n m v).spawned = t.spawned := by unfold Seat.putX; split <;> rfl
@[simp] theorem Seat.putX_waits : (t.putX n m v).waits = t.waits := by unfold Seat.putX; split <;> rfl
end
/-! `putS` changes s, sdead, spois alone. -/
section
variable (t : Seat) (n : Nat) (v : Word)
@[simp] theorem Seat.putS_status : (t.putS n v).status = t.status := by unfold Seat.putS; split <;> rfl
@[simp] theorem Seat.putS_bind : (t.putS n v).bind = t.bind := by unfold Seat.putS; split <;> rfl
@[simp] theorem Seat.putS_pc : (t.putS n v).pc = t.pc := by unfold Seat.putS; split <;> rfl
@[simp] theorem Seat.putS_slot : (t.putS n v).slot = t.slot := by unfold Seat.putS; split <;> rfl
@[simp] theorem Seat.putS_bundle : (t.putS n v).bundle = t.bundle := by unfold Seat.putS; split <;> rfl
@[simp] theorem Seat.putS_pmod : (t.putS n v).pmod = t.pmod := by unfold Seat.putS; split <;> rfl
@[simp] theorem Seat.putS_pximm : (t.putS n v).pximm = t.pximm := by unfold Seat.putS; split <;> rfl
@[simp] theorem Seat.putS_pslot : (t.putS n v).pslot = t.pslot := by unfold Seat.putS; split <;> rfl
@[simp] theorem Seat.putS_brkbSkip : (t.putS n v).brkbSkip = t.brkbSkip := by unfold Seat.putS; split <;> rfl
@[simp] theorem Seat.putS_brkbPassed : (t.putS n v).brkbPassed = t.brkbPassed := by unfold Seat.putS; split <;> rfl
@[simp] theorem Seat.putS_x : (t.putS n v).x = t.x := by unfold Seat.putS; split <;> rfl
@[simp] theorem Seat.putS_acc : (t.putS n v).acc = t.acc := by unfold Seat.putS; split <;> rfl
@[simp] theorem Seat.putS_ablk : (t.putS n v).ablk = t.ablk := by unfold Seat.putS; split <;> rfl
@[simp] theorem Seat.putS_nblk : (t.putS n v).nblk = t.nblk := by unfold Seat.putS; split <;> rfl
@[simp] theorem Seat.putS_m : (t.putS n v).m = t.m := by unfold Seat.putS; split <;> rfl
@[simp] theorem Seat.putS_cb : (t.putS n v).cb = t.cb := by unfold Seat.putS; split <;> rfl
@[simp] theorem Seat.putS_lat : (t.putS n v).lat = t.lat := by unfold Seat.putS; split <;> rfl
@[simp] theorem Seat.putS_shadow : (t.putS n v).shadow = t.shadow := by unfold Seat.putS; split <;> rfl
@[simp] theorem Seat.putS_stack : (t.putS n v).stack = t.stack := by unfold Seat.putS; split <;> rfl
@[simp] theorem Seat.putS_exited : (t.putS n v).exited = t.exited := by unfold Seat.putS; split <;> rfl
@[simp] theorem Seat.putS_mode : (t.putS n v).mode = t.mode := by unfold Seat.putS; split <;> rfl
@[simp] theorem Seat.putS_fstat : (t.putS n v).fstat = t.fstat := by unfold Seat.putS; split <;> rfl
@[simp] theorem Seat.putS_mflags : (t.putS n v).mflags = t.mflags := by unfold Seat.putS; split <;> rfl
@[simp] theorem Seat.putS_batch : (t.putS n v).batch = t.batch := by unfold Seat.putS; split <;> rfl
@[simp] theorem Seat.putS_xdead : (t.putS n v).xdead = t.xdead := by unfold Seat.putS; split <;> rfl
@[simp] theorem Seat.putS_xpois : (t.putS n v).xpois = t.xpois := by unfold Seat.putS; split <;> rfl
@[simp] theorem Seat.putS_mpois : (t.putS n v).mpois = t.mpois := by unfold Seat.putS; split <;> rfl
@[simp] theorem Seat.putS_cbpois : (t.putS n v).cbpois = t.cbpois := by unfold Seat.putS; split <;> rfl
@[simp] theorem Seat.putS_latpois : (t.putS n v).latpois = t.latpois := by unfold Seat.putS; split <;> rfl
@[simp] theorem Seat.putS_accpois : (t.putS n v).accpois = t.accpois := by unfold Seat.putS; split <;> rfl
@[simp] theorem Seat.putS_shpois : (t.putS n v).shpois = t.shpois := by unfold Seat.putS; split <;> rfl
@[simp] theorem Seat.putS_tail : (t.putS n v).tail = t.tail := by unfold Seat.putS; split <;> rfl
@[simp] theorem Seat.putS_tvec : (t.putS n v).tvec = t.tvec := by unfold Seat.putS; split <;> rfl
@[simp] theorem Seat.putS_tpc : (t.putS n v).tpc = t.tpc := by unfold Seat.putS; split <;> rfl
@[simp] theorem Seat.putS_tcause : (t.putS n v).tcause = t.tcause := by unfold Seat.putS; split <;> rfl
@[simp] theorem Seat.putS_tinfol : (t.putS n v).tinfol = t.tinfol := by unfold Seat.putS; split <;> rfl
@[simp] theorem Seat.putS_tinfod : (t.putS n v).tinfod = t.tinfod := by unfold Seat.putS; split <;> rfl
@[simp] theorem Seat.putS_taddr : (t.putS n v).taddr = t.taddr := by unfold Seat.putS; split <;> rfl
@[simp] theorem Seat.putS_tmode : (t.putS n v).tmode = t.tmode := by unfold Seat.putS; split <;> rfl
@[simp] theorem Seat.putS_hl : (t.putS n v).hl = t.hl := by unfold Seat.putS; split <;> rfl
@[simp] theorem Seat.putS_hs : (t.putS n v).hs = t.hs := by unfold Seat.putS; split <;> rfl
@[simp] theorem Seat.putS_gwct : (t.putS n v).gwct = t.gwct := by unfold Seat.putS; split <;> rfl
@[simp] theorem Seat.putS_stamp : (t.putS n v).stamp = t.stamp := by unfold Seat.putS; split <;> rfl
@[simp] theorem Seat.putS_skip : (t.putS n v).skip = t.skip := by unfold Seat.putS; split <;> rfl
@[simp] theorem Seat.putS_startClk : (t.putS n v).startClk = t.startClk := by unfold Seat.putS; split <;> rfl
@[simp] theorem Seat.putS_qput : (t.putS n v).qput = t.qput := by unfold Seat.putS; split <;> rfl
@[simp] theorem Seat.putS_held : (t.putS n v).held = t.held := by unfold Seat.putS; split <;> rfl
@[simp] theorem Seat.putS_spawned : (t.putS n v).spawned = t.spawned := by unfold Seat.putS; split <;> rfl
@[simp] theorem Seat.putS_waits : (t.putS n v).waits = t.waits := by unfold Seat.putS; split <;> rfl
end
/-! `putM` changes m, mpois alone. -/
section
variable (t : Seat) (n : Nat) (v : Word)
@[simp] theorem Seat.putM_status : (t.putM n v).status = t.status := by unfold Seat.putM; split <;> rfl
@[simp] theorem Seat.putM_bind : (t.putM n v).bind = t.bind := by unfold Seat.putM; split <;> rfl
@[simp] theorem Seat.putM_pc : (t.putM n v).pc = t.pc := by unfold Seat.putM; split <;> rfl
@[simp] theorem Seat.putM_slot : (t.putM n v).slot = t.slot := by unfold Seat.putM; split <;> rfl
@[simp] theorem Seat.putM_bundle : (t.putM n v).bundle = t.bundle := by unfold Seat.putM; split <;> rfl
@[simp] theorem Seat.putM_pmod : (t.putM n v).pmod = t.pmod := by unfold Seat.putM; split <;> rfl
@[simp] theorem Seat.putM_pximm : (t.putM n v).pximm = t.pximm := by unfold Seat.putM; split <;> rfl
@[simp] theorem Seat.putM_pslot : (t.putM n v).pslot = t.pslot := by unfold Seat.putM; split <;> rfl
@[simp] theorem Seat.putM_brkbSkip : (t.putM n v).brkbSkip = t.brkbSkip := by unfold Seat.putM; split <;> rfl
@[simp] theorem Seat.putM_brkbPassed : (t.putM n v).brkbPassed = t.brkbPassed := by unfold Seat.putM; split <;> rfl
@[simp] theorem Seat.putM_x : (t.putM n v).x = t.x := by unfold Seat.putM; split <;> rfl
@[simp] theorem Seat.putM_s : (t.putM n v).s = t.s := by unfold Seat.putM; split <;> rfl
@[simp] theorem Seat.putM_acc : (t.putM n v).acc = t.acc := by unfold Seat.putM; split <;> rfl
@[simp] theorem Seat.putM_ablk : (t.putM n v).ablk = t.ablk := by unfold Seat.putM; split <;> rfl
@[simp] theorem Seat.putM_nblk : (t.putM n v).nblk = t.nblk := by unfold Seat.putM; split <;> rfl
@[simp] theorem Seat.putM_cb : (t.putM n v).cb = t.cb := by unfold Seat.putM; split <;> rfl
@[simp] theorem Seat.putM_lat : (t.putM n v).lat = t.lat := by unfold Seat.putM; split <;> rfl
@[simp] theorem Seat.putM_shadow : (t.putM n v).shadow = t.shadow := by unfold Seat.putM; split <;> rfl
@[simp] theorem Seat.putM_stack : (t.putM n v).stack = t.stack := by unfold Seat.putM; split <;> rfl
@[simp] theorem Seat.putM_exited : (t.putM n v).exited = t.exited := by unfold Seat.putM; split <;> rfl
@[simp] theorem Seat.putM_mode : (t.putM n v).mode = t.mode := by unfold Seat.putM; split <;> rfl
@[simp] theorem Seat.putM_fstat : (t.putM n v).fstat = t.fstat := by unfold Seat.putM; split <;> rfl
@[simp] theorem Seat.putM_mflags : (t.putM n v).mflags = t.mflags := by unfold Seat.putM; split <;> rfl
@[simp] theorem Seat.putM_batch : (t.putM n v).batch = t.batch := by unfold Seat.putM; split <;> rfl
@[simp] theorem Seat.putM_xdead : (t.putM n v).xdead = t.xdead := by unfold Seat.putM; split <;> rfl
@[simp] theorem Seat.putM_sdead : (t.putM n v).sdead = t.sdead := by unfold Seat.putM; split <;> rfl
@[simp] theorem Seat.putM_xpois : (t.putM n v).xpois = t.xpois := by unfold Seat.putM; split <;> rfl
@[simp] theorem Seat.putM_spois : (t.putM n v).spois = t.spois := by unfold Seat.putM; split <;> rfl
@[simp] theorem Seat.putM_cbpois : (t.putM n v).cbpois = t.cbpois := by unfold Seat.putM; split <;> rfl
@[simp] theorem Seat.putM_latpois : (t.putM n v).latpois = t.latpois := by unfold Seat.putM; split <;> rfl
@[simp] theorem Seat.putM_accpois : (t.putM n v).accpois = t.accpois := by unfold Seat.putM; split <;> rfl
@[simp] theorem Seat.putM_shpois : (t.putM n v).shpois = t.shpois := by unfold Seat.putM; split <;> rfl
@[simp] theorem Seat.putM_tail : (t.putM n v).tail = t.tail := by unfold Seat.putM; split <;> rfl
@[simp] theorem Seat.putM_tvec : (t.putM n v).tvec = t.tvec := by unfold Seat.putM; split <;> rfl
@[simp] theorem Seat.putM_tpc : (t.putM n v).tpc = t.tpc := by unfold Seat.putM; split <;> rfl
@[simp] theorem Seat.putM_tcause : (t.putM n v).tcause = t.tcause := by unfold Seat.putM; split <;> rfl
@[simp] theorem Seat.putM_tinfol : (t.putM n v).tinfol = t.tinfol := by unfold Seat.putM; split <;> rfl
@[simp] theorem Seat.putM_tinfod : (t.putM n v).tinfod = t.tinfod := by unfold Seat.putM; split <;> rfl
@[simp] theorem Seat.putM_taddr : (t.putM n v).taddr = t.taddr := by unfold Seat.putM; split <;> rfl
@[simp] theorem Seat.putM_tmode : (t.putM n v).tmode = t.tmode := by unfold Seat.putM; split <;> rfl
@[simp] theorem Seat.putM_hl : (t.putM n v).hl = t.hl := by unfold Seat.putM; split <;> rfl
@[simp] theorem Seat.putM_hs : (t.putM n v).hs = t.hs := by unfold Seat.putM; split <;> rfl
@[simp] theorem Seat.putM_gwct : (t.putM n v).gwct = t.gwct := by unfold Seat.putM; split <;> rfl
@[simp] theorem Seat.putM_stamp : (t.putM n v).stamp = t.stamp := by unfold Seat.putM; split <;> rfl
@[simp] theorem Seat.putM_skip : (t.putM n v).skip = t.skip := by unfold Seat.putM; split <;> rfl
@[simp] theorem Seat.putM_startClk : (t.putM n v).startClk = t.startClk := by unfold Seat.putM; split <;> rfl
@[simp] theorem Seat.putM_qput : (t.putM n v).qput = t.qput := by unfold Seat.putM; split <;> rfl
@[simp] theorem Seat.putM_held : (t.putM n v).held = t.held := by unfold Seat.putM; split <;> rfl
@[simp] theorem Seat.putM_spawned : (t.putM n v).spawned = t.spawned := by unfold Seat.putM; split <;> rfl
@[simp] theorem Seat.putM_waits : (t.putM n v).waits = t.waits := by unfold Seat.putM; split <;> rfl
end
/-! `shift` changes lat, latpois alone. -/
section
variable (t : Seat) (e : Latch) (p : Word)
@[simp] theorem Seat.shift_status : (t.shift e p).status = t.status := rfl
@[simp] theorem Seat.shift_bind : (t.shift e p).bind = t.bind := rfl
@[simp] theorem Seat.shift_pc : (t.shift e p).pc = t.pc := rfl
@[simp] theorem Seat.shift_slot : (t.shift e p).slot = t.slot := rfl
@[simp] theorem Seat.shift_bundle : (t.shift e p).bundle = t.bundle := rfl
@[simp] theorem Seat.shift_pmod : (t.shift e p).pmod = t.pmod := rfl
@[simp] theorem Seat.shift_pximm : (t.shift e p).pximm = t.pximm := rfl
@[simp] theorem Seat.shift_pslot : (t.shift e p).pslot = t.pslot := rfl
@[simp] theorem Seat.shift_brkbSkip : (t.shift e p).brkbSkip = t.brkbSkip := rfl
@[simp] theorem Seat.shift_brkbPassed : (t.shift e p).brkbPassed = t.brkbPassed := rfl
@[simp] theorem Seat.shift_x : (t.shift e p).x = t.x := rfl
@[simp] theorem Seat.shift_s : (t.shift e p).s = t.s := rfl
@[simp] theorem Seat.shift_acc : (t.shift e p).acc = t.acc := rfl
@[simp] theorem Seat.shift_ablk : (t.shift e p).ablk = t.ablk := rfl
@[simp] theorem Seat.shift_nblk : (t.shift e p).nblk = t.nblk := rfl
@[simp] theorem Seat.shift_m : (t.shift e p).m = t.m := rfl
@[simp] theorem Seat.shift_cb : (t.shift e p).cb = t.cb := rfl
@[simp] theorem Seat.shift_shadow : (t.shift e p).shadow = t.shadow := rfl
@[simp] theorem Seat.shift_stack : (t.shift e p).stack = t.stack := rfl
@[simp] theorem Seat.shift_exited : (t.shift e p).exited = t.exited := rfl
@[simp] theorem Seat.shift_mode : (t.shift e p).mode = t.mode := rfl
@[simp] theorem Seat.shift_fstat : (t.shift e p).fstat = t.fstat := rfl
@[simp] theorem Seat.shift_mflags : (t.shift e p).mflags = t.mflags := rfl
@[simp] theorem Seat.shift_batch : (t.shift e p).batch = t.batch := rfl
@[simp] theorem Seat.shift_xdead : (t.shift e p).xdead = t.xdead := rfl
@[simp] theorem Seat.shift_sdead : (t.shift e p).sdead = t.sdead := rfl
@[simp] theorem Seat.shift_xpois : (t.shift e p).xpois = t.xpois := rfl
@[simp] theorem Seat.shift_spois : (t.shift e p).spois = t.spois := rfl
@[simp] theorem Seat.shift_mpois : (t.shift e p).mpois = t.mpois := rfl
@[simp] theorem Seat.shift_cbpois : (t.shift e p).cbpois = t.cbpois := rfl
@[simp] theorem Seat.shift_accpois : (t.shift e p).accpois = t.accpois := rfl
@[simp] theorem Seat.shift_shpois : (t.shift e p).shpois = t.shpois := rfl
@[simp] theorem Seat.shift_tail : (t.shift e p).tail = t.tail := rfl
@[simp] theorem Seat.shift_tvec : (t.shift e p).tvec = t.tvec := rfl
@[simp] theorem Seat.shift_tpc : (t.shift e p).tpc = t.tpc := rfl
@[simp] theorem Seat.shift_tcause : (t.shift e p).tcause = t.tcause := rfl
@[simp] theorem Seat.shift_tinfol : (t.shift e p).tinfol = t.tinfol := rfl
@[simp] theorem Seat.shift_tinfod : (t.shift e p).tinfod = t.tinfod := rfl
@[simp] theorem Seat.shift_taddr : (t.shift e p).taddr = t.taddr := rfl
@[simp] theorem Seat.shift_tmode : (t.shift e p).tmode = t.tmode := rfl
@[simp] theorem Seat.shift_hl : (t.shift e p).hl = t.hl := rfl
@[simp] theorem Seat.shift_hs : (t.shift e p).hs = t.hs := rfl
@[simp] theorem Seat.shift_gwct : (t.shift e p).gwct = t.gwct := rfl
@[simp] theorem Seat.shift_stamp : (t.shift e p).stamp = t.stamp := rfl
@[simp] theorem Seat.shift_skip : (t.shift e p).skip = t.skip := rfl
@[simp] theorem Seat.shift_startClk : (t.shift e p).startClk = t.startClk := rfl
@[simp] theorem Seat.shift_qput : (t.shift e p).qput = t.qput := rfl
@[simp] theorem Seat.shift_held : (t.shift e p).held = t.held := rfl
@[simp] theorem Seat.shift_spawned : (t.shift e p).spawned = t.spawned := rfl
@[simp] theorem Seat.shift_waits : (t.shift e p).waits = t.waits := rfl
end
/-! `dropLatches` changes lat, latpois alone. -/
section
variable (t : Seat)
@[simp] theorem Seat.dropLatches_status : (t.dropLatches).status = t.status := rfl
@[simp] theorem Seat.dropLatches_bind : (t.dropLatches).bind = t.bind := rfl
@[simp] theorem Seat.dropLatches_pc : (t.dropLatches).pc = t.pc := rfl
@[simp] theorem Seat.dropLatches_slot : (t.dropLatches).slot = t.slot := rfl
@[simp] theorem Seat.dropLatches_bundle : (t.dropLatches).bundle = t.bundle := rfl
@[simp] theorem Seat.dropLatches_pmod : (t.dropLatches).pmod = t.pmod := rfl
@[simp] theorem Seat.dropLatches_pximm : (t.dropLatches).pximm = t.pximm := rfl
@[simp] theorem Seat.dropLatches_pslot : (t.dropLatches).pslot = t.pslot := rfl
@[simp] theorem Seat.dropLatches_brkbSkip : (t.dropLatches).brkbSkip = t.brkbSkip := rfl
@[simp] theorem Seat.dropLatches_brkbPassed : (t.dropLatches).brkbPassed = t.brkbPassed := rfl
@[simp] theorem Seat.dropLatches_x : (t.dropLatches).x = t.x := rfl
@[simp] theorem Seat.dropLatches_s : (t.dropLatches).s = t.s := rfl
@[simp] theorem Seat.dropLatches_acc : (t.dropLatches).acc = t.acc := rfl
@[simp] theorem Seat.dropLatches_ablk : (t.dropLatches).ablk = t.ablk := rfl
@[simp] theorem Seat.dropLatches_nblk : (t.dropLatches).nblk = t.nblk := rfl
@[simp] theorem Seat.dropLatches_m : (t.dropLatches).m = t.m := rfl
@[simp] theorem Seat.dropLatches_cb : (t.dropLatches).cb = t.cb := rfl
@[simp] theorem Seat.dropLatches_shadow : (t.dropLatches).shadow = t.shadow := rfl
@[simp] theorem Seat.dropLatches_stack : (t.dropLatches).stack = t.stack := rfl
@[simp] theorem Seat.dropLatches_exited : (t.dropLatches).exited = t.exited := rfl
@[simp] theorem Seat.dropLatches_mode : (t.dropLatches).mode = t.mode := rfl
@[simp] theorem Seat.dropLatches_fstat : (t.dropLatches).fstat = t.fstat := rfl
@[simp] theorem Seat.dropLatches_mflags : (t.dropLatches).mflags = t.mflags := rfl
@[simp] theorem Seat.dropLatches_batch : (t.dropLatches).batch = t.batch := rfl
@[simp] theorem Seat.dropLatches_xdead : (t.dropLatches).xdead = t.xdead := rfl
@[simp] theorem Seat.dropLatches_sdead : (t.dropLatches).sdead = t.sdead := rfl
@[simp] theorem Seat.dropLatches_xpois : (t.dropLatches).xpois = t.xpois := rfl
@[simp] theorem Seat.dropLatches_spois : (t.dropLatches).spois = t.spois := rfl
@[simp] theorem Seat.dropLatches_mpois : (t.dropLatches).mpois = t.mpois := rfl
@[simp] theorem Seat.dropLatches_cbpois : (t.dropLatches).cbpois = t.cbpois := rfl
@[simp] theorem Seat.dropLatches_accpois : (t.dropLatches).accpois = t.accpois := rfl
@[simp] theorem Seat.dropLatches_shpois : (t.dropLatches).shpois = t.shpois := rfl
@[simp] theorem Seat.dropLatches_tail : (t.dropLatches).tail = t.tail := rfl
@[simp] theorem Seat.dropLatches_tvec : (t.dropLatches).tvec = t.tvec := rfl
@[simp] theorem Seat.dropLatches_tpc : (t.dropLatches).tpc = t.tpc := rfl
@[simp] theorem Seat.dropLatches_tcause : (t.dropLatches).tcause = t.tcause := rfl
@[simp] theorem Seat.dropLatches_tinfol : (t.dropLatches).tinfol = t.tinfol := rfl
@[simp] theorem Seat.dropLatches_tinfod : (t.dropLatches).tinfod = t.tinfod := rfl
@[simp] theorem Seat.dropLatches_taddr : (t.dropLatches).taddr = t.taddr := rfl
@[simp] theorem Seat.dropLatches_tmode : (t.dropLatches).tmode = t.tmode := rfl
@[simp] theorem Seat.dropLatches_hl : (t.dropLatches).hl = t.hl := rfl
@[simp] theorem Seat.dropLatches_hs : (t.dropLatches).hs = t.hs := rfl
@[simp] theorem Seat.dropLatches_gwct : (t.dropLatches).gwct = t.gwct := rfl
@[simp] theorem Seat.dropLatches_stamp : (t.dropLatches).stamp = t.stamp := rfl
@[simp] theorem Seat.dropLatches_skip : (t.dropLatches).skip = t.skip := rfl
@[simp] theorem Seat.dropLatches_startClk : (t.dropLatches).startClk = t.startClk := rfl
@[simp] theorem Seat.dropLatches_qput : (t.dropLatches).qput = t.qput := rfl
@[simp] theorem Seat.dropLatches_held : (t.dropLatches).held = t.held := rfl
@[simp] theorem Seat.dropLatches_spawned : (t.dropLatches).spawned = t.spawned := rfl
@[simp] theorem Seat.dropLatches_waits : (t.dropLatches).waits = t.waits := rfl
end
/-! `orFlags` changes fstat alone. -/
section
variable (t : Seat) (f : BitVec 6)
@[simp] theorem Seat.orFlags_status : (t.orFlags f).status = t.status := rfl
@[simp] theorem Seat.orFlags_bind : (t.orFlags f).bind = t.bind := rfl
@[simp] theorem Seat.orFlags_pc : (t.orFlags f).pc = t.pc := rfl
@[simp] theorem Seat.orFlags_slot : (t.orFlags f).slot = t.slot := rfl
@[simp] theorem Seat.orFlags_bundle : (t.orFlags f).bundle = t.bundle := rfl
@[simp] theorem Seat.orFlags_pmod : (t.orFlags f).pmod = t.pmod := rfl
@[simp] theorem Seat.orFlags_pximm : (t.orFlags f).pximm = t.pximm := rfl
@[simp] theorem Seat.orFlags_pslot : (t.orFlags f).pslot = t.pslot := rfl
@[simp] theorem Seat.orFlags_brkbSkip : (t.orFlags f).brkbSkip = t.brkbSkip := rfl
@[simp] theorem Seat.orFlags_brkbPassed : (t.orFlags f).brkbPassed = t.brkbPassed := rfl
@[simp] theorem Seat.orFlags_x : (t.orFlags f).x = t.x := rfl
@[simp] theorem Seat.orFlags_s : (t.orFlags f).s = t.s := rfl
@[simp] theorem Seat.orFlags_acc : (t.orFlags f).acc = t.acc := rfl
@[simp] theorem Seat.orFlags_ablk : (t.orFlags f).ablk = t.ablk := rfl
@[simp] theorem Seat.orFlags_nblk : (t.orFlags f).nblk = t.nblk := rfl
@[simp] theorem Seat.orFlags_m : (t.orFlags f).m = t.m := rfl
@[simp] theorem Seat.orFlags_cb : (t.orFlags f).cb = t.cb := rfl
@[simp] theorem Seat.orFlags_lat : (t.orFlags f).lat = t.lat := rfl
@[simp] theorem Seat.orFlags_shadow : (t.orFlags f).shadow = t.shadow := rfl
@[simp] theorem Seat.orFlags_stack : (t.orFlags f).stack = t.stack := rfl
@[simp] theorem Seat.orFlags_exited : (t.orFlags f).exited = t.exited := rfl
@[simp] theorem Seat.orFlags_mode : (t.orFlags f).mode = t.mode := rfl
@[simp] theorem Seat.orFlags_mflags : (t.orFlags f).mflags = t.mflags := rfl
@[simp] theorem Seat.orFlags_batch : (t.orFlags f).batch = t.batch := rfl
@[simp] theorem Seat.orFlags_xdead : (t.orFlags f).xdead = t.xdead := rfl
@[simp] theorem Seat.orFlags_sdead : (t.orFlags f).sdead = t.sdead := rfl
@[simp] theorem Seat.orFlags_xpois : (t.orFlags f).xpois = t.xpois := rfl
@[simp] theorem Seat.orFlags_spois : (t.orFlags f).spois = t.spois := rfl
@[simp] theorem Seat.orFlags_mpois : (t.orFlags f).mpois = t.mpois := rfl
@[simp] theorem Seat.orFlags_cbpois : (t.orFlags f).cbpois = t.cbpois := rfl
@[simp] theorem Seat.orFlags_latpois : (t.orFlags f).latpois = t.latpois := rfl
@[simp] theorem Seat.orFlags_accpois : (t.orFlags f).accpois = t.accpois := rfl
@[simp] theorem Seat.orFlags_shpois : (t.orFlags f).shpois = t.shpois := rfl
@[simp] theorem Seat.orFlags_tail : (t.orFlags f).tail = t.tail := rfl
@[simp] theorem Seat.orFlags_tvec : (t.orFlags f).tvec = t.tvec := rfl
@[simp] theorem Seat.orFlags_tpc : (t.orFlags f).tpc = t.tpc := rfl
@[simp] theorem Seat.orFlags_tcause : (t.orFlags f).tcause = t.tcause := rfl
@[simp] theorem Seat.orFlags_tinfol : (t.orFlags f).tinfol = t.tinfol := rfl
@[simp] theorem Seat.orFlags_tinfod : (t.orFlags f).tinfod = t.tinfod := rfl
@[simp] theorem Seat.orFlags_taddr : (t.orFlags f).taddr = t.taddr := rfl
@[simp] theorem Seat.orFlags_tmode : (t.orFlags f).tmode = t.tmode := rfl
@[simp] theorem Seat.orFlags_hl : (t.orFlags f).hl = t.hl := rfl
@[simp] theorem Seat.orFlags_hs : (t.orFlags f).hs = t.hs := rfl
@[simp] theorem Seat.orFlags_gwct : (t.orFlags f).gwct = t.gwct := rfl
@[simp] theorem Seat.orFlags_stamp : (t.orFlags f).stamp = t.stamp := rfl
@[simp] theorem Seat.orFlags_skip : (t.orFlags f).skip = t.skip := rfl
@[simp] theorem Seat.orFlags_startClk : (t.orFlags f).startClk = t.startClk := rfl
@[simp] theorem Seat.orFlags_qput : (t.orFlags f).qput = t.qput := rfl
@[simp] theorem Seat.orFlags_held : (t.orFlags f).held = t.held := rfl
@[simp] theorem Seat.orFlags_spawned : (t.orFlags f).spawned = t.spawned := rfl
@[simp] theorem Seat.orFlags_waits : (t.orFlags f).waits = t.waits := rfl
end
/-! `leave` changes bundle, pmod, pximm, pslot, brkbSkip, brkbPassed alone. -/
section
variable (t : Seat)
@[simp] theorem Seat.leave_status : (t.leave).status = t.status := rfl
@[simp] theorem Seat.leave_bind : (t.leave).bind = t.bind := rfl
@[simp] theorem Seat.leave_pc : (t.leave).pc = t.pc := rfl
@[simp] theorem Seat.leave_slot : (t.leave).slot = t.slot := rfl
@[simp] theorem Seat.leave_x : (t.leave).x = t.x := rfl
@[simp] theorem Seat.leave_s : (t.leave).s = t.s := rfl
@[simp] theorem Seat.leave_acc : (t.leave).acc = t.acc := rfl
@[simp] theorem Seat.leave_ablk : (t.leave).ablk = t.ablk := rfl
@[simp] theorem Seat.leave_nblk : (t.leave).nblk = t.nblk := rfl
@[simp] theorem Seat.leave_m : (t.leave).m = t.m := rfl
@[simp] theorem Seat.leave_cb : (t.leave).cb = t.cb := rfl
@[simp] theorem Seat.leave_lat : (t.leave).lat = t.lat := rfl
@[simp] theorem Seat.leave_shadow : (t.leave).shadow = t.shadow := rfl
@[simp] theorem Seat.leave_stack : (t.leave).stack = t.stack := rfl
@[simp] theorem Seat.leave_exited : (t.leave).exited = t.exited := rfl
@[simp] theorem Seat.leave_mode : (t.leave).mode = t.mode := rfl
@[simp] theorem Seat.leave_fstat : (t.leave).fstat = t.fstat := rfl
@[simp] theorem Seat.leave_mflags : (t.leave).mflags = t.mflags := rfl
@[simp] theorem Seat.leave_batch : (t.leave).batch = t.batch := rfl
@[simp] theorem Seat.leave_xdead : (t.leave).xdead = t.xdead := rfl
@[simp] theorem Seat.leave_sdead : (t.leave).sdead = t.sdead := rfl
@[simp] theorem Seat.leave_xpois : (t.leave).xpois = t.xpois := rfl
@[simp] theorem Seat.leave_spois : (t.leave).spois = t.spois := rfl
@[simp] theorem Seat.leave_mpois : (t.leave).mpois = t.mpois := rfl
@[simp] theorem Seat.leave_cbpois : (t.leave).cbpois = t.cbpois := rfl
@[simp] theorem Seat.leave_latpois : (t.leave).latpois = t.latpois := rfl
@[simp] theorem Seat.leave_accpois : (t.leave).accpois = t.accpois := rfl
@[simp] theorem Seat.leave_shpois : (t.leave).shpois = t.shpois := rfl
@[simp] theorem Seat.leave_tail : (t.leave).tail = t.tail := rfl
@[simp] theorem Seat.leave_tvec : (t.leave).tvec = t.tvec := rfl
@[simp] theorem Seat.leave_tpc : (t.leave).tpc = t.tpc := rfl
@[simp] theorem Seat.leave_tcause : (t.leave).tcause = t.tcause := rfl
@[simp] theorem Seat.leave_tinfol : (t.leave).tinfol = t.tinfol := rfl
@[simp] theorem Seat.leave_tinfod : (t.leave).tinfod = t.tinfod := rfl
@[simp] theorem Seat.leave_taddr : (t.leave).taddr = t.taddr := rfl
@[simp] theorem Seat.leave_tmode : (t.leave).tmode = t.tmode := rfl
@[simp] theorem Seat.leave_hl : (t.leave).hl = t.hl := rfl
@[simp] theorem Seat.leave_hs : (t.leave).hs = t.hs := rfl
@[simp] theorem Seat.leave_gwct : (t.leave).gwct = t.gwct := rfl
@[simp] theorem Seat.leave_stamp : (t.leave).stamp = t.stamp := rfl
@[simp] theorem Seat.leave_skip : (t.leave).skip = t.skip := rfl
@[simp] theorem Seat.leave_startClk : (t.leave).startClk = t.startClk := rfl
@[simp] theorem Seat.leave_qput : (t.leave).qput = t.qput := rfl
@[simp] theorem Seat.leave_held : (t.leave).held = t.held := rfl
@[simp] theorem Seat.leave_spawned : (t.leave).spawned = t.spawned := rfl
@[simp] theorem Seat.leave_waits : (t.leave).waits = t.waits := rfl
end
/-! `advance` changes pc, slot, bundle, pmod, pximm, pslot, brkbSkip, brkbPassed alone. -/
section
variable (t : Seat)
@[simp] theorem Seat.advance_status : (t.advance).status = t.status := by unfold Seat.advance; split <;> rfl
@[simp] theorem Seat.advance_bind : (t.advance).bind = t.bind := by unfold Seat.advance; split <;> rfl
@[simp] theorem Seat.advance_x : (t.advance).x = t.x := by unfold Seat.advance; split <;> rfl
@[simp] theorem Seat.advance_s : (t.advance).s = t.s := by unfold Seat.advance; split <;> rfl
@[simp] theorem Seat.advance_acc : (t.advance).acc = t.acc := by unfold Seat.advance; split <;> rfl
@[simp] theorem Seat.advance_ablk : (t.advance).ablk = t.ablk := by unfold Seat.advance; split <;> rfl
@[simp] theorem Seat.advance_nblk : (t.advance).nblk = t.nblk := by unfold Seat.advance; split <;> rfl
@[simp] theorem Seat.advance_m : (t.advance).m = t.m := by unfold Seat.advance; split <;> rfl
@[simp] theorem Seat.advance_cb : (t.advance).cb = t.cb := by unfold Seat.advance; split <;> rfl
@[simp] theorem Seat.advance_lat : (t.advance).lat = t.lat := by unfold Seat.advance; split <;> rfl
@[simp] theorem Seat.advance_shadow : (t.advance).shadow = t.shadow := by unfold Seat.advance; split <;> rfl
@[simp] theorem Seat.advance_stack : (t.advance).stack = t.stack := by unfold Seat.advance; split <;> rfl
@[simp] theorem Seat.advance_exited : (t.advance).exited = t.exited := by unfold Seat.advance; split <;> rfl
@[simp] theorem Seat.advance_mode : (t.advance).mode = t.mode := by unfold Seat.advance; split <;> rfl
@[simp] theorem Seat.advance_fstat : (t.advance).fstat = t.fstat := by unfold Seat.advance; split <;> rfl
@[simp] theorem Seat.advance_mflags : (t.advance).mflags = t.mflags := by unfold Seat.advance; split <;> rfl
@[simp] theorem Seat.advance_batch : (t.advance).batch = t.batch := by unfold Seat.advance; split <;> rfl
@[simp] theorem Seat.advance_xdead : (t.advance).xdead = t.xdead := by unfold Seat.advance; split <;> rfl
@[simp] theorem Seat.advance_sdead : (t.advance).sdead = t.sdead := by unfold Seat.advance; split <;> rfl
@[simp] theorem Seat.advance_xpois : (t.advance).xpois = t.xpois := by unfold Seat.advance; split <;> rfl
@[simp] theorem Seat.advance_spois : (t.advance).spois = t.spois := by unfold Seat.advance; split <;> rfl
@[simp] theorem Seat.advance_mpois : (t.advance).mpois = t.mpois := by unfold Seat.advance; split <;> rfl
@[simp] theorem Seat.advance_cbpois : (t.advance).cbpois = t.cbpois := by unfold Seat.advance; split <;> rfl
@[simp] theorem Seat.advance_latpois : (t.advance).latpois = t.latpois := by unfold Seat.advance; split <;> rfl
@[simp] theorem Seat.advance_accpois : (t.advance).accpois = t.accpois := by unfold Seat.advance; split <;> rfl
@[simp] theorem Seat.advance_shpois : (t.advance).shpois = t.shpois := by unfold Seat.advance; split <;> rfl
@[simp] theorem Seat.advance_tail : (t.advance).tail = t.tail := by unfold Seat.advance; split <;> rfl
@[simp] theorem Seat.advance_tvec : (t.advance).tvec = t.tvec := by unfold Seat.advance; split <;> rfl
@[simp] theorem Seat.advance_tpc : (t.advance).tpc = t.tpc := by unfold Seat.advance; split <;> rfl
@[simp] theorem Seat.advance_tcause : (t.advance).tcause = t.tcause := by unfold Seat.advance; split <;> rfl
@[simp] theorem Seat.advance_tinfol : (t.advance).tinfol = t.tinfol := by unfold Seat.advance; split <;> rfl
@[simp] theorem Seat.advance_tinfod : (t.advance).tinfod = t.tinfod := by unfold Seat.advance; split <;> rfl
@[simp] theorem Seat.advance_taddr : (t.advance).taddr = t.taddr := by unfold Seat.advance; split <;> rfl
@[simp] theorem Seat.advance_tmode : (t.advance).tmode = t.tmode := by unfold Seat.advance; split <;> rfl
@[simp] theorem Seat.advance_hl : (t.advance).hl = t.hl := by unfold Seat.advance; split <;> rfl
@[simp] theorem Seat.advance_hs : (t.advance).hs = t.hs := by unfold Seat.advance; split <;> rfl
@[simp] theorem Seat.advance_gwct : (t.advance).gwct = t.gwct := by unfold Seat.advance; split <;> rfl
@[simp] theorem Seat.advance_stamp : (t.advance).stamp = t.stamp := by unfold Seat.advance; split <;> rfl
@[simp] theorem Seat.advance_skip : (t.advance).skip = t.skip := by unfold Seat.advance; split <;> rfl
@[simp] theorem Seat.advance_startClk : (t.advance).startClk = t.startClk := by unfold Seat.advance; split <;> rfl
@[simp] theorem Seat.advance_qput : (t.advance).qput = t.qput := by unfold Seat.advance; split <;> rfl
@[simp] theorem Seat.advance_held : (t.advance).held = t.held := by unfold Seat.advance; split <;> rfl
@[simp] theorem Seat.advance_spawned : (t.advance).spawned = t.spawned := by unfold Seat.advance; split <;> rfl
@[simp] theorem Seat.advance_waits : (t.advance).waits = t.waits := by unfold Seat.advance; split <;> rfl
end
/-! `jump` changes pc, slot, bundle, pmod, pximm, pslot, brkbSkip, brkbPassed, lat, latpois alone. -/
section
variable (t : Seat) (a : Word)
@[simp] theorem Seat.jump_status : (t.jump a).status = t.status := by unfold Seat.jump Seat.moveLatches; split <;> rfl
@[simp] theorem Seat.jump_bind : (t.jump a).bind = t.bind := by unfold Seat.jump Seat.moveLatches; split <;> rfl
@[simp] theorem Seat.jump_x : (t.jump a).x = t.x := by unfold Seat.jump Seat.moveLatches; split <;> rfl
@[simp] theorem Seat.jump_s : (t.jump a).s = t.s := by unfold Seat.jump Seat.moveLatches; split <;> rfl
@[simp] theorem Seat.jump_acc : (t.jump a).acc = t.acc := by unfold Seat.jump Seat.moveLatches; split <;> rfl
@[simp] theorem Seat.jump_ablk : (t.jump a).ablk = t.ablk := by unfold Seat.jump Seat.moveLatches; split <;> rfl
@[simp] theorem Seat.jump_nblk : (t.jump a).nblk = t.nblk := by unfold Seat.jump Seat.moveLatches; split <;> rfl
@[simp] theorem Seat.jump_m : (t.jump a).m = t.m := by unfold Seat.jump Seat.moveLatches; split <;> rfl
@[simp] theorem Seat.jump_cb : (t.jump a).cb = t.cb := by unfold Seat.jump Seat.moveLatches; split <;> rfl
@[simp] theorem Seat.jump_shadow : (t.jump a).shadow = t.shadow := by unfold Seat.jump Seat.moveLatches; split <;> rfl
@[simp] theorem Seat.jump_stack : (t.jump a).stack = t.stack := by unfold Seat.jump Seat.moveLatches; split <;> rfl
@[simp] theorem Seat.jump_exited : (t.jump a).exited = t.exited := by unfold Seat.jump Seat.moveLatches; split <;> rfl
@[simp] theorem Seat.jump_mode : (t.jump a).mode = t.mode := by unfold Seat.jump Seat.moveLatches; split <;> rfl
@[simp] theorem Seat.jump_fstat : (t.jump a).fstat = t.fstat := by unfold Seat.jump Seat.moveLatches; split <;> rfl
@[simp] theorem Seat.jump_mflags : (t.jump a).mflags = t.mflags := by unfold Seat.jump Seat.moveLatches; split <;> rfl
@[simp] theorem Seat.jump_batch : (t.jump a).batch = t.batch := by unfold Seat.jump Seat.moveLatches; split <;> rfl
@[simp] theorem Seat.jump_xdead : (t.jump a).xdead = t.xdead := by unfold Seat.jump Seat.moveLatches; split <;> rfl
@[simp] theorem Seat.jump_sdead : (t.jump a).sdead = t.sdead := by unfold Seat.jump Seat.moveLatches; split <;> rfl
@[simp] theorem Seat.jump_xpois : (t.jump a).xpois = t.xpois := by unfold Seat.jump Seat.moveLatches; split <;> rfl
@[simp] theorem Seat.jump_spois : (t.jump a).spois = t.spois := by unfold Seat.jump Seat.moveLatches; split <;> rfl
@[simp] theorem Seat.jump_mpois : (t.jump a).mpois = t.mpois := by unfold Seat.jump Seat.moveLatches; split <;> rfl
@[simp] theorem Seat.jump_cbpois : (t.jump a).cbpois = t.cbpois := by unfold Seat.jump Seat.moveLatches; split <;> rfl
@[simp] theorem Seat.jump_accpois : (t.jump a).accpois = t.accpois := by unfold Seat.jump Seat.moveLatches; split <;> rfl
@[simp] theorem Seat.jump_shpois : (t.jump a).shpois = t.shpois := by unfold Seat.jump Seat.moveLatches; split <;> rfl
@[simp] theorem Seat.jump_tail : (t.jump a).tail = t.tail := by unfold Seat.jump Seat.moveLatches; split <;> rfl
@[simp] theorem Seat.jump_tvec : (t.jump a).tvec = t.tvec := by unfold Seat.jump Seat.moveLatches; split <;> rfl
@[simp] theorem Seat.jump_tpc : (t.jump a).tpc = t.tpc := by unfold Seat.jump Seat.moveLatches; split <;> rfl
@[simp] theorem Seat.jump_tcause : (t.jump a).tcause = t.tcause := by unfold Seat.jump Seat.moveLatches; split <;> rfl
@[simp] theorem Seat.jump_tinfol : (t.jump a).tinfol = t.tinfol := by unfold Seat.jump Seat.moveLatches; split <;> rfl
@[simp] theorem Seat.jump_tinfod : (t.jump a).tinfod = t.tinfod := by unfold Seat.jump Seat.moveLatches; split <;> rfl
@[simp] theorem Seat.jump_taddr : (t.jump a).taddr = t.taddr := by unfold Seat.jump Seat.moveLatches; split <;> rfl
@[simp] theorem Seat.jump_tmode : (t.jump a).tmode = t.tmode := by unfold Seat.jump Seat.moveLatches; split <;> rfl
@[simp] theorem Seat.jump_hl : (t.jump a).hl = t.hl := by unfold Seat.jump Seat.moveLatches; split <;> rfl
@[simp] theorem Seat.jump_hs : (t.jump a).hs = t.hs := by unfold Seat.jump Seat.moveLatches; split <;> rfl
@[simp] theorem Seat.jump_gwct : (t.jump a).gwct = t.gwct := by unfold Seat.jump Seat.moveLatches; split <;> rfl
@[simp] theorem Seat.jump_stamp : (t.jump a).stamp = t.stamp := by unfold Seat.jump Seat.moveLatches; split <;> rfl
@[simp] theorem Seat.jump_skip : (t.jump a).skip = t.skip := by unfold Seat.jump Seat.moveLatches; split <;> rfl
@[simp] theorem Seat.jump_startClk : (t.jump a).startClk = t.startClk := by unfold Seat.jump Seat.moveLatches; split <;> rfl
@[simp] theorem Seat.jump_qput : (t.jump a).qput = t.qput := by unfold Seat.jump Seat.moveLatches; split <;> rfl
@[simp] theorem Seat.jump_held : (t.jump a).held = t.held := by unfold Seat.jump Seat.moveLatches; split <;> rfl
@[simp] theorem Seat.jump_spawned : (t.jump a).spawned = t.spawned := by unfold Seat.jump Seat.moveLatches; split <;> rfl
@[simp] theorem Seat.jump_waits : (t.jump a).waits = t.waits := by unfold Seat.jump Seat.moveLatches; split <;> rfl
end

end Sys2Proof.Machine
end

