-- ==== Sys2Proof/Laws/Slot.lean ====
section
/-! SUPPORT. What a slot's shared operations do to its seat and leave alone elsewhere. -/
namespace Sys2Proof.Machine

/-! ### Seats and rows read back -/

theorem Seat.ne_blank {t : Seat} (h : t.resident = true) : t ≠ Seat.blank := by
  rintro rfl
  exact absurd h (by decide)

theorem State.seat_setSeat_ne (s : State) {k j : Nat} (t : Seat) (h : j ≠ k) : (s.setSeat k t).seat j = s.seat j :=
  Sparse.get_set_ne _ _ _ h

theorem State.seat_setSeat_self (s : State) (k : Nat) {t : Seat} (h : t.resident = true) : (s.setSeat k t).seat k = t :=
  Sparse.get_set_self _ _ _ (Seat.ne_blank h)

theorem State.row_setRow_ne (s : State) {k j : Nat} (r : RowUnit) (h : j ≠ k) : (s.setRow k r).row j = s.row j :=
  Sparse.get_set_ne _ _ _ h

theorem State.row_setRow_self (s : State) (k : Nat) {r : RowUnit} (h : r ≠ RowUnit.empty) : (s.setRow k r).row k = r :=
  Sparse.get_set_self _ _ _ h

@[simp] theorem State.seat_useFree (s : State) (n k : Nat) : (s.useFree n).seat k = s.seat k := rfl
@[simp] theorem State.row_useFree (s : State) (n k : Nat) : (s.useFree n).row k = s.row k := rfl
@[simp] theorem State.row_setSeat (s : State) (n k : Nat) (t : Seat) : (s.setSeat n t).row k = s.row k := rfl
@[simp] theorem State.seat_setRow (s : State) (n k : Nat) (r : RowUnit) : (s.setRow n r).seat k = s.seat k := rfl

/-! ### Residence is a matter of the status alone -/

@[simp] theorem Seat.resident_putX (t : Seat) (n m v) : (t.putX n m v).resident = t.resident := by simp [Seat.resident]
@[simp] theorem Seat.resident_putS (t : Seat) (n v) : (t.putS n v).resident = t.resident := by simp [Seat.resident]
@[simp] theorem Seat.resident_putM (t : Seat) (n v) : (t.putM n v).resident = t.resident := by simp [Seat.resident]
@[simp] theorem Seat.resident_shift (t : Seat) (e p) : (t.shift e p).resident = t.resident := rfl
@[simp] theorem Seat.resident_dropLatches (t : Seat) : t.dropLatches.resident = t.resident := rfl
@[simp] theorem Seat.resident_orFlags (t : Seat) (f) : (t.orFlags f).resident = t.resident := rfl
@[simp] theorem Seat.resident_leave (t : Seat) : t.leave.resident = t.resident := rfl
@[simp] theorem Seat.resident_advance (t : Seat) : t.advance.resident = t.resident := by simp [Seat.resident]
@[simp] theorem Seat.resident_jump (t : Seat) (a) : (t.jump a).resident = t.resident := by simp [Seat.resident]

/-- Last uses mark registers dead and change nothing else (02 R61). -/
theorem Seat.lastUse_eq (t : Seat) (uni : Bool) (m : Word) (srcs : List Src) :
    t.lastUse uni m srcs =
      { t with xdead := (t.lastUse uni m srcs).xdead, sdead := (t.lastUse uni m srcs).sdead } := by
  unfold Seat.lastUse
  induction srcs generalizing t with
  | nil => rfl
  | cons a r ih =>
    rw [List.foldl_cons, ih]
    split
    · rfl
    · split <;> rfl

@[simp] theorem Seat.resident_lastUse (t : Seat) (uni m srcs) : (t.lastUse uni m srcs).resident = t.resident := by
  rw [Seat.lastUse_eq]; rfl

/-- Without an item at the row a write touches no window (06 R161). -/
theorem State.touch_noWindow (s : State) (sid : Nat) (x : Bool) (n : Nat) (h : (s.row (sid / 4)).mat = []) :
    s.touch sid x n = s := by
  simp [State.touch, h]

/-! ### How what a slot leaves is put together -/

/-- Only the bytes' homes matter to what they read as. -/
theorem sameBytes_of {r u : State} (h : u = { r with seats := u.seats, rows := u.rows, freeCtr := u.freeCtr }) :
    SameBytes r u := by
  rw [h]
  exact ⟨fun _ => rfl, fun _ => rfl⟩

theorem Slot.refl (s : State) : Slot s s s.now where
  rest := rfl
  bytes := ⟨fun _ => rfl, fun _ => rfl⟩
  others := fun _ _ => rfl
  rows := fun _ => rfl
  window := id
  acc := fun _ => rfl
  seat := rfl

theorem Slot.cur {r u : State} {w : Seat} (h : Slot r u w) : u.cur = r.cur := by rw [h.rest]

theorem Slot.resident {r u : State} {w : Seat} (h : Slot r u w) : u.now.resident = w.resident := by rw [h.seat]; rfl

/-- The seat replaced by one that is as `w'` says. -/
theorem Slot.setSeat {r u : State} {w w' t : Seat} (h : Slot r u w) (hw : w'.resident = true)
    (ht : t = { w' with acc := t.acc, lat := t.lat, latpois := t.latpois, xdead := t.xdead, sdead := t.sdead })
    (ha : r.noWindow → t.acc = w'.acc) : Slot r (u.setSeat r.cur t) w' := by
  have hres : t.resident = true := by rw [ht]; exact hw
  have hcur := h.cur
  have hr : u.setSeat r.cur t = { r with seats := (u.setSeat r.cur t).seats, rows := (u.setSeat r.cur t).rows
                                         freeCtr := (u.setSeat r.cur t).freeCtr } := by
    unfold State.setSeat
    conv_lhs => rw [h.rest]
  have hnow : (u.setSeat r.cur t).now = t := by
    show (u.setSeat r.cur t).seat u.cur = t
    rw [hcur]
    exact State.seat_setSeat_self _ _ hres
  exact
    { rest := hr
      bytes := sameBytes_of hr
      others := fun k hk => (State.seat_setSeat_ne _ _ hk).trans (h.others k hk)
      rows := fun hn => h.rows hn
      window := fun hn => h.window hn
      acc := fun hn => by rw [hnow]; exact ha hn
      seat := by rw [hnow]; exact ht }

theorem Slot.useFree {r u : State} {w : Seat} (h : Slot r u w) (n : Nat) : Slot r (u.useFree n) w := by
  have hr : u.useFree n = { r with seats := (u.useFree n).seats, rows := (u.useFree n).rows
                                   freeCtr := (u.useFree n).freeCtr } := by
    unfold State.useFree
    conv_lhs => rw [h.rest]
  exact
    { rest := hr
      bytes := sameBytes_of hr
      others := h.others
      rows := h.rows
      window := h.window
      acc := h.acc
      seat := h.seat }

/-- Rows replaced where no window is open as they were. -/
theorem Slot.setRow {r u : State} {w : Seat} (h : Slot r u w) (k : Nat) (x : RowUnit) (hn : ¬r.noWindow) :
    Slot r (u.setRow k x) w := by
  have hr : u.setRow k x = { r with seats := (u.setRow k x).seats, rows := (u.setRow k x).rows
                                    freeCtr := (u.setRow k x).freeCtr } := by
    unfold State.setRow
    conv_lhs => rw [h.rest]
  exact
    { rest := hr
      bytes := sameBytes_of hr
      others := h.others
      rows := fun h => absurd h hn
      window := fun h => absurd h hn
      acc := h.acc
      seat := h.seat }

theorem Slot.touch {r u : State} {w : Seat} (h : Slot r u w) (hw : w.resident = true) (x : Bool) (n : Nat) :
    Slot r (u.touch r.cur x n) w := by
  by_cases hn : r.noWindow
  · have hu := h.window hn
    unfold State.noWindow at hu
    rw [h.cur] at hu
    rw [State.touch_noWindow u r.cur x n hu]
    exact h
  · have hcur := h.cur
    have hseat := h.seat
    unfold State.now at hseat
    rw [hcur] at hseat
    unfold State.touch
    dsimp only
    split
    · exact h
    · refine Slot.useFree ?_ _
      have h1 : ∀ a, Slot r (u.setSeat r.cur { u.seat r.cur with acc := a }) w := fun a =>
        h.setSeat hw (by rw [hseat]) fun hn' => absurd hn' hn
      split
      · exact ((h1 _).setRow _ _ hn).setRow _ _ hn
      · exact (h1 _).setRow _ _ hn

theorem Slot.writeX {r u : State} {w : Seat} (h : Slot r u w) (hw : w.resident = true) (n : Nat) (m : Word)
    (v : Nat → Word) : Slot r (u.writeX r.cur n m v) (w.putX n m v) := by
  unfold State.writeX
  refine Slot.touch (h.setSeat (by simpa using hw) ?_ ?_) (by simpa using hw) _ _
  · have hs := h.seat
    unfold State.now at hs
    rw [h.cur] at hs
    rw [hs]
    unfold Seat.putX Seat.xr
    split <;> rfl
  · intro hn
    have ha := h.acc hn
    unfold State.now at ha
    rw [h.cur] at ha
    simpa using ha

theorem Slot.writeS {r u : State} {w : Seat} (h : Slot r u w) (hw : w.resident = true) (n : Nat) (v : Word) :
    Slot r (u.writeS r.cur n v) (w.putS n v) := by
  unfold State.writeS
  refine Slot.touch (h.setSeat (by simpa using hw) ?_ ?_) (by simpa using hw) _ _
  · have hs := h.seat
    unfold State.now at hs
    rw [h.cur] at hs
    rw [hs]
    unfold Seat.putS
    split <;> rfl
  · intro hn
    have ha := h.acc hn
    unfold State.now at ha
    rw [h.cur] at ha
    simpa using ha

/-- What `Slot` leaves open of a seat, put into it. -/
def Seat.openWith (w : Seat) (a : Vector (Lanes Half) 128) (l : Vector Latch 4) (p : Vector Word 4) (x : Vector Word 31)
    (d : BitVec 31) : Seat := { w with acc := a, lat := l, latpois := p, xdead := x, sdead := d }

/-- The seat changed by an operation that goes through what `Slot` leaves open. -/
theorem Slot.map {r u : State} {w : Seat} (h : Slot r u w) (f : Seat → Seat) (hw : (f w).resident = true)
    (hf : ∀ a l p x d, ∃ l' p' x' d', f (w.openWith a l p x d) = (f w).openWith a l' p' x' d') (ha : (f w).acc = w.acc) :
    Slot r (u.setSeat r.cur (f (u.seat r.cur))) (f w) := by
  have hs := h.seat
  unfold State.now at hs
  rw [h.cur] at hs
  obtain ⟨l', p', x', d', e⟩ := hf (u.seat r.cur).acc (u.seat r.cur).lat (u.seat r.cur).latpois (u.seat r.cur).xdead
    (u.seat r.cur).sdead
  have e' : f (u.seat r.cur) = (f w).openWith (u.seat r.cur).acc l' p' x' d' := by rw [← e, Seat.openWith, ← hs]
  refine h.setSeat hw (by rw [e']; rfl) fun hn => ?_
  rw [e', ha]
  have := h.acc hn
  unfold State.now at this
  rw [h.cur] at this
  exact this

theorem Slot.advance {r u : State} {w : Seat} (h : Slot r u w) (hw : w.resident = true) :
    Slot r (u.next r.cur) w.advance :=
  h.map Seat.advance (by simpa using hw)
    (fun a l p x d => ⟨l, p, x, d, by unfold Seat.advance Seat.openWith; split <;> rfl⟩) (by simp)

theorem Slot.jump {r u : State} {w : Seat} (h : Slot r u w) (hw : w.resident = true) (a : Word) :
    Slot r (u.setSeat r.cur ((u.seat r.cur).jump a)) (w.jump a) :=
  h.map (fun t => t.jump a) (by simpa using hw)
    (fun y l p x d => by
      by_cases e : a &&& ~~~15#64 = w.pc + 16
      · exact ⟨l, p, x, d, by simp only [Seat.jump, Seat.moveLatches, Seat.openWith, Seat.leave, e, if_true]⟩
      · exact ⟨_, _, x, d, by simp only [Seat.jump, Seat.moveLatches, Seat.openWith, Seat.leave, e, if_false]; rfl⟩)
    (by simp)

theorem Slot.shift {r u : State} {w : Seat} (h : Slot r u w) (hw : w.resident = true) (e : Latch) (p : Word) :
    Slot r (u.setSeat r.cur ((u.seat r.cur).shift e p)) w :=
  h.setSeat hw
    (by have hs := h.seat
        unfold State.now at hs
        rw [h.cur] at hs
        rw [hs]
        rfl)
    (fun hn => by have := h.acc hn
                  unfold State.now at this
                  rw [h.cur] at this
                  exact this)

theorem Slot.dropLatches {r u : State} {w : Seat} (h : Slot r u w) (hw : w.resident = true) :
    Slot r (u.setSeat r.cur (u.seat r.cur).dropLatches) w :=
  h.setSeat hw
    (by have hs := h.seat
        unfold State.now at hs
        rw [h.cur] at hs
        rw [hs]
        rfl)
    (fun hn => by have := h.acc hn
                  unfold State.now at this
                  rw [h.cur] at this
                  exact this)

theorem Slot.lastUse {r u : State} {w : Seat} (h : Slot r u w) (hw : w.resident = true) (uni : Bool) (m : Word)
    (srcs : List Src) : Slot r (u.setSeat r.cur ((u.seat r.cur).lastUse uni m srcs)) w :=
  h.setSeat hw
    (by have hs := h.seat
        unfold State.now at hs
        rw [h.cur] at hs
        rw [Seat.lastUse_eq, hs])
    (fun hn => by have := h.acc hn
                  unfold State.now at this
                  rw [h.cur] at this
                  rw [Seat.lastUse_eq]
                  exact this)

theorem Slot.readScalars {r u : State} {w : Seat} (h : Slot r u w) (hw : w.resident = true) (t : Seat)
    (srcs : List Src) : Slot r (u.readScalars r.cur t srcs) w := (h.lastUse hw _ _ _).useFree _

theorem Slot.putM {r u : State} {w : Seat} (h : Slot r u w) (hw : w.resident = true) (n : Nat) (v : Word) :
    Slot r (u.setSeat r.cur ((u.seat r.cur).putM n v)) (w.putM n v) :=
  h.map (fun t => t.putM n v) (by simpa using hw)
    (fun a l p x d => ⟨l, p, x, d, by unfold Seat.putM Seat.openWith; split <;> rfl⟩) (by simp)

theorem Slot.putScalar {r u : State} {w : Seat} (h : Slot r u w) (hw : w.resident = true) (d : Dst) (v : Word) :
    Slot r (u.putScalar r.cur d v) (if d.nw then w else w.putS d.dr.toNat v) := by
  unfold State.putScalar
  split
  · exact h.shift hw _ _
  · exact (h.writeS hw _ _).shift (by simpa using hw) _ _

/-- The reads of a lane slot: last uses, flags and free values. -/
theorem Slot.afterReads {r u : State} {w : Seat} (h : Slot r u w) (hw : w.resident = true) (t : Seat)
    (srcs : List Src) (all : List (Src × Word)) (fl : BitVec 6) (dn : Nat) :
    Slot r (u.afterReads r.cur t srcs all fl dn) (w.orFlags fl) := by
  unfold State.afterReads
  refine Slot.useFree (h.setSeat (w' := w.orFlags fl) hw ?_ fun hn => ?_) _
  · have hs := h.seat
    unfold State.now at hs
    rw [h.cur] at hs
    rw [Seat.lastUse_eq, hs]
    rfl
  · have := h.acc hn
    unfold State.now at this
    rw [h.cur] at this
    rw [Seat.lastUse_eq]
    exact this

/-- A register takes the same value whatever stands outside its mask. -/
theorem merge_congr {α : Type} {m : Word} {f g old : Nat → α} (h : ∀ l, m.getLsbD l = true → f l = g l) :
    merge m f old = merge m g old := by
  unfold merge
  congr 1
  funext l
  split
  · exact h l ‹_›
  · rfl

theorem Seat.putX_congr (t : Seat) (n : Nat) {m : Word} {f g : Nat → Word} (h : ∀ l, m.getLsbD l = true → f l = g l) :
    t.putX n m f = t.putX n m g := by
  unfold Seat.putX
  rw [merge_congr h]

/-- A lane slot's register written as its result says: `v` in the active lanes, and zero in the others where they are
zeroed (02 R57, R65). -/
theorem Slot.putLane {r u : State} {w : Seat} (h : Slot r u w) (hw : w.resident = true) (t : Seat) (d : Dst)
    (zero : Bool) (act : Word) (v : Nat → Word) (hd : d.nw = true ∨ d.dr.toNat ≠ 31) :
    ∃ u', u.putLaneZ r.cur t d zero act v = .ok u' ∧
      Slot r u' (if d.nw then w else w.putX d.dr.toNat (if zero then BitVec.allOnes 64 else act)
        (fun l => if act.getLsbD l then v l else 0)) := by
  have he : ∀ l, (if zero = true then BitVec.allOnes 64 else act).getLsbD l = true →
      vget 0 (u.laneEntry t d.dr.toNat zero act v) l = if act.getLsbD l then v l else 0 := by
    intro l hl
    have hlt : l < 64 := BitVec.lt_of_getLsbD hl
    unfold State.laneEntry
    rw [vget_merge hlt]
    by_cases ha : act.getLsbD l = true
    · simp [ha]
    · cases zero
      · simp [ha] at hl
      · simp [ha]
  unfold State.putLaneZ
  by_cases hn : d.nw = true
  · simp only [hn, if_true]
    split <;> exact ⟨_, rfl, h.shift hw _ _⟩
  · have h31 : d.dr.toNat ≠ 31 := hd.resolve_left hn
    simp only [hn, if_false, h31]
    refine ⟨_, rfl, ?_⟩
    rw [← Seat.putX_congr w d.dr.toNat he]
    exact (h.writeX hw _ _ _).shift (by simpa using hw) _ _

/-! ### Latches through a slot's operations -/

/-- The seat's latches are `l`, and the seat still holds a row. -/
def Lats (s : State) (k : Nat) (l : Vector Latch 4) : Prop := (s.seat k).resident = true ∧ (s.seat k).lat = l

theorem Lats.setSeat {s : State} {k : Nat} {t : Seat} {l : Vector Latch 4} (hr : t.resident = true) (hl : t.lat = l) :
    Lats (s.setSeat k t) k l := by
  unfold Lats
  rw [State.seat_setSeat_self _ _ hr]
  exact ⟨hr, hl⟩

theorem Lats.touch {s : State} {k : Nat} {l : Vector Latch 4} (h : Lats s k l) (x : Bool) (n : Nat) :
    Lats (s.touch k x n) k l := by
  unfold State.touch
  dsimp only
  split
  · exact h
  · have h1 : ∀ a, Lats (s.setSeat k { s.seat k with acc := a }) k l := fun a => Lats.setSeat h.1 h.2
    unfold Lats at h1 ⊢
    split <;> exact h1 _

theorem Lats.writeX {s : State} {k : Nat} {l : Vector Latch 4} (h : Lats s k l) (n : Nat) (m : Word) (v : Nat → Word) :
    Lats (s.writeX k n m v) k l :=
  (Lats.setSeat (by simpa using h.1) (by simpa using h.2)).touch _ _

theorem Lats.writeS {s : State} {k : Nat} {l : Vector Latch 4} (h : Lats s k l) (n : Nat) (v : Word) :
    Lats (s.writeS k n v) k l :=
  (Lats.setSeat (by simpa using h.1) (by simpa using h.2)).touch _ _

theorem Lats.shift {s : State} {k : Nat} {l : Vector Latch 4} (h : Lats s k l) (e : Latch) (p : Word) :
    Lats (s.setSeat k ((s.seat k).shift e p)) k (tab 4 (fun i => if i = 0 then e else vget .invalid l (i - 1))) :=
  Lats.setSeat (by simpa using h.1) (by rw [← h.2]; rfl)

theorem Lats.next {s : State} {k : Nat} {l : Vector Latch 4} (h : Lats s k l) : Lats (s.next k) k l :=
  Lats.setSeat (by simpa using h.1) (by simpa using h.2)

theorem Lats.afterReads {s : State} {k : Nat} {l : Vector Latch 4} (h : Lats s k l) (t : Seat) (srcs : List Src)
    (all : List (Src × Word)) (fl : BitVec 6) (dn : Nat) : Lats (s.afterReads k t srcs all fl dn) k l := by
  have h1 : Lats (s.setSeat k (((s.seat k).lastUse t.uniform t.act srcs).orFlags fl)) k l :=
    Lats.setSeat (by simpa using h.1) (by rw [Seat.lastUse_eq]; exact h.2)
  exact h1

theorem Lats.readScalars {s : State} {k : Nat} {l : Vector Latch 4} (h : Lats s k l) (t : Seat) (srcs : List Src) :
    Lats (s.readScalars k t srcs) k l := by
  have h1 : Lats (s.setSeat k ((s.seat k).lastUse true 1 srcs)) k l :=
    Lats.setSeat (by simpa using h.1) (by rw [Seat.lastUse_eq]; exact h.2)
  exact h1

theorem Lats.putScalar {s : State} {k : Nat} {l : Vector Latch 4} (h : Lats s k l) (d : Dst) (v : Word) :
    Lats (s.putScalar k d v) k (tab 4 (fun i => if i = 0 then .scalar v else vget .invalid l (i - 1))) := by
  unfold State.putScalar
  split
  · exact h.shift _ _
  · exact (h.writeS _ _).shift _ _

theorem Lats.putLane {s : State} {k : Nat} {l : Vector Latch 4} (h : Lats s k l) (t : Seat) (d : Dst) (zero : Bool)
    (act : Word) (v : Nat → Word) (hd : d.nw = true ∨ d.dr.toNat ≠ 31) :
    ∃ u, s.putLaneZ k t d zero act v = .ok u ∧ Lats u k (tab 4 (fun i =>
      if i = 0 then .lane (s.laneEntry t d.dr.toNat zero act v) else vget .invalid l (i - 1))) := by
  unfold State.putLaneZ
  by_cases hn : d.nw = true
  · simp only [hn, if_true]
    split <;> exact ⟨_, rfl, h.shift _ _⟩
  · simp only [hn, if_false, hd.resolve_left hn]
    exact ⟨_, rfl, (h.writeX _ _ _).shift _ _⟩

theorem Latched.of_lats {s u : State} {l : Vector Latch 4} {e : Latch} {v0 : Latch → Prop} (hc : u.cur = s.cur)
    (h : Lats u s.cur (tab 4 (fun i => if i = 0 then e else vget .invalid l (i - 1)))) (hl : s.now.lat = l) (he : v0 e) :
    Latched s u v0 := by
  have hu : u.now.lat = tab 4 (fun i => if i = 0 then e else vget .invalid l (i - 1)) := by
    unfold State.now
    rw [hc]
    exact h.2
  unfold Latched
  rw [hu, hl]
  refine ⟨by simpa using he, fun k hk => ?_⟩
  rw [vget_tab_lt (by omega)]
  simp

/-- The latch entry of a lane result in its active lanes. -/
theorem laneEntry_active (s : State) (t : Seat) (n : Nat) (zero : Bool) {act : Word} (v : Nat → Word) {l : Nat}
    (h : act.getLsbD l = true) : vget 0 (s.laneEntry t n zero act v) l = v l := by
  unfold State.laneEntry
  rw [vget_merge (BitVec.lt_of_getLsbD h), if_pos h]

end Sys2Proof.Machine
end

