-- ==== Sys2Proof/Laws/Ctl.lean ====
section
/-! SUPPORT. The shared run of a slot on scalars and masks: what its body works on, and how the usual ends leave the seat
and its latches. -/
namespace Sys2Proof.Machine

/-- The latches of a resident seat and their errors. -/
def Holds4 (s : State) (k : Nat) (l : Vector Latch 4) (p : Vector Word 4) : Prop :=
  (s.seat k).resident = true ∧ (s.seat k).lat = l ∧ (s.seat k).latpois = p

theorem Holds4.setSeat {s : State} {k : Nat} {t : Seat} {l : Vector Latch 4} {p : Vector Word 4} (hr : t.resident = true)
    (hl : t.lat = l) (hp : t.latpois = p) : Holds4 (s.setSeat k t) k l p := by
  unfold Holds4
  rw [State.seat_setSeat_self _ _ hr]
  exact ⟨hr, hl, hp⟩

theorem Holds4.touch {s : State} {k : Nat} {l : Vector Latch 4} {p : Vector Word 4} (h : Holds4 s k l p) (x : Bool)
    (n : Nat) : Holds4 (s.touch k x n) k l p := by
  unfold State.touch
  dsimp only
  split
  · exact h
  · have h1 : ∀ a, Holds4 (s.setSeat k { s.seat k with acc := a }) k l p :=
      fun a => Holds4.setSeat h.1 h.2.1 h.2.2
    split <;> exact h1 _

theorem Holds4.writeS {s : State} {k : Nat} {l : Vector Latch 4} {p : Vector Word 4} (h : Holds4 s k l p) (n : Nat)
    (v : Word) : Holds4 (s.writeS k n v) k l p :=
  (Holds4.setSeat (by simpa using h.1) (by simpa using h.2.1) (by simpa using h.2.2)).touch _ _

theorem Holds4.readScalars {s : State} {k : Nat} {l : Vector Latch 4} {p : Vector Word 4} (h : Holds4 s k l p) (t : Seat)
    (srcs : List Src) : Holds4 (s.readScalars k t srcs) k l p := by
  have h1 : Holds4 (s.setSeat k ((s.seat k).lastUse true 1 srcs)) k l p :=
    Holds4.setSeat (by simpa using h.1) (by rw [Seat.lastUse_eq]; exact h.2.1) (by rw [Seat.lastUse_eq]; exact h.2.2)
  exact h1

theorem Holds4.kept {s u : State} (hc : u.cur = s.cur) (h : Holds4 u s.cur s.now.lat s.now.latpois) : LatchesKept s u := by
  unfold LatchesKept State.now
  rw [hc]
  exact h.2

theorem LatchesGone.of {u : State} (h : u.now.lat = vrep 4 .invalid) : LatchesGone u := by
  intro k hk
  rw [h, vget_vrep, if_pos hk]

/-- A slot that passes its checks runs its body on the state that has read; `g` tells whether it reads the guard. -/
theorem CtlReady.run {s : State} {srcs : List Src} {masks : List Nat} {g : Bool}
    (h : CtlReady s srcs ((if g then s.now.guardMask else []) ++ masks)) (body : Nat → Seat → State → Except Stop State) :
    s.ctl false srcs masks body (guard := g) = s.close s.cur (body s.cur s.now (s.readScalars s.cur s.now srcs)) := by
  have hr : (s.seat s.cur).resident = true := h.resident
  have hc := h.check
  unfold State.now at hc
  unfold State.ctl State.run
  simp only [hr, if_true, hc, bind, Except.bind]
  rfl

/-- Without operands nothing is read. -/
theorem State.readScalars_nil (s : State) (h : s.now.resident = true) :
    Slot s (s.readScalars s.cur s.now []) s.now ∧ (s.readScalars s.cur s.now []).seat s.cur = s.now := by
  refine ⟨(Slot.refl s).readScalars h _ _, ?_⟩
  show (s.setSeat s.cur ((s.seat s.cur).lastUse true 1 [])).seat s.cur = s.now
  rw [State.seat_setSeat_self _ _ (by rw [Seat.resident_lastUse]; exact h)]
  rfl

/-- A body that makes the seat into another one, its latches kept. -/
theorem CtlReady.seat_ok {s : State} {masks : List Nat} {g : Bool}
    (h : CtlReady s [] ((if g then s.now.guardMask else []) ++ masks)) {f : Seat → Except Stop Seat} {w : Seat}
    (hf : f s.now = .ok w) (hw : w.resident = true) :
    ∃ u, s.ctlSeat false [] masks f (guard := g) = .next u ∧ Slot s u w ∧ u.now = w := by
  obtain ⟨h1, h2⟩ := s.readScalars_nil h.resident
  have hc : (s.readScalars s.cur s.now []).cur = s.cur := rfl
  refine ⟨(s.readScalars s.cur s.now []).setSeat s.cur w, ?_, h1.setSeat hw rfl (fun _ => rfl), ?_⟩
  · unfold State.ctlSeat
    rw [h.run]
    simp only [h2, hf, bind, Except.bind, pure, Except.pure]
    rfl
  · show ((s.readScalars s.cur s.now []).setSeat s.cur w).seat s.cur = w
    exact State.seat_setSeat_self _ _ hw

theorem CtlReady.moves {s : State} {masks : List Nat} {g : Bool}
    (h : CtlReady s [] ((if g then s.now.guardMask else []) ++ masks)) {f : Seat → Except Stop Seat} {w : Seat}
    {i : Instr} (hi : exec i s = s.ctlSeat false [] masks f (guard := g)) (hf : f s.now = .ok w) (hw : w.resident = true)
    (hl : w.lat = s.now.lat) (hp : w.latpois = s.now.latpois) : Moves i s w := by
  obtain ⟨u, h1, h2, h3⟩ := h.seat_ok hf hw
  exact ⟨u, by rw [hi, h1], h2, by unfold LatchesKept; rw [h3]; exact ⟨hl, hp⟩⟩

/-- What a jump does to the latches, the bundle being as the slot found it. -/
theorem Seat.jump_latches {s u : State} {w : Seat} {a : Word} (h : u.now = w.jump a) (hp : w.pc = s.now.pc)
    (hl : w.lat = s.now.lat) (hx : w.latpois = s.now.latpois) :
    if false = true ∨ a &&& ~~~15#64 ≠ s.now.pc + 16 then LatchesGone u else LatchesKept s u := by
  split
  · rename_i e
    refine LatchesGone.of ?_
    rw [h, Seat.jump, Seat.moveLatches, hp, if_neg (e.resolve_left nofun)]
    rfl
  · rename_i e
    rw [not_or, not_not] at e
    unfold LatchesKept
    rw [h, Seat.jump, Seat.moveLatches, hp, if_pos e.2]
    exact ⟨hl, hx⟩

theorem CtlReady.jumps {s : State} {masks : List Nat} {g : Bool}
    (h : CtlReady s [] ((if g then s.now.guardMask else []) ++ masks)) {f : Seat → Except Stop Seat} {w : Seat}
    {a : Word} {i : Instr} (hi : exec i s = s.ctlSeat false [] masks f (guard := g)) (hf : f s.now = .ok (w.jump a))
    (hw : w.resident = true) (hp : w.pc = s.now.pc) (hl : w.lat = s.now.lat) (hx : w.latpois = s.now.latpois) :
    Jumps i s w a := by
  obtain ⟨u, h1, h2, h3⟩ := h.seat_ok hf (by simpa using hw)
  exact ⟨u, by rw [hi, h1], h2, by rw [h3]; rfl, by rw [h3]; rfl, Seat.jump_latches h3 hp hl hx⟩

/-- A row that moves with some of its lanes has lost its latches. -/
theorem CtlReady.splits {s : State} {masks : List Nat} {g : Bool}
    (h : CtlReady s [] ((if g then s.now.guardMask else []) ++ masks)) {f : Seat → Except Stop Seat} {w : Seat}
    {a : Word} {i : Instr} (hi : exec i s = s.ctlSeat false [] masks f (guard := g))
    (hf : f s.now = .ok (w.dropLatches.jump a)) (hw : w.resident = true) : Splits i s w a := by
  obtain ⟨u, h1, h2, h3⟩ := h.seat_ok hf (by simpa using hw)
  have e : w.dropLatches.jump a = { w.jump a with lat := vrep 4 .invalid, latpois := vrep 4 0 } := by
    have hd : w.dropLatches.pc = w.pc := rfl
    by_cases e : a &&& ~~~15#64 = w.pc + 16
    · simp only [Seat.jump, Seat.moveLatches, hd, e, if_true]
      rfl
    · simp only [Seat.jump, Seat.moveLatches, hd, e, if_false]
      rfl
  refine ⟨u, by rw [hi, h1], ?_, by rw [h3]; rfl, by rw [h3]; rfl, ?_⟩
  · have h4 := h2.seat
    exact { h2 with acc := fun hn => (h2.acc hn).trans (by rw [e]), seat := by rw [h4, e] }
  · rw [if_pos (Or.inl rfl)]
    exact LatchesGone.of (by rw [h3, e])

/-- A body that stops. -/
theorem CtlReady.traps {s : State} {srcs : List Src} {masks : List Nat} {g : Bool}
    (h : CtlReady s srcs ((if g then s.now.guardMask else []) ++ masks))
    {body : Nat → Seat → State → Except Stop State} {i : Instr} {t : Trap}
    (hi : exec i s = s.ctl false srcs masks body (guard := g))
    (hb : body s.cur s.now (s.readScalars s.cur s.now srcs) = .error (.trap t)) : Traps i s t := by
  unfold Traps
  rw [hi, h.run, hb]
  rfl

end Sys2Proof.Machine
end

