-- ==== Sys2Proof/Laws/Lane.lean ====
section
/-! SUPPORT. The shared run of a lane instruction: where it completes and what it leaves. -/
namespace Sys2Proof.Machine

/-- Reading the ports changes rows alone. -/
theorem State.popNorth_rest (s : State) (sid : Nat) (t : Seat) :
    s.popNorth sid t = { s with rows := (s.popNorth sid t).rows } := by
  unfold State.popNorth
  dsimp only
  split <;> rfl

theorem State.readNorth_rest {s r : State} {sid : Nat} {t : Seat} {pop : Bool} {e : PortEntry}
    (h : s.readNorth sid t pop = .ok (e, r)) : r = { s with rows := r.rows } := by
  unfold State.readNorth at h
  cases hn : s.north sid t with
  | error x => rw [hn] at h; cases h
  | ok v =>
    rw [hn] at h
    cases v with
    | zeros => cases h; rfl
    | none => cases h
    | entry x =>
      cases pop
      · cases h; rfl
      · cases h; exact s.popNorth_rest sid t

theorem State.readPorts_rest {s r : State} {sid : Nat} {t : Seat} {srcs : List Src} {e : PortEntry}
    (h : s.readPorts sid t srcs = .ok (e, r)) : r = { s with rows := r.rows } := by
  unfold State.readPorts at h
  split at h
  · exact State.readNorth_rest h
  · cases h; rfl

/-- A state that differs in its rows alone. -/
theorem Slot.of_rows {s r : State} (h : r = { s with rows := r.rows }) : Slot r r s.now where
  rest := rfl
  bytes := ⟨fun _ => rfl, fun _ => rfl⟩
  others := fun _ _ => rfl
  rows := fun _ => rfl
  window := id
  acc := fun _ => by rw [h]; rfl
  seat := by rw [h]; rfl

theorem Lats.of_rows {s r : State} (h : r = { s with rows := r.rows }) (hr : s.now.resident = true) :
    Lats r s.cur s.now.lat := by
  rw [h]
  exact ⟨hr, rfl⟩

/-- Where its checks pass and its result goes to a register or nowhere, a lane instruction completes. -/
theorem State.lane_register {s r : State} {e : PortEntry} (o : Seat → LaneOp)
    (f : Seat → LaneIn → (Nat → Word) × BitVec 6) (h : LaneReady s (o s.now) e r)
    (hd : (o s.now).d.nw = true ∨ s.now.uniform = true ∨ (o s.now).d.dr.toNat ≠ 31) :
    ∃ u, s.lane o f = .next u ∧
      Slot r u (((s.now.orFlags (f s.now (s.laneIn s.now (o s.now) e.v)).2).result s.now (o s.now).d
        (f s.now (s.laneIn s.now (o s.now) e.v)).1).advance) ∧
      Latched s u (s.now.entry (f s.now (s.laneIn s.now (o s.now) e.v)).1) := by
  have hrest := State.readPorts_rest h.ports
  have h1 := (Slot.of_rows hrest).afterReads h.resident s.now ((o s.now).srcs s.now) ((o s.now).reads s.now)
    (f s.now (s.laneIn s.now (o s.now) e.v)).2 (o s.now).d.dr.toNat
  have l1 := (Lats.of_rows hrest h.resident).afterReads s.now ((o s.now).srcs s.now) ((o s.now).reads s.now)
    (f s.now (s.laneIn s.now (o s.now) e.v)).2 (o s.now).d.dr.toNat
  have hcur : r.cur = s.cur := by rw [hrest]
  rw [hcur] at h1
  have hp : portPois e s.now.act = .ok () := by
    unfold portPois trapIf
    simp [h.pois]
  have hw : (s.now.orFlags (f s.now (s.laneIn s.now (o s.now) e.v)).2).resident = true := h.resident
  unfold State.lane State.run
  have hnow : s.seat s.cur = s.now := rfl
  simp only [hnow, h.resident, if_true, h.check, h.ports, hp, bind, Except.bind, Seat.result]
  cases hu : s.now.uniform
  · simp only [if_false, Bool.false_eq_true]
    have hd' : (o s.now).d.nw = true ∨ (o s.now).d.dr.toNat ≠ 31 := by
      rcases hd with a | a | a
      · exact .inl a
      · rw [hu] at a; cases a
      · exact .inr a
    obtain ⟨u, hu1, hs⟩ := h1.putLane hw s.now (o s.now).d s.now.ezero s.now.gov
      (f s.now (s.laneIn s.now (o s.now) e.v)).1 hd'
    rw [hcur] at hu1
    obtain ⟨u2, hu2, hl⟩ := l1.putLane s.now (o s.now).d s.now.ezero s.now.gov
      (f s.now (s.laneIn s.now (o s.now) e.v)).1 hd'
    rw [hu1] at hu2
    cases hu2
    unfold State.putLane
    simp only [hu1, pure, Except.pure, State.close]
    have hs2 := hs.advance (by split <;> simp [hw])
    rw [hcur] at hs2
    refine ⟨_, rfl, hs2, ?_⟩
    · refine Latched.of_lats (hs2.cur.trans hcur) hl.next rfl ?_
      unfold Seat.entry
      rw [if_neg (by simp [hu])]
      exact ⟨_, rfl, fun l hl => laneEntry_active _ _ _ _ _ hl⟩
  · simp only [if_true]
    have hs := h1.putScalar hw (o s.now).d ((f s.now (s.laneIn s.now (o s.now) e.v)).1 0)
    rw [hcur] at hs
    have hl := l1.putScalar (o s.now).d ((f s.now (s.laneIn s.now (o s.now) e.v)).1 0)
    have hs2 := hs.advance (by split <;> simp [hw])
    rw [hcur] at hs2
    exact ⟨_, rfl, hs2, Latched.of_lats (hs2.cur.trans hcur) hl.next rfl (by unfold Seat.entry; rw [if_pos hu])⟩

end Sys2Proof.Machine
end

