-- ==== Sys2Proof/Laws/Elem.lean ====
section
/-! SUPPORT. Elements of lane values, and the results of lane-by-lane and element-by-element functions. -/
namespace Sys2Proof.Machine

theorem perLane_mul (ty : BitVec 4) : tyBits ty * (64 / tyBits ty) = 64 := by
  revert ty
  decide

theorem tyBits_pos (ty : BitVec 4) : 0 < tyBits ty := by
  revert ty
  decide

/-- The elements of the number built from a list of elements are the list's. -/
theorem foldr_elems (w : Nat) (xs : List Nat) (h : ∀ x ∈ xs, x < 2 ^ w) :
    (xs.foldr (fun x acc => x + 2 ^ w * acc) 0) < 2 ^ (w * xs.length) ∧
    ∀ k, k < xs.length → (xs.foldr (fun x acc => x + 2 ^ w * acc) 0) / 2 ^ (w * k) % 2 ^ w = xs.getD k 0 := by
  induction xs with
  | nil => simp
  | cons x xs ih =>
    obtain ⟨h1, h2⟩ := ih (fun y hy => h y (List.mem_cons_of_mem _ hy))
    have hx := h x (List.mem_cons_self ..)
    have hpos : 0 < 2 ^ w := Nat.two_pow_pos w
    refine ⟨?_, ?_⟩
    · simp only [List.foldr_cons, List.length_cons]
      rw [Nat.mul_succ, Nat.pow_add]
      have : 2 ^ w * (xs.foldr (fun x acc => x + 2 ^ w * acc) 0 + 1) ≤ 2 ^ w * 2 ^ (w * xs.length) :=
        Nat.mul_le_mul_left _ h1
      rw [Nat.mul_add, Nat.mul_one] at this
      rw [Nat.mul_comm (2 ^ (w * xs.length))]
      omega
    · intro k hk
      simp only [List.foldr_cons]
      cases k with
      | zero => simp [Nat.add_mul_mod_self_left, Nat.mod_eq_of_lt hx]
      | succ k =>
        have hk' : k < xs.length := by simpa using hk
        have : (x + 2 ^ w * xs.foldr (fun x acc => x + 2 ^ w * acc) 0) / 2 ^ (w * (k + 1)) =
            xs.foldr (fun x acc => x + 2 ^ w * acc) 0 / 2 ^ (w * k) := by
          rw [Nat.mul_succ, Nat.add_comm (w * k), Nat.pow_add, ← Nat.div_div_eq_div_mul,
            Nat.add_mul_div_left _ _ hpos, Nat.div_eq_of_lt hx, Nat.zero_add]
        rw [this, h2 k hk']
        simp

/-- Element `k` of an element-wise result (05 R118). -/
theorem elem_elemwise {w : Nat} (hw : w * (64 / w) = 64) (g : Nat → Nat → Nat → Nat → Nat × BitVec 6)
    (a b q d : Word) {k : Nat} (hk : k < 64 / w) :
    elem w (elemwise w g a b q d).1 k = (g (elem w a k) (elem w b k) (elem w q k) (elem w d k)).1 % 2 ^ w := by
  unfold elemwise
  dsimp only
  generalize hrs : ((List.range (perLane w)).map fun i => g (elem w a i) (elem w b i) (elem w q i) (elem w d i)) = rs
  have hlen : rs.length = 64 / w := by rw [← hrs]; simp [perLane]
  obtain ⟨h1, h2⟩ := foldr_elems w (rs.map fun r => r.1 % 2 ^ w)
    (by intro x hx; obtain ⟨r, -, rfl⟩ := List.mem_map.1 hx; exact Nat.mod_lt _ (Nat.two_pow_pos w))
  rw [List.length_map, hlen, hw] at h1
  unfold elem
  rw [BitVec.toNat_ofNat, Nat.mod_eq_of_lt h1]
  rw [h2 k (by rw [List.length_map, hlen]; exact hk)]
  rw [← hrs]
  simp [perLane, hk, elem, List.getD]

/-- The flags of an element-wise operation are those of its elements. -/
theorem flags_elemwise (w : Nat) (g : Nat → Nat → Nat → Nat → Nat × BitVec 6) (a b q d : Word)
    (h : ∀ a b q d, (g a b q d).2 = 0) : (elemwise w g a b q d).2 = 0 := by
  unfold elemwise
  dsimp only
  generalize hrs : ((List.range (perLane w)).map fun i => g (elem w a i) (elem w b i) (elem w q i) (elem w d i)) = rs
  have hz : ∀ r ∈ rs, r.2 = 0 := by
    rw [← hrs]
    intro r hr
    obtain ⟨i, -, rfl⟩ := List.mem_map.1 hr
    exact h _ _ _ _
  clear hrs
  induction rs with
  | nil => rfl
  | cons r rs ih =>
    rw [List.foldl_cons, hz r (List.mem_cons_self ..)]
    simpa using ih (fun r hr => hz r (List.mem_cons_of_mem _ hr))

/-- No lane raises a flag. -/
theorem gatherFlags_zero (m : Word) (f : Nat → BitVec 6) (h : ∀ l, f l = 0) : gatherFlags m f = 0 := by
  unfold gatherFlags
  generalize List.range 64 = ls
  induction ls with
  | nil => rfl
  | cons l ls ih =>
    rw [List.foldl_cons]
    split
    · rw [h l]; simpa using ih
    · exact ih

/-- A lane that acts takes its value from its own operands. -/
theorem lanewise_active {g : Seat → Word → Word → Word → Word → Word × BitVec 6} {t : Seat} {i : LaneIn} {l : Nat}
    (h : i.act.getLsbD l = true) :
    (lanewise g t i).1 l = (g t (vget 0 i.a l) (vget 0 i.b l) (match i.q with
        | some q => vget 0 q l
        | none => vget 0 i.d l) (vget 0 i.d l)).1 := by
  have hl : l < 64 := BitVec.lt_of_getLsbD h
  let F : Nat → Word × BitVec 6 := fun l =>
    if i.act.getLsbD l then
      g t (vget 0 i.a l) (vget 0 i.b l) (match i.q with
        | some q => vget 0 q l
        | none => vget 0 i.d l) (vget 0 i.d l)
    else (0, 0)
  have key : vget (0, 0) (tab 64 F) l = F l := vget_tab_lt hl _ F
  have hF : F l = g t (vget 0 i.a l) (vget 0 i.b l) (match i.q with
        | some q => vget 0 q l
        | none => vget 0 i.d l) (vget 0 i.d l) := if_pos h
  exact congrArg Prod.fst (key.trans hF)

theorem lanewise_flags_zero {g : Seat → Word → Word → Word → Word → Word × BitVec 6} {t : Seat} {i : LaneIn}
    (h : ∀ a b q d, (g t a b q d).2 = 0) : (lanewise g t i).2 = 0 := by
  let F : Nat → Word × BitVec 6 := fun l =>
    if i.act.getLsbD l then
      g t (vget 0 i.a l) (vget 0 i.b l) (match i.q with
        | some q => vget 0 q l
        | none => vget 0 i.d l) (vget 0 i.d l)
    else (0, 0)
  have hF : ∀ l, (vget (0, 0) (tab 64 F) l).2 = 0 := by
    intro l
    rw [vget_tab]
    by_cases hl : l < 64
    · rw [if_pos hl]
      by_cases ha : i.act.getLsbD l = true
      · exact (congrArg Prod.snd (if_pos ha)).trans (h _ _ _ _)
      · exact congrArg Prod.snd (if_neg ha)
    · rw [if_neg hl]
  unfold lanewise
  dsimp only
  apply gatherFlags_zero
  exact hF

/-- A slot that passes its checks has an accepted type and no ILLEGAL_OP of its own. -/
theorem Seat.check_ok {t : Seat} {sid : Nat} {uni ill bad port : Bool} {srcs : List (Src × Word)}
    {also : List (Bool × Src × Word)} {mid : Except Stop Unit} {masks : List Nat}
    (h : t.check sid uni ill bad port srcs also mid masks = .ok ()) : ill = false ∧ bad = false := by
  unfold Seat.check trapIf at h
  cases ill
  · cases bad
    · exact ⟨rfl, rfl⟩
    · exfalso
      dsimp only at h
      simp only [Bool.true_or, if_true] at h
      split at h <;> cases h
  · exfalso
    simp only [Bool.true_or, if_true] at h
    cases h

/-- What a lane instruction computes is what its function gives. -/
theorem computes_of {i : Instr} (o : Seat → LaneOp) (f : Seat → LaneIn → (Nat → Word) × BitVec 6)
    (h : ∀ s, exec i s = s.lane o f) (ho : ∀ t, laneOp i t = some (o t))
    {V : Seat → LaneIn → (Nat → Word) → BitVec 6 → Prop}
    (hV : ∀ t li, (o t).badType = false → (o t).illegal = false → V t li (f t li).1 (f t li).2) :
    Computes i V := by
  intro s o' e r ho' hr hd
  rw [ho] at ho'
  cases ho'
  obtain ⟨u, h1, h2, h3⟩ := State.lane_register o f hr hd
  have hc : (o s.now).bad s.now = false ∧ (o s.now).badType = false := by
    have := hr.check
    unfold State.laneCheck at this
    cases hx : s.now.check s.cur s.now.uniform ((o s.now).bad s.now) (o s.now).badType ((o s.now).d.isSp s.now.uniform)
        ((o s.now).reads s.now) ((o s.now).second.toList.map (fun n => (true, ⟨false, false, BitVec.ofNat 5 n⟩, 1))) with
    | error e => rw [hx] at this; cases this
    | ok v => exact Seat.check_ok hx
  have hi : (o s.now).illegal = false := by
    have := hc.1
    unfold LaneOp.bad at this
    rw [Bool.or_eq_false_iff, Bool.or_eq_false_iff] at this
    exact this.1.1
  exact ⟨u, _, _, by rw [h, h1], hV _ _ hc.2 hi, h2, h3⟩

end Sys2Proof.Machine
end

