-- ==== Sys2Proof/Laws/Keep.lean ====
section
/-! SUPPORT. The canonical form of both memories, kept: how the proof goes through record updates, folds and bodies that
may stop. -/
namespace Sys2Proof.Machine

theorem memOk_rec {s : State} {t a c st fc se ro co ab spo ep ke hp hu le ste br bs pa la fe di sta ac ct pk np mo pr so si ak el} :
    MemOk (State.mk t a c st fc se ro co s.spad ab spo s.hbm ep ke hp hu le ste br bs pa la fe di sta ac ct pk np mo pr so si ak el) ↔
      MemOk s := Iff.rfl

/-- A property that every step of a fold keeps. -/
theorem foldl_keep {α β : Type} {P : β → Prop} {f : β → α → β} {xs : List α} {b : β} (h : P b)
    (k : ∀ b a, P b → P (f b a)) : P (xs.foldl f b) := by
  induction xs generalizing b with
  | nil => exact h
  | cons a r ih => exact ih (k b a h)

theorem memOk_foldl {α : Type} {f : State → α → State} {xs : List α} {s : State} (h : MemOk s)
    (k : ∀ s a, MemOk s → MemOk (f s a)) : MemOk (xs.foldl f s) := foldl_keep (P := MemOk) h k

theorem memOk_foldr {α : Type} {f : α → State → State} {xs : List α} {s : State} (h : MemOk s)
    (k : ∀ s a, MemOk s → MemOk (f a s)) : MemOk (xs.foldr f s) := by
  induction xs with
  | nil => exact h
  | cons a r ih => exact k _ a ih

theorem memOk_foldl_fst {α β : Type} {f : State × β → α → State × β} {xs : List α} {s : State × β} (h : MemOk s.1)
    (k : ∀ s a, MemOk s.1 → MemOk (f s a).1) : MemOk (xs.foldl f s).1 :=
  foldl_keep (P := fun (s : State × β) => MemOk s.1) h k

theorem memOk_foldl_snd {α β : Type} {f : β × State → α → β × State} {xs : List α} {s : β × State} (h : MemOk s.2)
    (k : ∀ s a, MemOk s.2 → MemOk (f s a).2) : MemOk (xs.foldl f s).2 :=
  foldl_keep (P := fun (s : β × State) => MemOk s.2) h k

theorem memOk_getD {o : Option State} {s : State} (h : MemOk s) (k : ∀ z, o = some z → MemOk z) : MemOk (o.getD s) := by
  cases o with
  | none => exact h
  | some z => exact k z rfl

theorem ends_ok {α : Type} {P : State → Prop} {Q : α → Prop} {a : α} (h : Q a) :
    Ends P Q (.ok a : Except Stop α) := ⟨fun b hb => by cases hb; exact h, nofun⟩
theorem ends_err {α : Type} {P : State → Prop} {Q : α → Prop} {e : Stop} (h : e.Holds P) :
    Ends P Q (.error e : Except Stop α) := ⟨nofun, fun b hb => by cases hb; exact h⟩
theorem ends_pure {α : Type} {P : State → Prop} {Q : α → Prop} {a : α} (h : Q a) :
    Ends P Q (pure a : Except Stop α) := ends_ok h

/-- A body that goes on with what a first part answers. -/
theorem ends_bind {α β : Type} {P : State → Prop} {R : α → Prop} {Q : β → Prop} {x : Except Stop α} {f : α → Except Stop β}
    (h : Ends P R x) (k : ∀ a, R a → Ends P Q (f a)) : Ends P Q (x >>= f) := by
  cases x with
  | error e => exact ends_err (h.2 e rfl)
  | ok a => exact k a (h.1 a rfl)

theorem ends_mono {α : Type} {P : State → Prop} {Q R : α → Prop} {x : Except Stop α} (h : Ends P Q x)
    (k : ∀ a, Q a → R a) : Ends P R x := ⟨fun a ha => k a (h.1 a ha), h.2⟩

theorem ends_true {α : Type} {P : State → Prop} {Q : α → Prop} {x : Except Stop α} (h : Ends P Q x) :
    Ends P (fun _ => True) x := ends_mono h fun _ _ => trivial

theorem ends_bind_unit {β : Type} {Q : β → Prop} {x : Except Stop Unit} {f : Unit → Except Stop β}
    (h : Ends MemOk (fun _ => True) x) (k : ∀ a, Ends MemOk Q (f a)) : Ends MemOk Q (x >>= f) :=
  ends_bind h fun a _ => k a
theorem ends_bind_any {α β : Type} {Q : β → Prop} {x : Except Stop α} {f : α → Except Stop β}
    (h : Ends MemOk (fun _ => True) x) (k : ∀ a, Ends MemOk Q (f a)) : Ends MemOk Q (x >>= f) :=
  ends_bind h fun a _ => k a
theorem ends_bind_state {β : Type} {Q : β → Prop} {x : Except Stop State} {f : State → Except Stop β}
    (h : Ends MemOk MemOk x) (k : ∀ a, MemOk a → Ends MemOk Q (f a)) : Ends MemOk Q (x >>= f) := ends_bind h k
theorem ends_bind_snd {α β : Type} {Q : β → Prop} {x : Except Stop (α × State)} {f : α × State → Except Stop β}
    (h : Ends MemOk (fun r => MemOk r.2) x) (k : ∀ a t, MemOk t → Ends MemOk Q (f (a, t))) : Ends MemOk Q (x >>= f) :=
  ends_bind h fun a => k a.1 a.2

theorem ends_forM {α : Type} {xs : List α} {f : α → Except Stop Unit} (h : ∀ a, Ends MemOk (fun _ => True) (f a)) :
    Ends MemOk (fun _ => True) (xs.forM f) := by
  induction xs with
  | nil => exact ends_ok trivial
  | cons a r ih => exact ends_bind_unit (h a) fun _ => ih

theorem goes_next {P : State → Prop} {s : State} (h : P s) : Goes P (.next s) := fun t ht => by cases ht; exact h
theorem goes_fault {P : State → Prop} {f : Fault} : Goes P (.fault f) := fun _ h => by cases h
theorem goes_refused {P : State → Prop} {r : Refusal} : Goes P (.refused r) := fun _ h => by cases h
theorem holds_trap {P : State → Prop} {t : Trap} : (Stop.trap t).Holds P := trivial
theorem holds_freeze {P : State → Prop} {v : Vio} : (Stop.freeze v).Holds P := trivial
theorem holds_stall {P : State → Prop} : (Stop.stall).Holds P := trivial
theorem holds_park {P : State → Prop} {p : Park} {c : Bool} : (Stop.park p c).Holds P := trivial
theorem holds_after {P : State → Prop} {s : State} {e : Stop} (h : P s) (k : e.Holds P) : (Stop.after s e).Holds P := ⟨h, k⟩

end Sys2Proof.Machine
end

