-- ==== Sys2Proof/Laws/MemOk.lean ====
section
/-! SUPPORT. Every operation and every meaning keeps the canonical form of both memories: one lemma each, in the order of
the files they are defined in. A function to a state keeps it, a body that may stop ends with it, an outcome goes on with
it. -/
namespace Sys2Proof.Machine

theorem memOk_setSeat (s : State) (sid : Nat) (t : Seat) (hM : MemOk s) :
    MemOk (State.setSeat s sid t) := by
  unfold State.setSeat
  repeat' with_reducible
    first
      | assumption | rw [memOk_rec]

theorem memOk_setRow (s : State) (k : Nat) (r : RowUnit) (hM : MemOk s) :
    MemOk (State.setRow s k r) := by
  unfold State.setRow
  repeat' with_reducible
    first
      | assumption | rw [memOk_rec]

theorem memOk_setCore (s : State) (c : Nat) (u : CoreUnit) (hM : MemOk s) :
    MemOk (State.setCore s c u) := by
  unfold State.setCore
  repeat' with_reducible
    first
      | assumption | rw [memOk_rec]

theorem memOk_setPart (s : State) (p : Nat) (u : Part) (hM : MemOk s) :
    MemOk (State.setPart s p u) := by
  unfold State.setPart
  repeat' with_reducible
    first
      | assumption | rw [memOk_rec]

theorem memOk_useFree (s : State) (n : Nat) (hM : MemOk s) :
    MemOk (State.useFree s n) := by
  unfold State.useFree
  repeat' with_reducible
    first
      | assumption | rw [memOk_rec]

theorem memOk_trapC {α : Type} (code : Nat) {Q : α → Prop} : Ends MemOk Q (trapC code : Except Stop α) := ends_err
    trivial

theorem memOk_freezeC {α : Type} (code : Nat) {a l : Word} {Q : α → Prop} : Ends MemOk Q (freezeC code a l : Except
    Stop α) := ends_err trivial

theorem memOk_trapIf (c : Bool) (t : Trap)  :
    Ends MemOk (fun _ => True) (trapIf c t) := by
  unfold trapIf
  repeat' with_reducible
    first
      | exact trivial | apply ends_ok | apply ends_err | apply holds_trap | split

theorem memOk_addVio (s : State) (p : Nat) (r : VioRec) (hM : MemOk s) :
    MemOk (State.addVio s p r) := by
  unfold State.addVio
  repeat' with_reducible
    first
      | assumption | apply memOk_setPart | split | rw [memOk_rec]

theorem memOk_freezeSeat (s : State) (sid : Nat) (v : Vio) (hM : MemOk s) :
    MemOk (State.freezeSeat s sid v) := by
  unfold State.freezeSeat
  repeat' with_reducible
    first
      | assumption | apply memOk_setSeat | apply memOk_addVio

theorem memOk_raise (s : State) (sid : Nat) (r : Trap) (hM : MemOk s) :
    MemOk (State.raise s sid r) := by
  unfold State.raise
  repeat' with_reducible
    first
      | assumption | apply memOk_setSeat | apply memOk_addVio | split | rw [memOk_rec]

theorem memOk_stop (s : State) (sid : Nat) (e : Stop) (h : MemOk s) (k : e.Holds MemOk) : MemOk (s.stop sid e) := by
  induction e generalizing s with
  | trap r => exact memOk_raise s sid r h
  | freeze v => exact memOk_freezeSeat s sid v h
  | stall => exact h
  | park p c => exact memOk_setSeat s sid _ h
  | after t e ih => exact ih t k.1 k.2

theorem memOk_close (s : State) (sid : Nat) (x : Except Stop State) (h : MemOk s) (k : Ends MemOk MemOk x) :
    Goes MemOk (s.close sid x) := by
  cases x with
  | ok t => exact goes_next (k.1 t rfl)
  | error e => exact goes_next (memOk_stop s sid e h (k.2 e rfl))

theorem memOk_run (s : State) (body : Nat → Seat → Except Stop State) (h : MemOk s)
    (k : ∀ n t, Ends MemOk MemOk (body n t)) : Goes MemOk (s.run body) := by
  unfold State.run
  dsimp only
  split
  · exact memOk_close s _ _ h (k _ _)
  · exact goes_fault

theorem memOk_vioFreezeWith (vs : List (Nat × Nat × Int)) (more : Word)  :
    Ends MemOk (fun _ => True) (vioFreezeWith vs more) := by
  unfold vioFreezeWith
  repeat' with_reducible
    first
      | exact trivial | apply ends_ok | apply ends_err | apply holds_freeze | split

theorem memOk_vioFreeze (vs : List (Nat × Nat × Int))  :
    Ends MemOk (fun _ => True) (vioFreeze vs) := by
  unfold vioFreeze
  repeat' with_reducible apply memOk_vioFreezeWith

theorem memOk_laneTrap (code : Nat) (write : Bool) (bad : List LaneAddr)  :
    Ends MemOk (fun _ => True) (laneTrap code write bad) := by
  unfold laneTrap
  repeat' with_reducible
    first
      | exact trivial | apply ends_ok | apply ends_err | apply holds_trap | split

theorem memOk_spadFenced (s : State) (as : List LaneAddr) (keys : List (Nat × Nat)) (write : Bool) (_ : MemOk s) :
    Ends MemOk (fun _ => True) (State.spadFenced s as keys write) := by
  unfold State.spadFenced
  repeat' with_reducible
    first
      | exact trivial | apply ends_ok | apply ends_err | apply holds_trap | split | dsimp only

theorem memOk_spadReach (s : State) (sid : Nat) (t : Seat) (as : List LaneAddr) (n : Nat) (align : Nat) (write : Bool)
    (cls : Bool) (hM : MemOk s) :
    Ends MemOk (fun _ => True) (State.spadReach s sid t as n align write cls) := by
  unfold State.spadReach
  repeat' with_reducible
    first
      | assumption | exact trivial | apply ends_bind_unit | apply ends_pure | apply ends_err
      | apply holds_park | apply memOk_vioFreeze | apply memOk_laneTrap | apply memOk_spadFenced | (intro _) | split
      | dsimp only

theorem memOk_spadPois (s : State) (as : List LaneAddr) (keys : List (Nat × Nat)) (n : Nat) :
    Ends MemOk (fun _ => True) (State.spadPois s as keys n) := memOk_laneTrap _ _ _

theorem memOk_fenceWait (done : Bool)  :
    Ends MemOk (fun _ => True) (fenceWait done) := by
  unfold fenceWait
  repeat' with_reducible
    first
      | exact trivial | apply ends_ok | apply ends_err | apply holds_stall | split

theorem memOk_spadCheck (s : State) (sid : Nat) (t : Seat) (as : List LaneAddr) (n : Nat) (align : Nat) (write : Bool)
    (poison : Bool) (cls : Bool) (hM : MemOk s) :
    Ends MemOk (fun _ => True) (State.spadCheck s sid t as n align write poison cls) := by
  unfold State.spadCheck
  repeat' with_reducible
    first
      | assumption | exact trivial | apply ends_bind_any | apply ends_pure | apply ends_err | apply holds_stall
      | apply memOk_spadReach | apply memOk_spadPois | (intro _) | split

theorem memOk_spadStore (s : State) (ws : List (Nat × Nat × Nat)) (h : MemOk s) : MemOk (s.spadStore ws) :=
  ⟨Memory.wf_writes _ h.1, h.2⟩

theorem memOk_setAbsent (s : State) (line : Nat) (b : Bool) (hM : MemOk s) :
    MemOk (State.setAbsent s line b) := by
  unfold State.setAbsent
  repeat' with_reducible
    first
      | assumption | rw [memOk_rec]

theorem memOk_setPois (s : State) (line : Nat) (b : Bool) (hM : MemOk s) :
    MemOk (State.setPois s line b) := by
  unfold State.setPois
  repeat' with_reducible
    first
      | assumption | rw [memOk_rec]

theorem memOk_staleCheck (t : Seat) (uni : Bool) (srcs : List Src)  :
    Ends MemOk (fun _ => True) (staleCheck t uni srcs) := by
  unfold staleCheck
  repeat' with_reducible
    first
      | exact trivial | apply ends_ok | apply ends_err | apply holds_trap | split

theorem memOk_deadCheck (t : Seat) (uni : Bool) (srcs : List (Src × Word))  :
    Ends MemOk (fun _ => True) (deadCheck t uni srcs) := by
  unfold deadCheck
  repeat' with_reducible
    first
      | exact trivial | apply ends_ok | apply ends_err | apply holds_trap | split

theorem memOk_poisCheck (t : Seat) (uni : Bool) (srcs : List (Src × Word))  :
    Ends MemOk (fun _ => True) (poisCheck t uni srcs) := by
  unfold poisCheck
  repeat' with_reducible
    first
      | exact trivial | apply ends_ok | apply ends_err | apply holds_trap | split

theorem memOk_maskPois (t : Seat) (ms : List Nat)  :
    Ends MemOk (fun _ => True) (maskPois t ms) := by
  unfold maskPois
  repeat' with_reducible
    first
      | exact trivial | apply ends_ok | apply ends_err | apply holds_trap | split

theorem memOk_Seat_check (t : Seat) (sid : Nat) (uni illegal badType port : Bool) (srcs : List (Src × Word))
    (also : List (Bool × Src × Word)) (mid : Except Stop Unit) (masks : List Nat) (kv : Ends MemOk (fun _ => True) mid) :
    Ends MemOk (fun _ => True) (t.check sid uni illegal badType port srcs also mid masks) := by
  unfold Seat.check
  exact ends_bind_unit (memOk_trapIf _ _) fun _ => ends_bind_unit (memOk_trapIf _ _) fun _ =>
    ends_bind_unit (memOk_staleCheck _ _ _) fun _ => ends_bind_unit (memOk_deadCheck _ _ _) fun _ =>
    ends_bind_unit (ends_forM fun _ => memOk_deadCheck _ _ _) fun _ => ends_bind_unit (memOk_trapIf _ _) fun _ =>
    ends_bind_unit kv fun _ => ends_bind_unit (memOk_poisCheck _ _ _) fun _ =>
    ends_bind_unit (ends_forM fun _ => memOk_poisCheck _ _ _) fun _ => memOk_maskPois _ _

theorem memOk_touch (s : State) (sid : Nat) (x : Bool) (n : Nat) (hM : MemOk s) :
    MemOk (State.touch s sid x n) := by
  unfold State.touch
  repeat' with_reducible
    first
      | assumption | apply memOk_setSeat | apply memOk_setRow | apply memOk_useFree | split | rw [memOk_rec]

theorem memOk_writeX (s : State) (sid : Nat) (n : Nat) (mask : Word) (v : Nat → Word) (hM : MemOk s) :
    MemOk (State.writeX s sid n mask v) := by
  unfold State.writeX
  repeat' with_reducible
    first
      | assumption | apply memOk_setSeat | apply memOk_touch

theorem memOk_writeS (s : State) (sid : Nat) (n : Nat) (v : Word) (hM : MemOk s) :
    MemOk (State.writeS s sid n v) := by
  unfold State.writeS
  repeat' with_reducible
    first
      | assumption | apply memOk_setSeat | apply memOk_touch

theorem memOk_north (s : State) (sid : Nat) (t : Seat) (_ : MemOk s) :
    Ends MemOk (fun _ => True) (State.north s sid t) := by
  unfold State.north
  repeat' with_reducible
    first
      | exact trivial | apply ends_ok | apply ends_err | apply holds_trap | split | dsimp only

theorem memOk_popNorth (s : State) (sid : Nat) (t : Seat) (hM : MemOk s) :
    MemOk (State.popNorth s sid t) := by
  unfold State.popNorth
  repeat' with_reducible
    first
      | assumption | apply memOk_setRow | split | rw [memOk_rec]

theorem memOk_readNorth (s : State) (sid : Nat) (t : Seat) (pop : Bool) (hM : MemOk s) :
    Ends MemOk (fun r => MemOk r.2) (State.readNorth s sid t pop) := by
  unfold State.readNorth
  repeat' with_reducible
    first
      | assumption | apply ends_bind_any | apply ends_pure | apply ends_err | apply holds_stall | apply memOk_north
      | apply memOk_popNorth | (intro _) | split

theorem memOk_sinkKeys (s : State) (sid : Nat) (t : Seat) (act : Word) (_ : MemOk s) :
    Ends MemOk (fun _ => True) (State.sinkKeys s sid t act) := by
  unfold State.sinkKeys
  repeat' with_reducible
    first
      | exact trivial | apply ends_bind_unit | apply ends_pure | apply memOk_vioFreeze | (intro _) | split

theorem memOk_sinkStore (s : State) (k : Nat) (hM : MemOk s) : ∀ z, s.sinkStore k = some z → MemOk z := by
  intro z
  unfold State.sinkStore
  dsimp only
  split
  · exact nofun
  split
  · split
    · split
      · exact nofun
      · intro h
        cases h
        exact memOk_setRow _ _ _ (memOk_foldl (memOk_spadStore _ _ hM) fun u l h => memOk_setPois _ _ _ h)
    · intro h
      cases h
      exact memOk_setRow _ _ _ hM
  · exact nofun

theorem memOk_sunk (s : State) (k : Nat) (hM : MemOk s) : MemOk ((s.sinkStore k).getD s) :=
  memOk_getD hM (memOk_sinkStore s k hM)

theorem memOk_south (s : State) (sid : Nat) (t : Seat) (_ : MemOk s) :
    Ends MemOk (fun _ => True) (State.south s sid t) := by
  unfold State.south
  repeat' with_reducible
    first
      | exact trivial | apply ends_ok | apply ends_err | apply holds_trap | apply holds_stall | split | dsimp only

theorem memOk_writeSouth (s : State) (sid : Nat) (t : Seat) (act : Word) (v : Nat → Word) (pois : Word) (hM : MemOk s)
    :
    Ends MemOk MemOk (s.writeSouth sid t act v pois) := by
  unfold State.writeSouth
  dsimp only
  split
  · refine ends_bind_any (memOk_sinkKeys s sid t act hM) fun keys => ends_bind_any (memOk_south s sid t hM) fun w => ?_
    cases w with
    | discard => exact ends_ok hM
    | push => exact ends_ok (memOk_setRow _ _ _ hM)
    | tail =>
      refine ends_pure ?_
      split
      · exact memOk_sunk _ _ (memOk_setRow _ _ _ (memOk_setSeat _ _ _ hM))
      · exact memOk_setRow _ _ _ (memOk_setSeat _ _ _ hM)
  · refine ends_bind_any (ends_ok (a := none) trivial) fun _ => ends_bind_any (memOk_south s sid t hM) fun w => ?_
    cases w with
    | discard => exact ends_ok hM
    | push => exact ends_ok (memOk_setRow _ _ _ hM)
    | tail =>
      refine ends_pure ?_
      split
      · exact memOk_sunk _ _ (memOk_setRow _ _ _ (memOk_setSeat _ _ _ hM))
      · exact memOk_setRow _ _ _ (memOk_setSeat _ _ _ hM)

theorem memOk_putLaneZ (s : State) (sid : Nat) (t : Seat) (d : Dst) (zero : Bool) (act : Word) (v : Nat → Word) (hM :
    MemOk s) :
    Ends MemOk MemOk (State.putLaneZ s sid t d zero act v) := by
  unfold State.putLaneZ
  repeat' with_reducible
    first
      | assumption | apply ends_bind_state | apply ends_pure | apply ends_ok | apply memOk_setSeat
      | apply memOk_writeX | apply memOk_writeSouth | (intro _) | split | dsimp only

theorem memOk_putLane (s : State) (sid : Nat) (t : Seat) (d : Dst) (act : Word) (v : Nat → Word) (hM : MemOk s) :
    Ends MemOk MemOk (State.putLane s sid t d act v) := by
  unfold State.putLane
  repeat' with_reducible
    first
      | assumption | apply memOk_putLaneZ

theorem memOk_putScalar (s : State) (sid : Nat) (d : Dst) (v : Word) (hM : MemOk s) :
    MemOk (State.putScalar s sid d v) := by
  unfold State.putScalar
  repeat' with_reducible
    first
      | assumption | apply memOk_setSeat | apply memOk_writeS | split

theorem memOk_next (s : State) (sid : Nat) (hM : MemOk s) :
    MemOk (State.next s sid) := by
  unfold State.next
  repeat' with_reducible
    first
      | assumption | apply memOk_setSeat

theorem memOk_readPorts (s : State) (sid : Nat) (t : Seat) (srcs : List Src) (hM : MemOk s) :
    Ends MemOk (fun r => MemOk r.2) (State.readPorts s sid t srcs) := by
  unfold State.readPorts
  repeat' with_reducible
    first
      | assumption | apply ends_ok | apply memOk_readNorth | split

theorem memOk_portPois (e : PortEntry) (mask : Word)  :
    Ends MemOk (fun _ => True) (portPois e mask) := by
  unfold portPois
  repeat' with_reducible apply memOk_trapIf

theorem memOk_laneCheck (_s : State) (sid : Nat) (t : Seat) (o : LaneOp) (_ : MemOk _s) :
    Ends MemOk (fun _ => True) (State.laneCheck _s sid t o) := by
  unfold State.laneCheck
  repeat' with_reducible
    first
      | exact trivial | apply ends_bind_unit | apply ends_ok | apply memOk_maskPois | apply memOk_Seat_check
      | (intro _)

theorem memOk_afterReads (s : State) (sid : Nat) (t : Seat) (srcs : List Src) (all : List (Src × Word)) (fl : BitVec
    6) (dn : Nat) (hM : MemOk s) :
    MemOk (State.afterReads s sid t srcs all fl dn) := by
  unfold State.afterReads
  repeat' with_reducible
    first
      | assumption | apply memOk_setSeat | apply memOk_useFree

theorem memOk_lane (s : State) (o : Seat → LaneOp) (f : Seat → LaneIn → (Nat → Word) × BitVec 6) (hM : MemOk s) :
    Goes MemOk (State.lane s o f) := by
  unfold State.lane
  repeat' with_reducible
    first
      | assumption | apply ends_bind_unit | apply ends_bind_state | apply ends_bind_snd | apply ends_pure
      | apply memOk_run | apply memOk_putLane | apply memOk_putScalar | apply memOk_next | apply memOk_readPorts
      | apply memOk_portPois | apply memOk_laneCheck | apply memOk_afterReads | (intro _) | split

theorem memOk_execAdd (d : Dst) (a : Src) (b : Src) (s : State) (hM : MemOk s) :
    Goes MemOk (execAdd d a b s) := by
  unfold execAdd
  repeat' with_reducible
    first
      | assumption | apply memOk_lane

theorem memOk_execSub (d : Dst) (a : Src) (b : Src) (s : State) (hM : MemOk s) :
    Goes MemOk (execSub d a b s) := by
  unfold execSub
  repeat' with_reducible
    first
      | assumption | apply memOk_lane

theorem memOk_execMul (d : Dst) (a : Src) (b : Src) (s : State) (hM : MemOk s) :
    Goes MemOk (execMul d a b s) := by
  unfold execMul
  repeat' with_reducible
    first
      | assumption | apply memOk_lane

theorem memOk_execMulh (d : Dst) (a : Src) (b : Src) (s : State) (hM : MemOk s) :
    Goes MemOk (execMulh d a b s) := by
  unfold execMulh
  repeat' with_reducible
    first
      | assumption | apply memOk_lane

theorem memOk_execMin (d : Dst) (a : Src) (b : Src) (s : State) (hM : MemOk s) :
    Goes MemOk (execMin d a b s) := by
  unfold execMin
  repeat' with_reducible
    first
      | assumption | apply memOk_lane

theorem memOk_execMax (d : Dst) (a : Src) (b : Src) (s : State) (hM : MemOk s) :
    Goes MemOk (execMax d a b s) := by
  unfold execMax
  repeat' with_reducible
    first
      | assumption | apply memOk_lane

theorem memOk_execAbs (d : Dst) (a : Src) (s : State) (hM : MemOk s) :
    Goes MemOk (execAbs d a s) := by
  unfold execAbs
  repeat' with_reducible
    first
      | assumption | apply memOk_lane

theorem memOk_execNeg (d : Dst) (a : Src) (s : State) (hM : MemOk s) :
    Goes MemOk (execNeg d a s) := by
  unfold execNeg
  repeat' with_reducible
    first
      | assumption | apply memOk_lane

theorem memOk_execAnd (d : Dst) (a : Src) (b : Src) (s : State) (hM : MemOk s) :
    Goes MemOk (execAnd d a b s) := by
  unfold execAnd
  repeat' with_reducible
    first
      | assumption | apply memOk_lane

theorem memOk_execOr (d : Dst) (a : Src) (b : Src) (s : State) (hM : MemOk s) :
    Goes MemOk (execOr d a b s) := by
  unfold execOr
  repeat' with_reducible
    first
      | assumption | apply memOk_lane

theorem memOk_execXor (d : Dst) (a : Src) (b : Src) (s : State) (hM : MemOk s) :
    Goes MemOk (execXor d a b s) := by
  unfold execXor
  repeat' with_reducible
    first
      | assumption | apply memOk_lane

theorem memOk_execAndn (d : Dst) (a : Src) (b : Src) (s : State) (hM : MemOk s) :
    Goes MemOk (execAndn d a b s) := by
  unfold execAndn
  repeat' with_reducible
    first
      | assumption | apply memOk_lane

theorem memOk_execShl (d : Dst) (a : Src) (b : Src) (s : State) (hM : MemOk s) :
    Goes MemOk (execShl d a b s) := by
  unfold execShl
  repeat' with_reducible
    first
      | assumption | apply memOk_lane

theorem memOk_execShr (d : Dst) (a : Src) (b : Src) (s : State) (hM : MemOk s) :
    Goes MemOk (execShr d a b s) := by
  unfold execShr
  repeat' with_reducible
    first
      | assumption | apply memOk_lane

theorem memOk_execSar (d : Dst) (a : Src) (b : Src) (s : State) (hM : MemOk s) :
    Goes MemOk (execSar d a b s) := by
  unfold execSar
  repeat' with_reducible
    first
      | assumption | apply memOk_lane

theorem memOk_execRot (d : Dst) (a : Src) (b : Src) (s : State) (hM : MemOk s) :
    Goes MemOk (execRot d a b s) := by
  unfold execRot
  repeat' with_reducible
    first
      | assumption | apply memOk_lane

theorem memOk_execAddi (d : Dst) (i : BitVec 18) (s : State) (hM : MemOk s) :
    Goes MemOk (execAddi d i s) := by
  unfold execAddi
  repeat' with_reducible
    first
      | assumption | apply memOk_lane

theorem memOk_execLi (d : Dst) (i : BitVec 18) (s : State) (hM : MemOk s) :
    Goes MemOk (execLi d i s) := by
  unfold execLi
  repeat' with_reducible
    first
      | assumption | apply memOk_lane

theorem memOk_execLsi (d : Dst) (i : BitVec 18) (s : State) (hM : MemOk s) :
    Goes MemOk (execLsi d i s) := by
  unfold execLsi
  repeat' with_reducible
    first
      | assumption | apply memOk_lane

theorem memOk_execLea (d : Dst) (a : Src) (b : Src) (k : BitVec 4) (s : State) (hM : MemOk s) :
    Goes MemOk (execLea d a b k s) := by
  unfold execLea
  repeat' with_reducible
    first
      | assumption | apply memOk_lane

theorem memOk_execClz (d : Dst) (a : Src) (s : State) (hM : MemOk s) :
    Goes MemOk (execClz d a s) := by
  unfold execClz
  repeat' with_reducible
    first
      | assumption | apply memOk_lane

theorem memOk_execPopc (d : Dst) (a : Src) (s : State) (hM : MemOk s) :
    Goes MemOk (execPopc d a s) := by
  unfold execPopc
  repeat' with_reducible
    first
      | assumption | apply memOk_lane

theorem memOk_execBrev (d : Dst) (a : Src) (s : State) (hM : MemOk s) :
    Goes MemOk (execBrev d a s) := by
  unfold execBrev
  repeat' with_reducible
    first
      | assumption | apply memOk_lane

theorem memOk_execBfx (d : Dst) (a : Src) (b : Src) (s : State) (hM : MemOk s) :
    Goes MemOk (execBfx d a b s) := by
  unfold execBfx
  repeat' with_reducible
    first
      | assumption | apply memOk_lane

theorem memOk_execBfi (d : Dst) (a : Src) (b : Src) (s : State) (hM : MemOk s) :
    Goes MemOk (execBfi d a b s) := by
  unfold execBfi
  repeat' with_reducible
    first
      | assumption | apply memOk_lane

theorem memOk_execDiv (d : Dst) (a : Src) (b : Src) (s : State) (hM : MemOk s) :
    Goes MemOk (execDiv d a b s) := by
  unfold execDiv
  repeat' with_reducible
    first
      | assumption | apply memOk_lane

theorem memOk_execRem (d : Dst) (a : Src) (b : Src) (s : State) (hM : MemOk s) :
    Goes MemOk (execRem d a b s) := by
  unfold execRem
  repeat' with_reducible
    first
      | assumption | apply memOk_lane

theorem memOk_execMad (d : Dst) (a : Src) (b : Src) (s : State) (hM : MemOk s) :
    Goes MemOk (execMad d a b s) := by
  unfold execMad
  repeat' with_reducible
    first
      | assumption | apply memOk_lane

theorem memOk_execSext (d : Dst) (a : Src) (b : Src) (s : State) (hM : MemOk s) :
    Goes MemOk (execSext d a b s) := by
  unfold execSext
  repeat' with_reducible
    first
      | assumption | apply memOk_lane

theorem memOk_execZext (d : Dst) (a : Src) (b : Src) (s : State) (hM : MemOk s) :
    Goes MemOk (execZext d a b s) := by
  unfold execZext
  repeat' with_reducible
    first
      | assumption | apply memOk_lane

theorem memOk_execFadd (d : Dst) (a : Src) (b : Src) (s : State) (hM : MemOk s) :
    Goes MemOk (execFadd d a b s) := by
  unfold execFadd
  repeat' with_reducible
    first
      | assumption | apply memOk_lane

theorem memOk_execFsub (d : Dst) (a : Src) (b : Src) (s : State) (hM : MemOk s) :
    Goes MemOk (execFsub d a b s) := by
  unfold execFsub
  repeat' with_reducible
    first
      | assumption | apply memOk_lane

theorem memOk_execFmul (d : Dst) (a : Src) (b : Src) (s : State) (hM : MemOk s) :
    Goes MemOk (execFmul d a b s) := by
  unfold execFmul
  repeat' with_reducible
    first
      | assumption | apply memOk_lane

theorem memOk_execFma (d : Dst) (a : Src) (b : Src) (s : State) (hM : MemOk s) :
    Goes MemOk (execFma d a b s) := by
  unfold execFma
  repeat' with_reducible
    first
      | assumption | apply memOk_lane

theorem memOk_execFnma (d : Dst) (a : Src) (b : Src) (s : State) (hM : MemOk s) :
    Goes MemOk (execFnma d a b s) := by
  unfold execFnma
  repeat' with_reducible
    first
      | assumption | apply memOk_lane

theorem memOk_execFmin (d : Dst) (a : Src) (b : Src) (s : State) (hM : MemOk s) :
    Goes MemOk (execFmin d a b s) := by
  unfold execFmin
  repeat' with_reducible
    first
      | assumption | apply memOk_lane

theorem memOk_execFmax (d : Dst) (a : Src) (b : Src) (s : State) (hM : MemOk s) :
    Goes MemOk (execFmax d a b s) := by
  unfold execFmax
  repeat' with_reducible
    first
      | assumption | apply memOk_lane

theorem memOk_execFneg (d : Dst) (a : Src) (s : State) (hM : MemOk s) :
    Goes MemOk (execFneg d a s) := by
  unfold execFneg
  repeat' with_reducible
    first
      | assumption | apply memOk_lane

theorem memOk_execFabs (d : Dst) (a : Src) (s : State) (hM : MemOk s) :
    Goes MemOk (execFabs d a s) := by
  unfold execFabs
  repeat' with_reducible
    first
      | assumption | apply memOk_lane

theorem memOk_execFdiv (d : Dst) (a : Src) (b : Src) (s : State) (hM : MemOk s) :
    Goes MemOk (execFdiv d a b s) := by
  unfold execFdiv
  repeat' with_reducible
    first
      | assumption | apply memOk_lane

theorem memOk_execFsqrt (d : Dst) (a : Src) (s : State) (hM : MemOk s) :
    Goes MemOk (execFsqrt d a s) := by
  unfold execFsqrt
  repeat' with_reducible
    first
      | assumption | apply memOk_lane

theorem memOk_execFclass (d : Dst) (a : Src) (s : State) (hM : MemOk s) :
    Goes MemOk (execFclass d a s) := by
  unfold execFclass
  repeat' with_reducible
    first
      | assumption | apply memOk_lane

theorem memOk_execCmp (d : Dst) (a : Src) (b : Src) (f : BitVec 4) (s : State) (hM : MemOk s) :
    Goes MemOk (execCmp d a b f s) := by
  unfold execCmp
  repeat' with_reducible
    first
      | assumption | apply memOk_lane

theorem memOk_execCmpm (d : BitVec 3) (a : Src) (b : Src) (f : BitVec 4) (s : State) (hM : MemOk s) :
    Goes MemOk (execCmpm d a b f s) := by
  unfold execCmpm
  repeat' with_reducible
    first
      | assumption | apply ends_bind_unit | apply ends_bind_snd | apply ends_pure | apply memOk_setSeat
      | apply memOk_run | apply memOk_next | apply memOk_readPorts | apply memOk_portPois | apply memOk_laneCheck
      | apply memOk_afterReads | (intro _)

theorem memOk_execSel (d : Dst) (a : Src) (b : Src) (m : BitVec 3) (s : State) (hM : MemOk s) :
    Goes MemOk (execSel d a b m s) := by
  unfold execSel
  repeat' with_reducible
    first
      | assumption | apply memOk_lane

theorem memOk_execClamp (d : Dst) (a : Src) (b : Src) (s : State) (hM : MemOk s) :
    Goes MemOk (execClamp d a b s) := by
  unfold execClamp
  repeat' with_reducible
    first
      | assumption | apply memOk_lane

theorem memOk_execFexp2 (d : Dst) (a : Src) (s : State) (hM : MemOk s) :
    Goes MemOk (execFexp2 d a s) := by
  unfold execFexp2
  repeat' with_reducible
    first
      | assumption | apply memOk_lane

theorem memOk_execFlog2 (d : Dst) (a : Src) (s : State) (hM : MemOk s) :
    Goes MemOk (execFlog2 d a s) := by
  unfold execFlog2
  repeat' with_reducible
    first
      | assumption | apply memOk_lane

theorem memOk_execFrsq (d : Dst) (a : Src) (s : State) (hM : MemOk s) :
    Goes MemOk (execFrsq d a s) := by
  unfold execFrsq
  repeat' with_reducible
    first
      | assumption | apply memOk_lane

theorem memOk_execFtanh (d : Dst) (a : Src) (s : State) (hM : MemOk s) :
    Goes MemOk (execFtanh d a s) := by
  unfold execFtanh
  repeat' with_reducible
    first
      | assumption | apply memOk_lane

theorem memOk_execFsigm (d : Dst) (a : Src) (s : State) (hM : MemOk s) :
    Goes MemOk (execFsigm d a s) := by
  unfold execFsigm
  repeat' with_reducible
    first
      | assumption | apply memOk_lane

theorem memOk_execCvt (d : Dst) (a : Src) (b : Src) (st : BitVec 4) (s : State) (hM : MemOk s) :
    Goes MemOk (execCvt d a b st s) := by
  unfold execCvt
  repeat' with_reducible
    first
      | assumption | apply memOk_lane

theorem memOk_execPack (d : Dst) (a : Src) (b : Src) (st : BitVec 4) (s : State) (hM : MemOk s) :
    Goes MemOk (execPack d a b st s) := by
  unfold execPack
  repeat' with_reducible
    first
      | assumption | apply memOk_lane

theorem memOk_execUnpk (d : Dst) (a : Src) (st : BitVec 4) (s : State) (hM : MemOk s) :
    Goes MemOk (execUnpk d a st s) := by
  unfold execUnpk
  repeat' with_reducible
    first
      | assumption | apply ends_bind_unit | apply ends_bind_state | apply ends_bind_snd | apply ends_pure
      | apply memOk_run | apply memOk_writeX | apply memOk_putLane | apply memOk_next | apply memOk_readPorts
      | apply memOk_portPois | apply memOk_laneCheck | apply memOk_afterReads | (intro _)

theorem memOk_execQcb (d : Dst) (a : Src) (b : Src) (n : BitVec 2) (s : State) (hM : MemOk s) :
    Goes MemOk (execQcb d a b n s) := by
  unfold execQcb
  repeat' with_reducible
    first
      | assumption | apply memOk_lane

theorem memOk_execDqcb (d : Dst) (a : Src) (b : Src) (n : BitVec 2) (s : State) (hM : MemOk s) :
    Goes MemOk (execDqcb d a b n s) := by
  unfold execDqcb
  repeat' with_reducible
    first
      | assumption | apply memOk_lane

theorem memOk_had (s : State) (inv : Bool) (d : Dst) (a : Src) (b : Src) (hM : MemOk s) :
    Goes MemOk (State.had s inv d a b) := by
  unfold State.had
  repeat' with_reducible
    first
      | assumption | apply ends_bind_unit | apply ends_bind_state | apply ends_bind_snd | apply ends_pure
      | apply memOk_useFree | apply memOk_run | apply memOk_putLane | apply memOk_next | apply memOk_readPorts
      | apply memOk_portPois | apply memOk_laneCheck | apply memOk_afterReads | (intro _)

theorem memOk_execHad (d : Dst) (a : Src) (b : Src) (s : State) (hM : MemOk s) :
    Goes MemOk (execHad d a b s) := by
  unfold execHad
  repeat' with_reducible
    first
      | assumption | apply memOk_had

theorem memOk_execHadinv (d : Dst) (a : Src) (b : Src) (s : State) (hM : MemOk s) :
    Goes MemOk (execHadinv d a b s) := by
  unfold execHadinv
  repeat' with_reducible
    first
      | assumption | apply memOk_had

theorem memOk_execRand (d : Dst) (a : Src) (b : Src) (s : State) (hM : MemOk s) :
    Goes MemOk (execRand d a b s) := by
  unfold execRand
  repeat' with_reducible
    first
      | assumption | apply memOk_lane

theorem memOk_cross (s : State) (o : Seat → LaneOp) (rd : Seat → LaneIn → Word) (f : Seat → LaneIn → (Nat → Word) ×
    BitVec 6)
    (fin : State → Nat → Seat → LaneIn → (Nat → Word) → Except Stop State) (hM : MemOk s)
    (k : ∀ s n t i v, MemOk s → Ends MemOk MemOk (fin s n t i v)) : Goes MemOk (s.cross o rd f fin) := by
  unfold State.cross
  refine memOk_run s _ hM fun sid t => ?_
  refine ends_bind_unit (memOk_laneCheck _ _ _ _ hM) fun _ => ends_bind_snd (memOk_readPorts _ _ _ _ hM) fun e u hu => ?_
  have h : ∀ (i : LaneIn) (m : Word), Ends MemOk MemOk (do
      portPois e m
      let s3 ← fin (u.afterReads sid t ((o t).srcs t) (({ o t with rd := some (rd t i) } : LaneOp).reads t) (f t i).2
        (o t).d.dr.toNat) sid t i (f t i).1
      return s3.next sid) := fun i m =>
    ends_bind_unit (memOk_portPois _ _) fun _ =>
      ends_bind_state (k _ _ _ _ _ (memOk_afterReads _ _ _ _ _ _ _ hu)) fun w hw => ends_ok (memOk_next _ _ hw)
  dsimp only
  split
  · exact ends_bind_unit (memOk_deadCheck _ _ _) fun _ => h _ _
  · exact h _ _

theorem memOk_crossPut (d : Dst) (s : State) (sid : Nat) (t : Seat) (_i : LaneIn) (v : Nat → Word) (hM : MemOk s) :
    Ends MemOk MemOk (crossPut d s sid t _i v) := by
  unfold crossPut
  repeat' with_reducible
    first
      | assumption | apply memOk_putLane

theorem memOk_execShfl (d : Dst) (a : Src) (b : Src) (f : BitVec 4) (s : State) (hM : MemOk s) :
    Goes MemOk (execShfl d a b f s) := by
  unfold execShfl
  repeat' with_reducible
    first
      | assumption | apply memOk_cross | apply memOk_crossPut

theorem memOk_execBfly (d : Dst) (a : Src) (f : BitVec 4) (s : State) (hM : MemOk s) :
    Goes MemOk (execBfly d a f s) := by
  unfold execBfly
  repeat' with_reducible
    first
      | assumption | apply memOk_cross | apply memOk_crossPut

theorem memOk_execBcast (d : Dst) (a : Src) (b : Src) (s : State) (hM : MemOk s) :
    Goes MemOk (execBcast d a b s) := by
  unfold execBcast
  repeat' with_reducible
    first
      | assumption | apply memOk_cross | apply memOk_crossPut

theorem memOk_execRedw (d : Dst) (a : Src) (f : BitVec 3) (s : State) (hM : MemOk s) :
    Goes MemOk (execRedw d a f s) := by
  unfold execRedw
  repeat' with_reducible
    first
      | assumption | apply memOk_cross | apply memOk_crossPut

theorem memOk_execScan (d : Dst) (a : Src) (f : BitVec 4) (s : State) (hM : MemOk s) :
    Goes MemOk (execScan d a f s) := by
  unfold execScan
  repeat' with_reducible
    first
      | assumption | apply memOk_cross | apply memOk_crossPut

theorem memOk_execCompact (d : Dst) (a : Src) (s : State) (hM : MemOk s) :
    Goes MemOk (execCompact d a s) := by
  unfold execCompact
  repeat' with_reducible
    first
      | assumption | apply memOk_putLaneZ | apply memOk_cross | (intro _)

theorem memOk_execXtos (d : Dst) (a : Src) (b : Src) (s : State) (hM : MemOk s) :
    Goes MemOk (execXtos d a b s) := by
  unfold execXtos
  repeat' with_reducible
    first
      | assumption | apply ends_ok | apply memOk_putScalar | apply memOk_cross | (intro _)

theorem memOk_execStox (d : Dst) (a : Src) (b : Src) (s : State) (hM : MemOk s) :
    Goes MemOk (execStox d a b s) := by
  unfold execStox
  repeat' with_reducible
    first
      | assumption | apply memOk_putLaneZ | apply memOk_cross | (intro _)

theorem memOk_execMov (d : Dst) (a : Src) (s : State) (hM : MemOk s) :
    Goes MemOk (execMov d a s) := by
  unfold execMov
  repeat' with_reducible
    first
      | assumption | apply memOk_lane

theorem memOk_execMovs (d : Dst) (a : Src) (b : Src) (s : State) (hM : MemOk s) :
    Goes MemOk (execMovs d a b s) := by
  unfold execMovs
  repeat' with_reducible
    first
      | assumption | apply memOk_lane

theorem memOk_setPacket (s : State) (n : Nat) (k : Option Packet) (hM : MemOk s) :
    MemOk (State.setPacket s n k) := by
  unfold State.setPacket
  repeat' with_reducible
    first
      | assumption | rw [memOk_rec]

theorem memOk_unbind (s : State) (k : Nat) (hM : MemOk s) :
    MemOk (State.unbind s k) := by
  unfold State.unbind
  repeat' with_reducible
    first
      | assumption | apply memOk_setRow | apply memOk_setPacket | split | rw [memOk_rec]

theorem memOk_setBin (s : State) (core : Nat) (b : Nat) (x : SpawnBin) (hM : MemOk s) :
    MemOk (State.setBin s core b x) := by
  unfold State.setBin
  repeat' with_reducible
    first
      | assumption | apply memOk_setCore

theorem memOk_flushEnded (s : State) (core : Nat) (hM : MemOk s) :
    MemOk (State.flushEnded s core) := by
  unfold State.flushEnded
  repeat' with_reducible
    first
      | assumption | apply memOk_setBin | apply memOk_foldl | (intro _) | split | rw [memOk_rec]

theorem memOk_readScalars (s : State) (sid : Nat) (t : Seat) (srcs : List Src) (hM : MemOk s) :
    MemOk (State.readScalars s sid t srcs) := by
  unfold State.readScalars
  repeat' with_reducible
    first
      | assumption | apply memOk_setSeat | apply memOk_useFree

theorem memOk_ctl (s : State) (illegal : Bool) (srcs : List Src) (masks : List Nat)
    (body : Nat → Seat → State → Except Stop State) (mid : Nat → Seat → Except Stop Unit) (guard : Bool) (hM : MemOk s)
    (k : ∀ n t u, MemOk u → Ends MemOk MemOk (body n t u)) (kv : ∀ n t, Ends MemOk (fun _ => True) (mid n t)) :
    Goes MemOk (s.ctl illegal srcs masks body mid guard) := by
  unfold State.ctl
  repeat' with_reducible
    first
      | assumption | apply ends_bind_unit | apply memOk_run | apply memOk_Seat_check | apply memOk_readScalars
      | (intro _) | apply k | apply kv

theorem memOk_ctlSeat (s : State) (illegal : Bool) (srcs : List Src) (masks : List Nat) (f : Seat → Except Stop Seat)
    (guard : Bool) (hM : MemOk s) (k : ∀ t, Ends MemOk (fun _ => True) (f t)) :
    Goes MemOk (s.ctlSeat illegal srcs masks f guard) := by
  unfold State.ctlSeat
  repeat' with_reducible
    first
      | assumption | exact trivial | apply ends_bind_any | apply ends_pure | apply ends_ok | apply memOk_setSeat
      | apply memOk_ctl | (intro _) | apply k

theorem memOk_execNop (s : State) (hM : MemOk s) :
    Goes MemOk (execNop s) := by
  unfold execNop
  repeat' with_reducible
    first
      | assumption | apply ends_ok | apply memOk_run | apply memOk_next | (intro _)

theorem memOk_prefixed (s : State) (sid : Nat) (t : Seat) (f : Seat → Seat) (hM : MemOk s) :
    MemOk (State.prefixed s sid t f) := by
  unfold State.prefixed
  repeat' with_reducible
    first
      | assumption | apply memOk_setSeat

theorem memOk_execMod (q : BitVec 1) (sc : BitVec 7) (e : BitVec 1) (et : BitVec 4) (r : BitVec 3) (z : BitVec 2) (k :
    BitVec 3) (s : State) (hM : MemOk s) :
    Goes MemOk (execMod q sc e et r z k s) := by
  unfold execMod
  repeat' with_reducible
    first
      | assumption | apply ends_ok | apply memOk_run | apply memOk_prefixed | (intro _)

theorem memOk_execXimm (i : BitVec 24) (s : State) (hM : MemOk s) :
    Goes MemOk (execXimm i s) := by
  unfold execXimm
  repeat' with_reducible
    first
      | assumption | apply ends_ok | apply memOk_run | apply memOk_prefixed | (intro _)

theorem memOk_execBra (o : BitVec 20) (s : State) (hM : MemOk s) :
    Goes MemOk (execBra o s) := by
  unfold execBra
  repeat' with_reducible
    first
      | assumption | exact trivial | apply ends_ok | apply memOk_ctlSeat | (intro _)

theorem memOk_execBz (c : BitVec 4) (o : BitVec 20) (s : State) (hM : MemOk s) :
    Goes MemOk (execBz c o s) := by
  unfold execBz
  repeat' with_reducible
    first
      | assumption | exact trivial | apply ends_ok | apply memOk_setSeat | apply memOk_ctl | (intro _)

theorem memOk_execBnz (c : BitVec 4) (o : BitVec 20) (s : State) (hM : MemOk s) :
    Goes MemOk (execBnz c o s) := by
  unfold execBnz
  repeat' with_reducible
    first
      | assumption | exact trivial | apply ends_ok | apply memOk_setSeat | apply memOk_ctl | (intro _)

theorem memOk_execLoop (c : BitVec 4) (o : BitVec 20) (s : State) (hM : MemOk s) :
    Goes MemOk (execLoop c o s) := by
  unfold execLoop
  repeat' with_reducible
    first
      | assumption | exact trivial | apply ends_ok | apply memOk_setSeat | apply memOk_writeS | apply memOk_ctl
      | (intro _)

theorem memOk_ovf {α : Type} (aux : Nat) {Q : α → Prop} : Ends MemOk Q (ovf aux : Except Stop α) := ends_err trivial

theorem memOk_Seat_push (t : Seat) (e : MaskEntry)  :
    Ends MemOk (fun _ => True) (Seat.push t e) := by
  unfold Seat.push
  repeat' with_reducible
    first
      | exact trivial | apply ends_ok | apply memOk_ovf | split

theorem memOk_Seat_diverge (t : Seat) (cond : Word) (target : Word)  :
    Ends MemOk (fun _ => True) (Seat.diverge t cond target) := by
  unfold Seat.diverge
  repeat' with_reducible
    first
      | exact trivial | apply ends_bind_any | apply ends_pure | apply ends_ok | apply memOk_Seat_push | (intro _)
      | split | dsimp only

theorem memOk_execBrd (m : BitVec 3) (o : BitVec 20) (s : State) (hM : MemOk s) :
    Goes MemOk (execBrd m o s) := by
  unfold execBrd
  repeat' with_reducible
    first
      | assumption | apply memOk_ctlSeat | apply memOk_Seat_diverge | (intro _)

theorem memOk_execBrdn (m : BitVec 3) (o : BitVec 20) (s : State) (hM : MemOk s) :
    Goes MemOk (execBrdn m o s) := by
  unfold execBrdn
  repeat' with_reducible
    first
      | assumption | apply memOk_ctlSeat | apply memOk_Seat_diverge | (intro _)

theorem memOk_execJset (o : BitVec 20) (s : State) (hM : MemOk s) :
    Goes MemOk (execJset o s) := by
  unfold execJset
  repeat' with_reducible
    first
      | assumption | exact trivial | apply ends_bind_any | apply ends_pure | apply memOk_ctlSeat
      | apply memOk_Seat_push | (intro _)

theorem memOk_execJoin (s : State) (hM : MemOk s) :
    Goes MemOk (execJoin s) := by
  unfold execJoin
  repeat' with_reducible
    first
      | assumption | exact trivial | apply ends_ok | apply memOk_trapC | apply memOk_ctlSeat | (intro _) | split

theorem memOk_landing (a : Word)  :
    Ends MemOk (fun _ => True) (landing a) := by
  unfold landing
  repeat' with_reducible apply memOk_trapIf

theorem memOk_jmp (s : State) (a : Src) (hM : MemOk s) :
    Goes MemOk (State.jmp s a) := by
  unfold State.jmp
  repeat' with_reducible
    first
      | assumption | exact trivial | apply ends_bind_unit | apply ends_pure | apply ends_ok | apply memOk_setSeat
      | apply memOk_ctl | apply memOk_landing | (intro _)

theorem memOk_execJmp (a : Src) (s : State) (hM : MemOk s) :
    Goes MemOk (execJmp a s) := by
  unfold execJmp
  repeat' with_reducible
    first
      | assumption | apply memOk_jmp

theorem memOk_execRet (a : Src) (s : State) (hM : MemOk s) :
    Goes MemOk (execRet a s) := by
  unfold execRet
  repeat' with_reducible
    first
      | assumption | apply memOk_jmp

theorem memOk_link (s : State) (sid : Nat) (t : Seat) (target : Word) (hM : MemOk s) :
    MemOk (State.link s sid t target) := by
  unfold State.link
  repeat' with_reducible
    first
      | assumption | apply memOk_setSeat | apply memOk_writeS

theorem memOk_execCall (o : BitVec 20) (s : State) (hM : MemOk s) :
    Goes MemOk (execCall o s) := by
  unfold execCall
  repeat' with_reducible
    first
      | assumption | exact trivial | apply ends_ok | apply memOk_ctl | apply memOk_link | (intro _)

theorem memOk_execCallr (a : Src) (s : State) (hM : MemOk s) :
    Goes MemOk (execCallr a s) := by
  unfold execCallr
  repeat' with_reducible
    first
      | assumption | exact trivial | apply ends_bind_unit | apply ends_pure | apply ends_ok | apply memOk_ctl
      | apply memOk_landing | apply memOk_link | (intro _)

theorem memOk_execJmpv (a : Src) (s : State) (hM : MemOk s) :
    Goes MemOk (execJmpv a s) := by
  unfold execJmpv
  repeat' with_reducible
    first
      | assumption | exact trivial | apply ends_bind_unit | apply ends_pure | apply ends_ok | apply ends_err
      | apply holds_trap | apply memOk_setSeat | apply memOk_useFree | apply memOk_run | apply memOk_Seat_check
      | apply memOk_ovf | (intro _) | split | dsimp only

theorem memOk_rowExit (s : State) (sid : Nat) (hM : MemOk s) :
    MemOk (State.rowExit s sid) := by
  unfold State.rowExit
  repeat' with_reducible
    first
      | assumption | apply memOk_setSeat | apply memOk_setRow | apply memOk_unbind | apply memOk_flushEnded | split
      | rw [memOk_rec]

theorem memOk_execExit (s : State) (hM : MemOk s) :
    Goes MemOk (execExit s) := by
  unfold execExit
  repeat' with_reducible
    first
      | assumption | exact trivial | apply ends_ok | apply ends_err | apply holds_stall | apply memOk_setSeat
      | apply memOk_next | apply memOk_ctl | apply memOk_rowExit | (intro _) | split | dsimp only

theorem memOk_execBrk (k : BitVec 4) (s : State) (hM : MemOk s) :
    Goes MemOk (execBrk k s) := by
  unfold execBrk
  repeat' with_reducible
    first
      | assumption | exact trivial | apply ends_ok | apply ends_err | apply holds_trap | apply memOk_ctl | (intro _)

theorem memOk_execPushp (a : BitVec 3) (s : State) (hM : MemOk s) :
    Goes MemOk (execPushp a s) := by
  unfold execPushp
  repeat' with_reducible
    first
      | assumption | exact trivial | apply ends_bind_any | apply ends_pure | apply memOk_ctlSeat
      | apply memOk_Seat_push | (intro _)

theorem memOk_execPushpn (a : BitVec 3) (s : State) (hM : MemOk s) :
    Goes MemOk (execPushpn a s) := by
  unfold execPushpn
  repeat' with_reducible
    first
      | assumption | exact trivial | apply ends_bind_any | apply ends_pure | apply memOk_ctlSeat
      | apply memOk_Seat_push | (intro _)

theorem memOk_execPushm (a : BitVec 3) (s : State) (hM : MemOk s) :
    Goes MemOk (execPushm a s) := by
  unfold execPushm
  repeat' with_reducible
    first
      | assumption | exact trivial | apply ends_bind_any | apply ends_pure | apply memOk_ctlSeat
      | apply memOk_Seat_push | (intro _)

theorem memOk_execInvp (s : State) (hM : MemOk s) :
    Goes MemOk (execInvp s) := by
  unfold execInvp
  repeat' with_reducible
    first
      | assumption | exact trivial | apply ends_ok | apply memOk_trapC | apply memOk_ctlSeat | (intro _) | split

theorem memOk_execPopp (s : State) (hM : MemOk s) :
    Goes MemOk (execPopp s) := by
  unfold execPopp
  repeat' with_reducible
    first
      | assumption | exact trivial | apply ends_ok | apply memOk_trapC | apply memOk_ctlSeat | (intro _) | split

theorem memOk_execMset (d : BitVec 3) (k : BitVec 2) (s : State) (hM : MemOk s) :
    Goes MemOk (execMset d k s) := by
  unfold execMset
  repeat' with_reducible
    first
      | assumption | exact trivial | apply ends_ok | apply memOk_ctlSeat | (intro _)

theorem memOk_execMlog (d : BitVec 3) (a : BitVec 3) (b : BitVec 3) (f : BitVec 4) (s : State) (hM : MemOk s) :
    Goes MemOk (execMlog d a b f s) := by
  unfold execMlog
  repeat' with_reducible
    first
      | assumption | exact trivial | apply ends_ok | apply memOk_ctlSeat | (intro _)

theorem memOk_execStom (d : BitVec 3) (a : Src) (s : State) (hM : MemOk s) :
    Goes MemOk (execStom d a s) := by
  unfold execStom
  repeat' with_reducible
    first
      | assumption | exact trivial | apply ends_ok | apply memOk_setSeat | apply memOk_ctl | (intro _)

theorem memOk_maskScalar (s : State) (d : Dst) (a : BitVec 3) (f : Seat → Word → Word) (guard : Bool) (hM : MemOk s) :
    Goes MemOk (State.maskScalar s d a f guard) := by
  unfold State.maskScalar
  repeat' with_reducible
    first
      | assumption | exact trivial | apply ends_ok | apply memOk_putScalar | apply memOk_next | apply memOk_ctl
      | (intro _)

theorem memOk_execMcnt (d : Dst) (a : BitVec 3) (s : State) (hM : MemOk s) :
    Goes MemOk (execMcnt d a s) := by
  unfold execMcnt
  repeat' with_reducible
    first
      | assumption | apply memOk_maskScalar

theorem memOk_execMfst (d : Dst) (a : BitVec 3) (s : State) (hM : MemOk s) :
    Goes MemOk (execMfst d a s) := by
  unfold execMfst
  repeat' with_reducible
    first
      | assumption | apply memOk_maskScalar

theorem memOk_execMtos (d : Dst) (a : BitVec 3) (s : State) (hM : MemOk s) :
    Goes MemOk (execMtos d a s) := by
  unfold execMtos
  repeat' with_reducible
    first
      | assumption | apply memOk_maskScalar

theorem memOk_execMany (d : Dst) (a : BitVec 3) (s : State) (hM : MemOk s) :
    Goes MemOk (execMany d a s) := by
  unfold execMany
  repeat' with_reducible
    first
      | assumption | apply memOk_maskScalar

theorem memOk_execMall (d : Dst) (a : BitVec 3) (s : State) (hM : MemOk s) :
    Goes MemOk (execMall d a s) := by
  unfold execMall
  repeat' with_reducible
    first
      | assumption | apply memOk_maskScalar

theorem memOk_execYield (s : State) (hM : MemOk s) :
    Goes MemOk (execYield s) := by
  unfold execYield
  repeat' with_reducible
    first
      | assumption | exact trivial | apply ends_ok | apply memOk_setSeat | apply memOk_ctl | (intro _)

theorem memOk_execSleept (a : Src) (s : State) (hM : MemOk s) :
    Goes MemOk (execSleept a s) := by
  unfold execSleept
  repeat' with_reducible
    first
      | assumption | exact trivial | apply ends_ok | apply ends_err | apply holds_park | apply memOk_setSeat
      | apply memOk_ctl | (intro _) | split | dsimp only

theorem memOk_queueRoom (r : RowUnit)  :
    Ends MemOk (fun _ => True) (queueRoom r) := by
  unfold queueRoom
  repeat' with_reducible
    first
      | exact trivial | apply ends_ok | apply ends_err | apply holds_stall | split

theorem memOk_accPois (t : Seat) (mask : Word) (n : Nat) (count : Nat)  :
    Ends MemOk (fun _ => True) (accPois t mask n count) := by
  unfold accPois
  repeat' with_reducible
    first
      | exact trivial | apply ends_ok | apply ends_err | apply holds_trap | split

theorem memOk_cbPois (t : Seat)  :
    Ends MemOk (fun _ => True) (cbPois t) := by
  unfold cbPois
  repeat' with_reducible
    first
      | exact trivial | apply ends_ok | apply ends_err | apply holds_trap | split

theorem memOk_enqueue (s : State) (sid : Nat) (f : MatItem → MatItem) (hM : MemOk s) :
    MemOk (State.enqueue s sid f) := by
  unfold State.enqueue
  repeat' with_reducible
    first
      | assumption | apply memOk_setRow

theorem memOk_popNorths (s : State) (sid : Nat) (t : Seat) (n : Nat) (hM : MemOk s) :
    Ends MemOk (fun r => MemOk r.2) (s.popNorths sid t n) := by
  induction n generalizing s with
  | zero => exact ends_ok hM
  | succ n ih =>
    exact ends_bind_snd (memOk_readNorth s sid t true hM) fun e u hu => ends_bind_snd (ih u hu) fun es w hw => ends_ok hw

theorem memOk_groupPorts (s : State) (sid : Nat) (t : Seat) (a : Src) (g : Nat) (hM : MemOk s) :
    Ends MemOk (fun r => MemOk r.2) (State.groupPorts s sid t a g) := by
  unfold State.groupPorts
  repeat' with_reducible
    first
      | assumption | apply ends_bind_snd | apply ends_pure | apply ends_ok | apply memOk_readNorth
      | apply memOk_popNorths | (intro _) | split

theorem memOk_mdotIssue (s : State) (p : Bool) (z : Bool) (d : Nat) (a : Src) (b : Src) (k : BitVec 3) (hM : MemOk s)
    :
    Goes MemOk (State.mdotIssue s p z d a b k) := by
  unfold State.mdotIssue
  repeat' with_reducible
    first
      | assumption | exact trivial | apply ends_bind_unit | apply ends_bind_snd | apply ends_bind_any
      | apply ends_pure | apply ends_ok | apply memOk_setSeat | apply memOk_setRow | apply memOk_run
      | apply memOk_Seat_check | apply memOk_readNorth | apply memOk_sinkKeys | apply memOk_south | apply memOk_next
      | apply memOk_portPois | apply memOk_queueRoom | apply memOk_accPois | apply memOk_cbPois | apply memOk_enqueue
      | apply memOk_groupPorts | (intro _) | split

theorem memOk_execMdot (d : BitVec 5) (a : Src) (b : Src) (k : BitVec 3) (s : State) (hM : MemOk s) :
    Goes MemOk (execMdot d a b k s) := by
  unfold execMdot
  repeat' with_reducible
    first
      | assumption | apply memOk_mdotIssue

theorem memOk_execMdotp (a : Src) (b : Src) (z : BitVec 1) (k : BitVec 3) (s : State) (hM : MemOk s) :
    Goes MemOk (execMdotp a b z k s) := by
  unfold execMdotp
  repeat' with_reducible
    first
      | assumption | apply memOk_mdotIssue

theorem memOk_matWrite (s : State) (sid : Nat) (i : MatItem) (hM : MemOk s) :
    MemOk (State.matWrite s sid i) := by
  unfold State.matWrite
  repeat' with_reducible
    first
      | assumption | apply memOk_setSeat | apply memOk_useFree

theorem memOk_sinkDrain (s : State) (k n : Nat) (hM : MemOk s) : MemOk (s.sinkDrain k n) := by
  induction n generalizing s with
  | zero => exact hM
  | succ n ih =>
    unfold State.sinkDrain
    split
    · exact ih _ (memOk_sinkStore s k hM _ ‹_›)
    · exact hM

theorem memOk_fillSouth (s : State) (k : Nat) (t : Seat) (i : MatItem) (hM : MemOk s) :
    MemOk (State.fillSouth s k t i) := by
  unfold State.fillSouth
  extract_lets r e gone mine south s1
  have h : MemOk s1 := memOk_useFree _ _ (memOk_setRow _ _ _ hM)
  split
  · exact memOk_sinkDrain _ _ _ h
  · exact h

theorem memOk_matStep (s : State) (k : Nat) (hM : MemOk s) :
    MemOk (State.matStep s k) := by
  unfold State.matStep
  repeat' with_reducible
    first
      | assumption | apply memOk_setRow | apply memOk_matWrite | apply memOk_fillSouth | split | rw [memOk_rec]

theorem memOk_execMbatch (d : Dst) (s : State) (hM : MemOk s) :
    Goes MemOk (execMbatch d s) := by
  unfold execMbatch
  repeat' with_reducible
    first
      | assumption | exact trivial | apply ends_ok | apply memOk_setSeat | apply memOk_putScalar | apply memOk_next
      | apply memOk_ctl | (intro _)

theorem memOk_closeBatches (s : State) (sid : Nat) (n : BitVec 32) (hM : MemOk s) :
    MemOk (State.closeBatches s sid n) := by
  unfold State.closeBatches
  repeat' with_reducible
    first
      | assumption | apply memOk_setSeat | apply memOk_setRow

theorem memOk_execMwait (a : Src) (s : State) (hM : MemOk s) :
    Goes MemOk (execMwait a s) := by
  unfold execMwait
  repeat' with_reducible
    first
      | assumption | exact trivial | apply ends_ok | apply ends_err | apply holds_park | apply memOk_setSeat
      | apply memOk_ctl | apply memOk_closeBatches | (intro _) | split | dsimp only

theorem memOk_execAget (d : Dst) (a : BitVec 5) (s : State) (hM : MemOk s) :
    Goes MemOk (execAget d a s) := by
  unfold execAget
  repeat' with_reducible
    first
      | assumption | exact trivial | apply ends_bind_unit | apply ends_bind_state | apply ends_pure | apply ends_ok
      | apply memOk_useFree | apply memOk_run | apply memOk_Seat_check | apply memOk_putLane | apply memOk_next
      | apply memOk_accPois | (intro _)

theorem memOk_accIssue (s : State) (illegal : Bool) (a : Option Src) (pois : Seat → Except Stop Unit)
    (f : Seat → Lanes Word → MatItem → MatItem) (hM : MemOk s) (k : ∀ t, Ends MemOk (fun _ => True) (pois t)) :
    Goes MemOk (s.accIssue illegal a pois f) := by
  unfold State.accIssue
  repeat' with_reducible
    first
      | assumption | exact trivial | apply ends_bind_unit | apply ends_bind_snd | apply ends_pure | apply ends_ok
      | apply memOk_setSeat | apply memOk_useFree | apply memOk_run | apply memOk_Seat_check | apply memOk_next
      | apply memOk_readPorts | apply memOk_portPois | apply memOk_queueRoom | apply memOk_enqueue | (intro _)
      | apply k

theorem memOk_execAput (d : BitVec 5) (a : Src) (s : State) (hM : MemOk s) :
    Goes MemOk (execAput d a s) := by
  unfold execAput
  repeat' with_reducible
    first
      | assumption | exact trivial | apply ends_ok | apply memOk_accIssue | (intro _)

theorem memOk_execAzero (d : BitVec 5) (k : BitVec 4) (s : State) (hM : MemOk s) :
    Goes MemOk (execAzero d k s) := by
  unfold execAzero
  repeat' with_reducible
    first
      | assumption | exact trivial | apply ends_ok | apply memOk_accIssue | (intro _)

theorem memOk_execAscl (d : BitVec 5) (a : Src) (k : BitVec 4) (s : State) (hM : MemOk s) :
    Goes MemOk (execAscl d a k s) := by
  unfold execAscl
  repeat' with_reducible
    first
      | assumption | apply memOk_accPois | apply memOk_accIssue | (intro _)

theorem memOk_execLdcb (n : BitVec 2) (a : Src) (s : State) (hM : MemOk s) :
    Goes MemOk (execLdcb n a s) := by
  unfold execLdcb
  repeat' with_reducible
    first
      | assumption | exact trivial | apply ends_bind_any | apply ends_pure | apply ends_ok | apply memOk_setSeat
      | apply memOk_spadReach | apply memOk_spadPois | apply memOk_fenceWait | apply memOk_next | apply memOk_ctl
      | (intro _)

theorem memOk_execPpass (s : State) (hM : MemOk s) :
    Goes MemOk (execPpass s) := by
  unfold execPpass
  repeat' with_reducible
    first
      | assumption | exact trivial | apply ends_bind_unit | apply ends_bind_state | apply ends_bind_snd
      | apply ends_pure | apply ends_ok | apply memOk_run | apply memOk_Seat_check | apply memOk_readNorth
      | apply memOk_writeSouth | apply memOk_next | apply memOk_portPois | (intro _)

theorem memOk_execPdrop (s : State) (hM : MemOk s) :
    Goes MemOk (execPdrop s) := by
  unfold execPdrop
  repeat' with_reducible
    first
      | assumption | exact trivial | apply ends_bind_unit | apply ends_bind_snd | apply ends_pure | apply ends_ok
      | apply memOk_run | apply memOk_Seat_check | apply memOk_readNorth | apply memOk_next | (intro _)

theorem memOk_execPstat (d : Dst) (s : State) (hM : MemOk s) :
    Goes MemOk (execPstat d s) := by
  unfold execPstat
  repeat' with_reducible
    first
      | assumption | exact trivial | apply ends_bind_unit | apply ends_pure | apply ends_ok | apply memOk_run
      | apply memOk_Seat_check | apply memOk_putScalar | apply memOk_next | (intro _)

theorem memOk_tailPort (sid : Nat) (t : Seat)  :
    Ends MemOk (fun _ => True) (tailPort sid t) := by
  unfold tailPort
  repeat' with_reducible apply memOk_trapIf

theorem memOk_execTailcfg (a : Src) (b : Src) (s : State) (hM : MemOk s) :
    Goes MemOk (execTailcfg a b s) := by
  unfold execTailcfg
  repeat' with_reducible
    first
      | assumption | apply ends_bind_unit | apply ends_pure | apply memOk_setSeat | apply memOk_trapIf
      | apply memOk_next | apply memOk_ctl | apply memOk_tailPort | (intro _)

theorem memOk_execMatrixStep (k : Fin 4096) (s : State) (hM : MemOk s) :
    Goes MemOk (execMatrixStep k s) := by
  unfold execMatrixStep
  repeat' with_reducible
    first
      | assumption | apply goes_next | apply memOk_matStep

theorem memOk_crossMove (s : State) (k : Nat) (hM : MemOk s) :
    MemOk (State.crossMove s k) := by
  unfold State.crossMove
  repeat' with_reducible
    first
      | assumption | apply memOk_setRow | split | rw [memOk_rec]

theorem memOk_execPortCrossingMove (k : Fin 4096) (s : State) (hM : MemOk s) :
    Goes MemOk (execPortCrossingMove k s) := by
  unfold execPortCrossingMove
  repeat' with_reducible
    first
      | assumption | apply goes_next | apply memOk_crossMove

theorem memOk_execTailSinkStore (k : Fin 4096) (s : State) (hM : MemOk s) : Goes MemOk (execTailSinkStore k s) := by
  exact goes_next (memOk_sunk _ _ hM)

theorem memOk_setStack (s : State) (k : Nat) (u : Stack) (hM : MemOk s) :
    MemOk (State.setStack s k u) := by
  unfold State.setStack
  repeat' with_reducible
    first
      | assumption | rw [memOk_rec]

theorem memOk_setDie (s : State) (d : Nat) (u : Die) (hM : MemOk s) :
    MemOk (State.setDie s d u) := by
  unfold State.setDie
  repeat' with_reducible
    first
      | assumption | rw [memOk_rec]

theorem memOk_hput (s : State) (pa : Nat) (b : Byte) (hM : MemOk s) : MemOk (s.hput pa b) :=
  ⟨hM.1, Memory.wf_put _ _ hM.2⟩

theorem memOk_hwrite (s : State) (pa n v : Nat) (hM : MemOk s) : MemOk (s.hwrite pa n v) := by
  induction n generalizing s pa v with
  | zero => exact hM
  | succ n ih => exact ih _ _ _ (memOk_hput _ _ _ hM)

theorem memOk_addEv (s : State) (p : Nat) (r : EvRec) (hM : MemOk s) :
    MemOk (State.addEv s p r) := by
  unfold State.addEv
  repeat' with_reducible
    first
      | assumption | apply memOk_setPart | split | rw [memOk_rec]

theorem memOk_addDieEv (s : State) (d : Nat) (r : EvRec) (hM : MemOk s) :
    MemOk (State.addDieEv s d r) := by
  unfold State.addDieEv
  repeat' with_reducible
    first
      | assumption | apply memOk_addEv | split

theorem memOk_report (s : State) (p : Nat) (r : Report) (hM : MemOk s) :
    MemOk (State.report s p r) := by
  unfold State.report
  repeat' with_reducible
    first
      | assumption | apply memOk_setPart

theorem memOk_setSecPois (s : State) (pa : Nat) (b : Bool) (hM : MemOk s) :
    MemOk (State.setSecPois s pa b) := by
  unfold State.setSecPois
  repeat' with_reducible
    first
      | assumption | rw [memOk_rec]

theorem memOk_meetUE (s : State) (pa : Nat) (hM : MemOk s) :
    MemOk (State.meetUE s pa) := by
  unfold State.meetUE
  repeat' with_reducible
    first
      | assumption | apply memOk_setStack | apply memOk_addDieEv | apply memOk_setSecPois | split | rw [memOk_rec]

theorem memOk_failTrap (s : State) (code : Nat) (write : Bool) (aux : Nat) (bad : List (Nat × Word)) (hM : MemOk s) :
    Ends MemOk (fun _ => True) (failTrap s code write aux bad) := by
  unfold failTrap
  repeat' with_reducible
    first
      | assumption | exact trivial | apply ends_ok | apply ends_err | apply holds_trap | apply holds_after | split

theorem memOk_under {α : Type} (s : State) (x : Except Stop α) {Q : α → Prop} (hM : MemOk s) (h : Ends MemOk Q x) :
    Ends MemOk Q (under s x) := by
  cases x with
  | ok a => exact h
  | error e => exact ends_err ⟨hM, h.2 e rfl⟩

theorem memOk_elide (s : State) (secs : List Nat) (hM : MemOk s) :
    MemOk (State.elide s secs) := by
  unfold State.elide
  repeat' with_reducible
    first
      | assumption | rw [memOk_rec]

theorem memOk_elideWalks (s : State) (p d : Nat) (vas : List Word) (hM : MemOk s) : MemOk (s.elideWalks p d vas) :=
  memOk_elide _ _ hM

theorem memOk_gcheck (s : State) (p : Nat) (d : Nat) (sid : Option Nat) (as : List (Nat × Word)) (mis : List (Nat ×
    Word)) (n : Nat) (write : Bool) (read : Bool) (op : Nat → Option PeerOp) (hM : MemOk s) :
    Ends MemOk (fun r => MemOk r.2) (State.gcheck s p d sid as mis n write read op) := by
  unfold State.gcheck
  have hw := memOk_elideWalks s p d (as.map (fun a => a.2)) hM
  generalize s.elideWalks p d (as.map (fun a => a.2)) = sw at hw
  extract_lets xs sw' asked own met
  clear_value xs
  have hAsked : ∀ r, Ends MemOk (fun r => MemOk r.2) (asked r) := fun r => by
    dsimp only [asked, sw']
    repeat' with_reducible
      first
        | assumption | exact trivial | apply ends_bind_unit | apply ends_pure | apply ends_ok | apply ends_err
        | apply holds_stall | apply holds_after | apply memOk_vioFreezeWith | apply memOk_meetUE | apply memOk_failTrap
        | apply memOk_under | (intro _) | split | rw [memOk_rec]
  clear_value asked
  have hOwn : ∀ r, Ends MemOk (fun r => MemOk r.2) (own r) := fun r => by
    dsimp only [own]
    refine ends_bind_unit (memOk_under _ _ hw (memOk_vioFreezeWith _ _)) fun _ => ?_
    split
    · exact ends_bind_unit (ends_err trivial) fun _ => hAsked _
    · exact hAsked _
  clear_value own
  have hMet : ∀ r, Ends MemOk (fun r => MemOk r.2) (met r) := fun r => by
    dsimp only [met]
    split
    · exact ends_bind_unit (ends_err trivial) fun _ => hOwn _
    · exact hOwn _
  clear_value met
  split
  · exact ends_bind_unit (ends_err ⟨memOk_meetUE _ _ hM, trivial⟩) fun _ => hMet _
  · exact ends_bind_unit (ends_ok trivial) fun _ => hMet _

theorem memOk_makeRoom (s : State) (core : Nat) (line : Nat) (hM : MemOk s) :
    MemOk (State.makeRoom s core line) := by
  unfold State.makeRoom
  repeat' with_reducible
    first
      | assumption | apply memOk_setCore | apply memOk_useFree | split | rw [memOk_rec]

theorem memOk_dropSector (s : State) (core : Nat) (pa : Nat) (hM : MemOk s) :
    MemOk (State.dropSector s core pa) := by
  unfold State.dropSector
  repeat' with_reducible
    first
      | assumption | apply memOk_setCore

theorem memOk_fillLine (s : State) (p : Nat) (core : Nat) (pa : Nat) (hM : MemOk s) :
    MemOk (State.fillLine s p core pa) := by
  unfold State.fillLine
  repeat' with_reducible
    first
      | assumption | apply memOk_setCore | apply memOk_makeRoom | rw [memOk_rec]

theorem memOk_gloads (s : State) (p core : Nat) (noCache : Bool) (n : Nat) (xs : List LaneLoc) (hM : MemOk s) :
    MemOk (s.gloads p core noCache n xs).2 :=
  memOk_elide _ _ (memOk_foldl (memOk_foldl hM fun _ _ h => memOk_dropSector _ _ _ h)
    fun _ _ h => memOk_fillLine _ _ _ _ h)

theorem memOk_put (s : State) (core : Option Nat) (pa : Nat) (n : Nat) (v : Nat) (hM : MemOk s) :
    MemOk (State.put s core pa n v) := by
  unfold State.put
  repeat' with_reducible
    first
      | assumption | apply memOk_setCore | apply memOk_hwrite | split

theorem memOk_puts (s : State) (core : Option Nat) (ws : List (Nat × Nat × Nat)) (hM : MemOk s) :
    MemOk (State.puts s core ws) := by
  unfold State.puts
  repeat' with_reducible
    first
      | assumption | apply memOk_setSecPois | apply memOk_elide | apply memOk_put | apply memOk_foldl | (intro _)
      | rw [memOk_rec]

theorem memOk_noteGwct (s : State) (sid : Nat) (g : Nat) (hM : MemOk s) :
    MemOk (State.noteGwct s sid g) := by
  unfold State.noteGwct
  exact memOk_setCore _ _ _ (memOk_setSeat _ _ _ hM)

theorem memOk_acquireGwct (s : State) (sid : Nat) (hM : MemOk s) : MemOk (s.acquireGwct sid) := memOk_setSeat _ _ _ hM

theorem memOk_gstores (s : State) (sid : Nat) (n : Nat) (ws : List (LaneLoc × Nat)) (hM : MemOk s) :
    MemOk (State.gstores s sid n ws) := by
  unfold State.gstores
  repeat' with_reducible
    first
      | assumption | apply memOk_puts | apply memOk_noteGwct | split | rw [memOk_rec]

theorem memOk_flushLines (s : State) (core : Nat) (hM : MemOk s) :
    MemOk (State.flushLines s core) := by
  unfold State.flushLines
  repeat' with_reducible
    first
      | assumption | apply memOk_setCore

theorem memOk_flushCode (s : State) (core : Nat) (hM : MemOk s) :
    MemOk (State.flushCode s core) := by
  unfold State.flushCode
  repeat' with_reducible
    first
      | assumption | apply memOk_setCore

theorem memOk_ackAt (s : State) (p : Nat) (va : Word) (r : PeerReply) (due : Nat) (hM : MemOk s) :
    MemOk (State.ackAt s p va r due) := by
  unfold State.ackAt
  repeat' with_reducible
    first
      | assumption | split | rw [memOk_rec]

theorem memOk_giveAcks (s : State) (hM : MemOk s) :
    MemOk (State.giveAcks s) := by
  unfold State.giveAcks
  repeat' with_reducible
    first
      | assumption | rw [memOk_rec]

theorem memOk_contribute (s : State) (pa v : Nat) (hM : MemOk s) : ∀ z, s.contribute pa v = some z → MemOk z := by
  intro z
  unfold State.contribute
  split
  · intro h; cases h; exact hM
  · split
    · intro h; cases h; exact hM
    · exact nofun

theorem memOk_perform (s : State) (older : List Contrib) (c : Contrib) (hM : MemOk s) :
    ∀ z, s.perform older c = some z → MemOk z := by
  intro z
  unfold State.perform
  split
  · exact nofun
  · intro h
    obtain ⟨u, hu, rfl⟩ := Option.map_eq_some_iff.mp h
    have k := memOk_contribute _ _ _ hM u hu
    dsimp only
    split
    · exact memOk_noteGwct _ _ _ k
    · exact memOk_ackAt _ _ _ _ _ k
    · exact k

theorem memOk_arrive (s : State) (c : Contrib) (hM : MemOk s) : MemOk (s.arrive c) :=
  memOk_getD (o := s.perform s.contribs c) (s := { s with contribs := s.contribs ++ [c] }) hM fun z h => memOk_perform _ _ _ hM z h

theorem memOk_execFaddxContribution (i : Nat) (s : State) (hM : MemOk s) : Goes MemOk (execFaddxContribution i s) :=
    by
  unfold execFaddxContribution
  split
  · exact goes_next hM
  · exact goes_next (memOk_getD hM fun z h => memOk_perform { s with contribs := s.contribs.eraseIdx i } _ _ hM z h)

theorem memOk_execFaddxWaitReport (i : Nat) (s : State) (hM : MemOk s) :
    Goes MemOk (execFaddxWaitReport i s) := by
  unfold execFaddxWaitReport
  repeat' with_reducible
    first
      | assumption | apply goes_next | apply memOk_report | extract_lets | split | rw [memOk_rec]

theorem memOk_mem (s : State) (o : Seat → LaneOp)
    (body : Nat → Seat → LaneIn → (State → Except Stop State) → Except Stop State) (hM : MemOk s)
    (k : ∀ n t i g, (∀ u, MemOk u → Ends MemOk MemOk (g u)) → Ends MemOk MemOk (body n t i g)) : Goes MemOk (s.mem o body) := by
  unfold State.mem
  repeat' with_reducible
    first
      | assumption | apply ends_bind_unit | apply ends_bind_snd | apply ends_pure | apply memOk_run
      | apply memOk_readPorts | apply memOk_portPois | apply memOk_laneCheck | apply memOk_afterReads | (intro _)
      | apply k

theorem memOk_putLoad (s : State) (sid : Nat) (t : Seat) (d : Dst) (v : Nat → Word) (hM : MemOk s) :
    Ends MemOk MemOk (State.putLoad s sid t d v) := by
  unfold State.putLoad
  repeat' with_reducible
    first
      | assumption | apply ends_bind_state | apply ends_pure | apply ends_ok | apply memOk_setSeat
      | apply memOk_writeX | apply memOk_writeS | apply memOk_writeSouth | (intro _) | extract_lets | split

theorem memOk_execLds (d : Dst) (a : Src) (b : Src) (f : BitVec 4) (s : State) (hM : MemOk s) :
    Goes MemOk (execLds d a b f s) := by
  unfold execLds
  repeat' with_reducible
    first
      | assumption | apply ends_bind_state | apply ends_bind_any | apply ends_pure | apply memOk_spadCheck
      | apply memOk_next | apply memOk_mem | apply memOk_putLoad | (intro _)
      | refine ‹∀ u, MemOk u → Ends MemOk MemOk ((_ : State → Except Stop State) u)› _ ?_

theorem memOk_execSts (d : BitVec 5) (a : Src) (b : Src) (f : BitVec 4) (s : State) (hM : MemOk s) :
    Goes MemOk (execSts d a b f s) := by
  unfold execSts
  repeat' with_reducible
    first
      | assumption | apply ends_bind_state | apply ends_bind_any | apply ends_pure | apply memOk_spadCheck
      | apply memOk_spadStore | apply memOk_next | apply memOk_mem | (intro _)
      | refine ‹∀ u, MemOk u → Ends MemOk MemOk ((_ : State → Except Stop State) u)› _ ?_

theorem memOk_execLdg (d : Dst) (a : Src) (b : Src) (f : BitVec 4) (s : State) (hM : MemOk s) :
    Goes MemOk (execLdg d a b f s) := by
  unfold execLdg
  repeat' with_reducible
    first
      | assumption | apply ends_bind_state | apply ends_bind_snd | apply ends_pure | apply memOk_next
      | apply memOk_gcheck | apply memOk_gloads | apply memOk_mem | apply memOk_putLoad | (intro _)
      | refine ‹∀ u, MemOk u → Ends MemOk MemOk ((_ : State → Except Stop State) u)› _ ?_

theorem memOk_execStg (d : BitVec 5) (a : Src) (b : Src) (f : BitVec 2) (s : State) (hM : MemOk s) :
    Goes MemOk (execStg d a b f s) := by
  unfold execStg
  repeat' with_reducible
    first
      | assumption | apply ends_bind_state | apply ends_bind_snd | apply ends_pure | apply memOk_next
      | apply memOk_gcheck | apply memOk_gstores | apply memOk_mem | (intro _)
      | refine ‹∀ u, MemOk u → Ends MemOk MemOk ((_ : State → Except Stop State) u)› _ ?_

theorem memOk_block (s : State) (a b : Src) (sp : Bool) (data : Option (BitVec 5))
    (body : Nat → Seat → Word → (State → State) → Except Stop State) (hM : MemOk s)
    (k : ∀ n t i g, (∀ u, MemOk u → MemOk (g u)) → Ends MemOk MemOk (body n t i g)) : Goes MemOk (s.block a b sp data body) := by
  unfold State.block
  repeat' with_reducible
    first
      | assumption | exact trivial | apply ends_bind_unit | apply ends_ok | apply memOk_run | apply memOk_Seat_check
      | apply memOk_readScalars | (intro _) | apply k

theorem memOk_blockMis (t : Seat) (addr : Word) (write : Bool)  :
    Ends MemOk (fun _ => True) (blockMis t addr write) := by
  unfold blockMis
  repeat' with_reducible apply memOk_trapIf

theorem memOk_blockCheck (s : State) (sid : Nat) (t : Seat) (as : List LaneAddr) (addr : Word) (write : Bool) (hM :
    MemOk s) :
    Ends MemOk (fun _ => True) (State.blockCheck s sid t as addr write) := by
  unfold State.blockCheck
  repeat' with_reducible
    first
      | assumption | apply ends_bind_unit | apply memOk_vioFreeze | apply memOk_spadCheck | apply memOk_blockMis
      | (intro _)

theorem memOk_execLdsb (d : Dst) (a : Src) (b : Src) (s : State) (hM : MemOk s) :
    Goes MemOk (execLdsb d a b s) := by
  unfold execLdsb
  repeat' with_reducible
    first
      | assumption | apply ends_bind_state | apply ends_bind_any | apply ends_pure | apply memOk_next
      | apply memOk_putLoad | apply memOk_block | apply memOk_blockCheck | (intro _)
      | refine ‹∀ u, MemOk u → MemOk ((_ : State → State) u)› _ ?_

theorem memOk_execStsb (d : BitVec 5) (a : Src) (b : Src) (s : State) (hM : MemOk s) :
    Goes MemOk (execStsb d a b s) := by
  unfold execStsb
  repeat' with_reducible
    first
      | assumption | apply ends_bind_any | apply ends_pure | apply memOk_useFree | apply memOk_spadStore
      | apply memOk_next | apply memOk_block | apply memOk_blockCheck | (intro _)
      | refine ‹∀ u, MemOk u → MemOk ((_ : State → State) u)› _ ?_

theorem memOk_execLdgb (d : Dst) (a : Src) (b : Src) (f : BitVec 1) (s : State) (hM : MemOk s) :
    Goes MemOk (execLdgb d a b f s) := by
  unfold execLdgb
  repeat' with_reducible
    first
      | assumption | apply ends_bind_unit | apply ends_bind_state | apply ends_bind_snd | apply ends_pure
      | apply memOk_next | apply memOk_gcheck | apply memOk_gloads | apply memOk_putLoad | apply memOk_block
      | apply memOk_blockMis | (intro _) | refine ‹∀ u, MemOk u → MemOk ((_ : State → State) u)› _ ?_ | extract_lets
      | split

theorem memOk_execStgb (d : BitVec 5) (a : Src) (b : Src) (s : State) (hM : MemOk s) :
    Goes MemOk (execStgb d a b s) := by
  unfold execStgb
  repeat' with_reducible
    first
      | assumption | apply ends_bind_unit | apply ends_bind_snd | apply ends_pure | apply memOk_useFree
      | apply memOk_next | apply memOk_gcheck | apply memOk_gstores | apply memOk_block | apply memOk_blockMis
      | (intro _) | refine ‹∀ u, MemOk u → MemOk ((_ : State → State) u)› _ ?_ | extract_lets | split

theorem memOk_execPres (d : Dst) (a : Src) (b : Src) (s : State) (hM : MemOk s) :
    Goes MemOk (execPres d a b s) := by
  unfold execPres
  repeat' with_reducible
    first
      | assumption | apply ends_bind_unit | apply ends_bind_state | apply ends_pure | apply memOk_vioFreeze
      | apply memOk_putLane | apply memOk_putScalar | apply memOk_next | apply memOk_mem | (intro _)
      | refine ‹∀ u, MemOk u → Ends MemOk MemOk ((_ : State → Except Stop State) u)› _ ?_ | extract_lets | split

theorem memOk_execAbsent (a : Src) (b : Src) (n : BitVec 4) (s : State) (hM : MemOk s) :
    Goes MemOk (execAbsent a b n s) := by
  unfold execAbsent
  repeat' with_reducible
    first
      | assumption | apply ends_bind_unit | apply ends_bind_state | apply ends_pure | apply memOk_vioFreeze
      | apply memOk_laneTrap | apply memOk_spadFenced | apply memOk_setAbsent | apply memOk_next | apply memOk_mem
      | apply memOk_fenceWait | apply memOk_foldl | (intro _)
      | refine ‹∀ u, MemOk u → Ends MemOk MemOk ((_ : State → Except Stop State) u)› _ ?_

theorem memOk_atomS (s : State) (cas : Bool) (illegal : Bool) (d : Dst) (a : Src) (b : Src) (f : Nat) (hM : MemOk s) :
    Goes MemOk (State.atomS s cas illegal d a b f) := by
  unfold State.atomS
  repeat' with_reducible
    first
      | assumption | apply ends_bind_state | apply ends_bind_any | apply ends_pure | apply memOk_spadCheck
      | apply memOk_spadStore | apply memOk_next | apply memOk_mem | apply memOk_putLoad | apply memOk_foldl_fst
      | (intro _) | refine ‹∀ u, MemOk u → Ends MemOk MemOk ((_ : State → Except Stop State) u)› _ ?_

theorem memOk_execAtoms (d : Dst) (a : Src) (b : Src) (f : BitVec 4) (s : State) (hM : MemOk s) :
    Goes MemOk (execAtoms d a b f s) := by
  unfold execAtoms
  repeat' with_reducible
    first
      | assumption | apply memOk_atomS

theorem memOk_execCass (d : Dst) (a : Src) (b : Src) (s : State) (hM : MemOk s) :
    Goes MemOk (execCass d a b s) := by
  unfold execCass
  repeat' with_reducible
    first
      | assumption | apply memOk_atomS

theorem memOk_atomLane (s : State) (sid : Nat) (n : Nat) (new : Nat → Nat) (x : Loc) (hM : MemOk s) :
    MemOk (State.atomLane s sid n new x).1 := by
  unfold State.atomLane
  repeat' with_reducible
    first
      | assumption | apply memOk_elide | apply memOk_puts | apply memOk_noteGwct | split

theorem memOk_atomG (s : State) (cas ret illegal : Bool) (d : Dst) (a b : Src) (f : Nat) (hM : MemOk s) :
    Goes MemOk (s.atomG cas ret illegal d a b f) := by
  unfold State.atomG
  refine memOk_mem s _ _ hM fun sid t i g hg => ?_
  refine ends_bind_snd (memOk_gcheck _ _ _ _ _ _ _ _ _ _ hM) fun ls u hu => ends_bind_state (hg u hu) fun w hw => ?_
  split
  · refine ends_pure (memOk_next _ _ (memOk_setSeat _ _ _ (memOk_foldl hw fun s l h => ?_)))
    split
    · exact memOk_arrive _ _ h
    · exact h
  · have h : MemOk (ls.foldl (fun (r : State × List (Nat × Nat)) (l : LaneLoc) =>
        ((r.1.atomLane sid (tyBits t.ety / 8)
            (fun old => update cas f t.ety old (i.elemB t.ety l.1) (i.cmpD t.ety l.1)) l.2.2).1,
          r.2 ++ [(l.1, (r.1.atomLane sid (tyBits t.ety / 8)
            (fun old => update cas f t.ety old (i.elemB t.ety l.1) (i.cmpD t.ety l.1)) l.2.2).2)])) (w, [])).1 :=
      memOk_foldl_fst hw fun r l h => memOk_atomLane _ _ _ _ _ h
    dsimp only
    split
    · exact ends_bind_state (memOk_putLoad _ _ _ _ _ h) fun v hv => ends_pure (memOk_next _ _ hv)
    · exact ends_pure (memOk_next _ _ (memOk_setSeat _ _ _ h))

theorem memOk_execAtomg (d : Dst) (a : Src) (b : Src) (f : BitVec 4) (s : State) (hM : MemOk s) :
    Goes MemOk (execAtomg d a b f s) := by
  unfold execAtomg
  repeat' with_reducible
    first
      | assumption | apply memOk_atomG

theorem memOk_execRedg (a : Src) (b : Src) (f : BitVec 4) (s : State) (hM : MemOk s) :
    Goes MemOk (execRedg a b f s) := by
  unfold execRedg
  repeat' with_reducible
    first
      | assumption | apply memOk_atomG

theorem memOk_execCasg (d : Dst) (a : Src) (b : Src) (s : State) (hM : MemOk s) :
    Goes MemOk (execCasg d a b s) := by
  unfold execCasg
  repeat' with_reducible
    first
      | assumption | apply memOk_atomG

theorem memOk_execPrefg (a : Src) (b : Src) (s : State) (hM : MemOk s) :
    Goes MemOk (execPrefg a b s) := by
  unfold execPrefg
  repeat' with_reducible
    first
      | assumption | apply ends_bind_state | apply ends_pure | apply memOk_next | apply memOk_elide
      | apply memOk_fillLine | apply memOk_mem | apply memOk_foldl | (intro _)
      | refine ‹∀ u, MemOk u → Ends MemOk MemOk ((_ : State → Except Stop State) u)› _ ?_ | extract_lets | split

theorem memOk_Stop_sector (e : Stop) (h : e.Holds MemOk) : e.sector.Holds MemOk := by
  induction e with
  | after s e ih => exact ⟨h.1, ih h.2⟩
  | _ => exact h

theorem memOk_execIsect (d a b : BitVec 5) (s : State) (hM : MemOk s) : Goes MemOk (execIsect d a b s) := by
  unfold execIsect
  refine memOk_run s _ hM fun sid t => ends_bind_unit (memOk_Seat_check _ _ _ _ _ _ _ _ _ _ (ends_ok trivial)) fun _ => ?_
  extract_lets val lane ls grans as mis m go
  have hgo : ∀ locs u, MemOk u → Ends MemOk MemOk (go (locs, u)) := fun locs u hu =>
    ends_pure (memOk_setSeat _ _ _ (memOk_writeX _ _ _ _ _ (memOk_writeX _ _ _ _ _ (memOk_writeX _ _ _ _ _
      (memOk_writeX _ _ _ _ _ (memOk_writeX _ _ _ _ _ (memOk_useFree _ _ (memOk_gloads u t.bind.part (sidCore sid) true 8 locs hu))))))))
  split
  · exact ends_pure (memOk_setSeat _ _ _ hM)
  · have h := memOk_gcheck s t.bind.part (sidCore sid / 8) (some sid) as mis 8 false true (loadOp 8) hM
    split
    · exact ends_bind_snd (ends_ok (h.1 _ ‹_›)) hgo
    · exact ends_bind_snd (ends_err (memOk_Stop_sector _ (h.2 _ ‹_›))) hgo

theorem memOk_acquire (s : State) (sid : Nat) (t : Seat) (scope : Nat) (hM : MemOk s) :
    MemOk (State.acquire s sid t scope) := by
  unfold State.acquire
  repeat' with_reducible
    first
      | assumption | apply memOk_acquireGwct | apply memOk_flushLines | split

theorem memOk_execFrel (f : BitVec 3) (s : State) (hM : MemOk s) :
    Goes MemOk (execFrel f s) := by
  unfold execFrel
  repeat' with_reducible
    first
      | assumption | exact trivial | apply ends_bind_unit | apply ends_pure | apply ends_ok | apply memOk_next
      | apply memOk_ctl | apply memOk_fenceWait | (intro _)

theorem memOk_execFacq (f : BitVec 3) (s : State) (hM : MemOk s) :
    Goes MemOk (execFacq f s) := by
  unfold execFacq
  repeat' with_reducible
    first
      | assumption | exact trivial | apply ends_ok | apply memOk_next | apply memOk_ctl | apply memOk_acquire
      | (intro _)

theorem memOk_execFfull (f : BitVec 3) (s : State) (hM : MemOk s) :
    Goes MemOk (execFfull f s) := by
  unfold execFfull
  repeat' with_reducible
    first
      | assumption | exact trivial | apply ends_bind_unit | apply ends_pure | apply ends_ok | apply memOk_next
      | apply memOk_ctl | apply memOk_fenceWait | apply memOk_acquire | (intro _)

theorem memOk_execIfence (s : State) (hM : MemOk s) :
    Goes MemOk (execIfence s) := by
  unfold execIfence
  repeat' with_reducible
    first
      | assumption | exact trivial | apply ends_ok | apply memOk_next | apply memOk_ctl | apply memOk_flushCode
      | (intro _)

theorem memOk_execTime (d : Dst) (s : State) (hM : MemOk s) :
    Goes MemOk (execTime d s) := by
  unfold execTime
  repeat' with_reducible
    first
      | assumption | exact trivial | apply ends_ok | apply memOk_putScalar | apply memOk_next | apply memOk_ctl
      | (intro _)

theorem memOk_execClkc (d : Dst) (s : State) (hM : MemOk s) :
    Goes MemOk (execClkc d s) := by
  unfold execClkc
  repeat' with_reducible
    first
      | assumption | exact trivial | apply ends_ok | apply memOk_putScalar | apply memOk_next | apply memOk_ctl
      | (intro _)

theorem memOk_setBar (s : State) (k : Nat) (b : Bar) (hM : MemOk s) :
    MemOk (State.setBar s k b) := by
  unfold State.setBar
  repeat' with_reducible
    first
      | assumption | apply memOk_spadStore

theorem memOk_barrier (s : State) (a : Src) (b : Option Src) (imm illegal : Bool) (cls : Bool)
    (value : Word → Except Stop Unit) (body : Nat → Seat → State → Nat → Word → Except Stop State) (hM : MemOk s)
    (kv : ∀ v, Ends MemOk (fun _ => True) (value v))
    (k : ∀ n t u x y, MemOk u → Ends MemOk MemOk (body n t u x y)) : Goes MemOk (s.barrier a b imm illegal cls value body) := by
  unfold State.barrier
  repeat' with_reducible
    first
      | assumption | exact trivial | apply ends_bind_unit | apply ends_bind_any | apply ends_ok | apply memOk_run
      | apply memOk_spadCheck | apply memOk_Seat_check | apply memOk_readScalars | (intro _) | apply k | apply kv

theorem memOk_countOk (v : Word)  :
    Ends MemOk (fun _ => True) (countOk v) := by
  unfold countOk
  repeat' with_reducible apply memOk_trapIf

theorem memOk_execBari (a : Src) (b : Src) (s : State) (hM : MemOk s) :
    Goes MemOk (execBari a b s) := by
  unfold execBari
  repeat' with_reducible
    first
      | assumption | apply ends_ok | apply memOk_trapIf | apply memOk_next | apply memOk_setBar | apply memOk_barrier
      | (intro _)

theorem memOk_execBarv (a : Src) (b : Src) (f : BitVec 4) (s : State) (hM : MemOk s) :
    Goes MemOk (execBarv a b f s) := by
  unfold execBarv
  repeat' with_reducible
    first
      | assumption | apply ends_bind_unit | apply ends_pure | apply memOk_next | apply memOk_fenceWait
      | apply memOk_setBar | apply memOk_barrier | apply memOk_countOk | (intro _)

theorem memOk_execBarx (a : Src) (b : Src) (s : State) (hM : MemOk s) :
    Goes MemOk (execBarx a b s) := by
  unfold execBarx
  repeat' with_reducible
    first
      | assumption | apply ends_ok | apply memOk_next | apply memOk_setBar | apply memOk_barrier | apply memOk_countOk
      | (intro _)

theorem memOk_execBarw (a : Src) (b : Src) (s : State) (hM : MemOk s) :
    Goes MemOk (execBarw a b s) := by
  unfold execBarw
  repeat' with_reducible
    first
      | assumption | exact trivial | apply ends_ok | apply ends_err | apply holds_park | apply memOk_setSeat
      | apply memOk_barrier | apply memOk_acquireGwct | (intro _) | split

theorem memOk_execBars (d : Dst) (a : Src) (f : BitVec 4) (s : State) (hM : MemOk s) :
    Goes MemOk (execBars d a f s) := by
  unfold execBars
  repeat' with_reducible
    first
      | assumption | exact trivial | apply ends_ok | apply memOk_putScalar | apply memOk_next | apply memOk_barrier
      | (intro _)

theorem memOk_execTake (d : Dst) (a : Src) (s : State) (hM : MemOk s) :
    Goes MemOk (execTake d a s) := by
  unfold execTake
  repeat' with_reducible
    first
      | assumption | exact trivial | apply ends_bind_unit | apply ends_bind_any | apply ends_pure | apply ends_ok
      | apply memOk_setSeat | apply memOk_trapIf | apply memOk_spadCheck | apply memOk_spadStore | apply memOk_writeS
      | apply memOk_ctl | (intro _) | extract_lets | split

theorem memOk_submit (s : State) (sid : Nat) (t : Seat) (av bv : Lanes Word) (ls : List Nat) (hM : MemOk s) :
    MemOk (s.submit sid t av bv ls).1 := by
  induction ls generalizing s with
  | nil => exact hM
  | cons l ls ih =>
    unfold State.submit
    dsimp only
    split
    · exact hM
    · exact ih _ (memOk_setSeat _ _ _ (memOk_setBin _ _ _ _ hM))

theorem memOk_execSpawn (a b : Src) (s : State) (hM : MemOk s) : Goes MemOk (execSpawn a b s) := by
  unfold execSpawn
  refine memOk_run s _ hM fun sid t => ends_bind_unit (memOk_Seat_check _ _ _ _ _ _ _ _ _ _ (ends_ok trivial)) fun _ => ?_
  extract_lets av bv ls bad go
  have h : ∀ r, Ends MemOk MemOk (go r) := fun r => by
    have k := memOk_submit s sid t av bv (ls.filter (fun l => !t.spawned.getLsbD l)) hM
    refine ends_bind_unit (memOk_fenceWait _) fun _ => ?_
    split
    rename_i s1 wait heq
    rw [heq] at k
    split
    · exact ends_err ⟨k, trivial⟩
    · exact ends_pure (memOk_next _ _ (memOk_useFree _ _ (memOk_setSeat _ _ _ k)))
  clear_value bad
  cases bad with
  | nil => exact ends_bind_unit (ends_ok trivial) fun r => h r
  | cons => exact ends_bind_unit (ends_err trivial) fun r => h r

theorem memOk_dropWindows (s : State) (sid : Nat) (hM : MemOk s) :
    MemOk (State.dropWindows s sid) := by
  unfold State.dropWindows
  repeat' with_reducible
    first
      | assumption | apply memOk_setRow

theorem memOk_privCheck (t : Seat)  :
    Ends MemOk (fun _ => True) (privCheck t) := by
  unfold privCheck
  repeat' with_reducible
    first
      | exact trivial | apply ends_ok | apply memOk_freezeC | split

theorem memOk_modeCheck (t : Seat) (m : BitVec 16)  :
    Ends MemOk (fun _ => True) (modeCheck t m) := by
  unfold modeCheck
  repeat' with_reducible
    first
      | exact trivial | apply ends_ok | apply memOk_trapC | split

theorem memOk_execSetmode (m : BitVec 16) (s : State) (hM : MemOk s) :
    Goes MemOk (execSetmode m s) := by
  unfold execSetmode
  repeat' with_reducible
    first
      | assumption | exact trivial | apply ends_bind_unit | apply ends_pure | apply ends_ok | apply memOk_setSeat
      | apply memOk_next | apply memOk_ctl | apply memOk_modeCheck | (intro _)

theorem memOk_execGetmode (d : Dst) (s : State) (hM : MemOk s) :
    Goes MemOk (execGetmode d s) := by
  unfold execGetmode
  repeat' with_reducible
    first
      | assumption | exact trivial | apply ends_ok | apply memOk_putScalar | apply memOk_next | apply memOk_ctl
      | (intro _)

theorem memOk_csrGate (c : BitVec 7) (t : Seat)  :
    Ends MemOk (fun _ => True) (csrGate c t) := by
  unfold csrGate
  repeat' with_reducible
    first
      | exact trivial | apply ends_ok | apply memOk_privCheck | split

theorem memOk_execCsrr (d : Dst) (c : BitVec 7) (s : State) (hM : MemOk s) :
    Goes MemOk (execCsrr d c s) := by
  unfold execCsrr
  repeat' with_reducible
    first
      | assumption | apply ends_ok | apply memOk_putScalar | apply memOk_next | apply memOk_ctl | apply memOk_csrGate
      | (intro _)

theorem memOk_execCsrw (c : BitVec 7) (b : Src) (s : State) (hM : MemOk s) :
    Goes MemOk (execCsrw c b s) := by
  unfold execCsrw
  repeat' with_reducible
    first
      | assumption | apply ends_bind_unit | apply ends_pure | apply memOk_setSeat | apply memOk_useFree
      | apply memOk_trapIf | apply memOk_next | apply memOk_ctl | apply memOk_modeCheck | apply memOk_csrGate
      | (intro _) | split

theorem memOk_execTrap (a : Src) (k : BitVec 4) (s : State) (hM : MemOk s) :
    Goes MemOk (execTrap a k s) := by
  unfold execTrap
  repeat' with_reducible
    first
      | assumption | exact trivial | apply ends_ok | apply ends_err | apply holds_trap | apply memOk_ctl | (intro _)

theorem memOk_execRett (s : State) (hM : MemOk s) :
    Goes MemOk (execRett s) := by
  unfold execRett
  repeat' with_reducible
    first
      | assumption | apply ends_ok | apply memOk_setSeat | apply memOk_ctl | apply memOk_privCheck | (intro _)

theorem memOk_execMspill (a : Src) (s : State) (hM : MemOk s) :
    Goes MemOk (execMspill a s) := by
  unfold execMspill
  repeat' with_reducible
    first
      | assumption | apply ends_bind_snd | apply ends_pure | apply memOk_next | apply memOk_ctl | apply memOk_gcheck
      | apply memOk_gstores | apply memOk_privCheck | (intro _)

theorem memOk_execMfill (a : Src) (n : BitVec 4) (s : State) (hM : MemOk s) : Goes MemOk (execMfill a n s) := by
  unfold execMfill
  refine memOk_ctl s _ _ _ _ _ _ hM (fun sid t u hu => ?_) fun _ _ => memOk_privCheck _
  refine ends_bind_snd (memOk_gcheck _ _ _ _ _ _ _ _ _ _ hu) fun ls w hw => ?_
  have h := memOk_gloads w t.bind.part (sidCore sid) false 8 ls hw
  dsimp only
  split
  · exact memOk_trapC _
  · exact ends_pure (memOk_setSeat _ _ _ h)

theorem memOk_imageCheck (s : State) (sid : Nat) (t : Seat) (addr : Word) (write : Bool) (op : Nat → Option PeerOp)
    (hM : MemOk s) :
    Ends MemOk (fun r => MemOk r.2) (State.imageCheck s sid t addr write op) := by
  unfold State.imageCheck
  repeat' with_reducible
    first
      | assumption | apply memOk_gcheck

theorem memOk_writeImage (s : State) (sid : Nat) (ls : List LaneLoc) (fs : List ImgField) (hM : MemOk s) :
    MemOk (State.writeImage s sid ls fs) := by
  unfold State.writeImage
  repeat' with_reducible
    first
      | assumption | apply memOk_setSecPois | apply memOk_puts | apply memOk_noteGwct | apply memOk_foldl | (intro _)
      | extract_lets | split

theorem memOk_execCtxsv (a : Src) (s : State) (hM : MemOk s) :
    Goes MemOk (execCtxsv a s) := by
  unfold execCtxsv
  repeat' with_reducible
    first
      | assumption | apply ends_bind_unit | apply ends_bind_snd | apply ends_pure | apply memOk_next | apply memOk_ctl
      | apply memOk_fenceWait | apply memOk_privCheck | apply memOk_imageCheck | apply memOk_writeImage | (intro _)

theorem memOk_imagePois (s : State) (ls : List LaneLoc) (used : List Nat) (hM : MemOk s) :
    Ends MemOk (fun _ => True) (State.imagePois s ls used) := by
  unfold State.imagePois
  repeat' with_reducible
    first
      | assumption | exact trivial | apply ends_bind_unit | apply ends_ok | apply ends_err | apply holds_stall
      | apply holds_after | apply memOk_meetUE | apply memOk_failTrap | (intro _) | extract_lets | split

theorem memOk_execCtxld (a : Src) (s : State) (hM : MemOk s) :
    Goes MemOk (execCtxld a s) := by
  unfold execCtxld
  repeat' with_reducible
    first
      | assumption | apply ends_bind_unit | apply ends_bind_snd | apply ends_pure | apply memOk_setSeat
      | apply memOk_trapIf | apply memOk_next | apply memOk_ctl | apply memOk_elide | apply memOk_flushLines
      | apply memOk_dropWindows | apply memOk_privCheck | apply memOk_imageCheck | apply memOk_imagePois | (intro _)

theorem memOk_mapModule (s : State) (f : Module → Module) (hM : MemOk s) :
    MemOk (State.mapModule s f) := by
  unfold State.mapModule
  repeat' with_reducible
    first
      | assumption | rw [memOk_rec]

theorem memOk_answer (s : State) (a : Answer) (hM : MemOk s) :
    MemOk (State.answer s a) := by
  unfold State.answer
  repeat' with_reducible
    first
      | assumption | apply memOk_mapModule

theorem memOk_byPort (s : State) (f : State → State) (hM : MemOk s) (k : ∀ u, MemOk u → MemOk (f u)) :
    MemOk (s.byPort f) := by
  unfold State.byPort
  split
  · exact k _ hM
  · exact hM

theorem memOk_setQueue (s : State) (p : Nat) (q : Queue) (hM : MemOk s) :
    MemOk (State.setQueue s p q) := by
  unfold State.setQueue
  repeat' with_reducible
    first
      | assumption | apply memOk_setPart

theorem memOk_hdrPut (s : State) (q : Queue) (o : Nat) (n : Nat) (v : Nat) (hM : MemOk s) :
    MemOk (State.hdrPut s q o n v) := by
  unfold State.hdrPut
  repeat' with_reducible
    first
      | assumption | apply memOk_puts

theorem memOk_markPois (s : State) (q : Queue) (hM : MemOk s) :
    MemOk (State.markPois s q) := by
  unfold State.markPois
  repeat' with_reducible
    first
      | assumption | apply memOk_hdrPut | extract_lets | split

theorem memOk_halt (s : State) (p : Nat) (q : Queue) (code : Nat) (hM : MemOk s) :
    MemOk (State.halt s p q code) := by
  unfold State.halt
  repeat' with_reducible
    first
      | assumption | apply memOk_report | apply memOk_hdrPut

theorem memOk_freezeQueue (s : State) (p : Nat) (q : Queue) (slot : Nat) (code : Nat) (codes : BitVec 16) (addr :
    Word) (hM : MemOk s) :
    MemOk (State.freezeQueue s p q slot code codes addr) := by
  unfold State.freezeQueue
  repeat' with_reducible
    first
      | assumption | apply memOk_addVio | apply memOk_setQueue

theorem memOk_tell (s : State) (p d : Nat) (told : Option Word) (hdr : Word) (slot : Nat) (va : Word) (hM : MemOk s) :
    MemOk (State.tell s p d told hdr slot va) := by
  unfold State.tell
  repeat' with_reducible
    first
      | assumption | apply memOk_report | apply memOk_elideWalks | split

theorem memOk_stallQueue (s : State) (p : Nat) (q : Queue) (addr : Word) (hM : MemOk s) :
    MemOk (State.stallQueue s p q addr) := by
  unfold State.stallQueue
  repeat' with_reducible
    first
      | assumption | apply memOk_setQueue | apply memOk_tell

theorem memOk_stepRidx (s : State) (q : Queue) (hM : MemOk s) :
    MemOk (State.stepRidx s q) := by
  unfold State.stepRidx
  repeat' with_reducible
    first
      | assumption | apply memOk_hdrPut

theorem memOk_stepDone (s : State) (q : Queue) (hM : MemOk s) :
    MemOk (State.stepDone s q) := by
  unfold State.stepDone
  repeat' with_reducible
    first
      | assumption | apply memOk_hdrPut

theorem memOk_backTo (s : State) (p : Nat) (q : Queue) (slot : Nat) (hM : MemOk s) :
    MemOk (State.backTo s p q slot) := by
  unfold State.backTo
  repeat' with_reducible
    first
      | assumption | apply memOk_setQueue | apply memOk_hdrPut | split

theorem memOk_forth (s : State) (p : Nat) (q : Queue) (hM : MemOk s) :
    MemOk (State.forth s p q) := by
  unfold State.forth
  repeat' with_reducible
    first
      | assumption | apply memOk_setQueue | apply memOk_hdrPut | split

theorem memOk_metWalk (s : State) (p d : Nat) (va : Word) (n : Nat) (hM : MemOk s) : MemOk (s.metWalk p d va n) := by
  induction n generalizing s with
  | zero => exact hM
  | succ n ih =>
    unfold State.metWalk
    split
    · exact ih _ (memOk_meetUE _ _ hM)
    · exact hM

theorem memOk_metOn (s : State) (p : Nat) (d : Nat) (vas : List Word) (hM : MemOk s) :
    MemOk (State.metOn s p d vas) := by
  unfold State.metOn
  repeat' with_reducible
    first
      | assumption | apply memOk_metWalk | apply memOk_foldl | (intro _)

theorem memOk_metWalks (s : State) (p : Nat) (vas : List Word) (hM : MemOk s) :
    MemOk (State.metWalks s p vas) := by
  unfold State.metWalks
  repeat' with_reducible
    first
      | assumption | apply memOk_metOn

theorem memOk_metHeader (s : State) (p : Nat) (hdr : Word) (hM : MemOk s) : MemOk (s.metHeader p hdr) := by
  unfold State.metHeader
  have h := memOk_metWalks s p [hdr] hM
  generalize s.metWalks p [hdr] = s1 at h
  dsimp only
  split
  · apply memOk_metWalks
    split
    · exact memOk_foldl h fun _ _ k => memOk_meetUE _ _ k
    · exact h
  · exact h

theorem memOk_register (s : State) (p : Nat) (hdr : Word) (hM : MemOk s) : MemOk (s.register p hdr) := by
  unfold State.register
  have h := memOk_metHeader s p hdr hM
  generalize s.metHeader p hdr = s1 at h
  repeat' with_reducible
    first
      | assumption | apply memOk_setPart | split | dsimp only

theorem memOk_clearHalt (s : State) (p : Nat) (hdr : Word) (hM : MemOk s) : MemOk (s.clearHalt p hdr) := by
  unfold State.clearHalt
  have h := memOk_metHeader s p hdr hM
  generalize s.metHeader p hdr = s1 at h
  repeat' with_reducible
    first
      | assumption | apply memOk_setQueue | apply memOk_hdrPut | split | dsimp only

theorem memOk_execQueueRegister (p : Fin 8) (hdr : Word) (s : State) (hM : MemOk s) :
    Goes MemOk (execQueueRegister p hdr s) := by
  unfold execQueueRegister
  repeat' with_reducible
    first
      | assumption | apply goes_next | apply memOk_byPort | apply memOk_register | (intro _ _)

theorem memOk_execQueueHaltClear (p : Fin 8) (hdr : Word) (s : State) (hM : MemOk s) :
    Goes MemOk (execQueueHaltClear p hdr s) := by
  unfold execQueueHaltClear
  repeat' with_reducible
    first
      | assumption | apply goes_next | apply memOk_byPort | apply memOk_clearHalt | (intro _ _)

theorem memOk_qputQueue (s : State) (sid : Nat) (t : Seat) (hdr : Word) (hM : MemOk s) :
    Ends MemOk (fun r => MemOk r.2) (s.qputQueue sid t hdr) := by
  unfold State.qputQueue
  extract_lets p foreign
  have hf : Ends MemOk (fun (r : Queue × State) => MemOk r.2) foreign := memOk_freezeC _
  split
  · split
    · exact memOk_freezeC _
    · exact hf
  · have hj : ∀ (a : List LaneLoc) (u : State), MemOk u → Ends MemOk (fun (r : Queue × State) => MemOk r.2)
        (match s.queue p hdr with
          | none => foreign
          | some q => if q.ext then foreign else pure (q, u)) := fun _ u hu => by
      repeat' with_reducible
        first
          | exact hf | exact ends_pure hu | split
    split
    · exact ends_bind_snd (ends_ok hM) hj
    · exact ends_bind_snd (memOk_gcheck _ _ _ _ _ _ _ _ _ _ hM) hj

theorem memOk_qputFence (s : State) (t : Seat) (q : Queue) (hM : MemOk s) :
    Ends MemOk (fun _ => True) (s.qputFence t q) := memOk_failTrap _ _ _ _ _ hM

theorem memOk_qputClaim (s : State) (sid : Nat) (t : Seat) (q : Queue) (hM : MemOk s) : MemOk (s.qputClaim sid t q).2
    := by
  unfold State.qputClaim
  cases t.qput with
  | some n => exact hM
  | none => exact memOk_setSeat _ _ _ (memOk_hdrPut _ _ _ _ _ hM)

theorem memOk_qputWrite (s : State) (t : Seat) (q : Queue) (slot : Nat) (pkt : Vector Word 8) (hM : MemOk s) :
    MemOk (State.qputWrite s t q slot pkt) := by
  unfold State.qputWrite
  repeat' with_reducible
    first
      | assumption | apply memOk_puts | apply memOk_elide | apply memOk_setQueue | apply memOk_hdrPut

theorem memOk_execQput (a b : Src) (f : BitVec 4) (s : State) (hM : MemOk s) : Goes MemOk (execQput a b f s) := by
  unfold execQput
  refine memOk_run s _ hM fun sid t => ?_
  refine ends_bind_unit (memOk_Seat_check _ _ _ _ _ _ _ _ _ _ (ends_ok trivial)) fun _ =>
    ends_bind_snd (memOk_qputQueue _ _ _ _ hM) fun q u hu => ends_bind_unit (memOk_fenceWait _) fun _ =>
      ends_bind_unit (memOk_qputFence _ _ _ hu) fun _ => ?_
  have k := memOk_qputClaim u sid t q hu
  dsimp only
  split
  · exact ends_err ⟨k, trivial⟩
  · split
    · exact ends_err ⟨k, trivial⟩
    · exact ends_pure (memOk_useFree _ _ (memOk_setSeat _ _ _ (memOk_qputWrite _ _ _ _ _ k)))

theorem memOk_haltBad (s : State) (hM : MemOk s) :
    MemOk (State.haltBad s) := by
  unfold State.haltBad
  repeat' with_reducible
    first
      | assumption | apply memOk_halt | apply memOk_foldl | (intro _) | extract_lets | split

theorem memOk_submitExt (s : State) (p : Nat) (hdr : Word) (pkt : Vector Word 8) (widx : Word) (hM : MemOk s) :
    MemOk (s.submitExt p hdr pkt widx) := by
  unfold State.submitExt
  repeat' with_reducible
    first
      | assumption | apply memOk_puts | apply memOk_answer | apply memOk_hdrPut | apply memOk_halt | split | dsimp only

theorem memOk_execExtQueueSubmit (p : Fin 8) (hdr : Word) (pkt : Vector Word 8) (widx : Word) (s : State) (hM : MemOk
    s) :
    Goes MemOk (execExtQueueSubmit p hdr pkt widx s) := by
  unfold execExtQueueSubmit
  repeat' with_reducible
    first
      | assumption | apply goes_next | apply memOk_byPort | apply memOk_submitExt | (intro _ _)

theorem memOk_metQueue (s : State) (q : Queue) (hM : MemOk s) : MemOk (s.metQueue q) := by
  unfold State.metQueue
  split
  · exact hM
  · have h : MemOk (q.hdrPas.foldl State.meetUE s) := memOk_foldl hM fun _ _ k => memOk_meetUE _ _ k
    dsimp only
    split
    · exact h
    · exact memOk_foldl h fun _ _ k => memOk_meetUE _ _ k

theorem memOk_metQueues (s : State) (p sort : Nat) (hM : MemOk s) : MemOk (s.metQueues p sort) :=
  memOk_foldl hM fun _ _ k => memOk_metQueue _ _ k

theorem memOk_elideSlot (s : State) (q : Queue) (hM : MemOk s) : MemOk (s.elideSlot q) := memOk_elide _ _ hM

theorem memOk_metRange (s : State) (p : Nat) (va : Word) (n : Nat) (hM : MemOk s) :
    MemOk (State.metRange s p va n) := by
  unfold State.metRange
  repeat' with_reducible
    first
      | assumption | apply memOk_meetUE | apply memOk_metWalks | apply memOk_foldl | (intro _) | extract_lets | split

theorem memOk_setLaunch (s : State) (key : Nat) (l : Option Launch) (hM : MemOk s) :
    MemOk (State.setLaunch s key l) := by
  unfold State.setLaunch
  repeat' with_reducible
    first
      | assumption | rw [memOk_rec]

theorem memOk_addLaunch (s : State) (l : Launch) (hM : MemOk s) :
    MemOk (State.addLaunch s l) := by
  unfold State.addLaunch
  repeat' with_reducible
    first
      | assumption | apply memOk_setPart | apply memOk_setLaunch

theorem memOk_metBridle (s : State) (p : Nat) (k : Vector Word 8) (hM : MemOk s) :
    MemOk (State.metBridle s p k) := by
  unfold State.metBridle
  repeat' with_reducible
    first
      | assumption | apply memOk_metWalks | apply memOk_metRange | extract_lets | split

theorem memOk_accepted (s : State) (p : Nat) (q : Queue) (v : Verdict Launch) (hM : MemOk s) :
    MemOk (s.accepted p q v) := by
  cases v with
  | code c => exact memOk_halt _ _ _ _ hM
  | fault va => exact memOk_stallQueue _ _ _ _ hM
  | vio c cs va => exact memOk_freezeQueue _ _ _ _ _ _ _ hM
  | wait => exact hM
  | ok l => exact memOk_addLaunch _ _ (memOk_stepRidx _ _ hM)

theorem memOk_tryAccept (s : State) (p : Nat) (q : Queue) (x : Offer) (hM : MemOk s) : MemOk (s.tryAccept p q x).1 := by
  unfold State.tryAccept
  repeat' with_reducible
    first
      | assumption | apply memOk_elideSlot | apply memOk_metBridle | apply memOk_accepted | apply memOk_halt
      | extract_lets | split

theorem memOk_execLaunchAccept (p : Fin 8) (s : State) (hM : MemOk s) : Goes MemOk (execLaunchAccept p s) := by
  unfold execLaunchAccept
  split
  · exact goes_next hM
  · have h := memOk_metQueues s p 0 hM
    dsimp only
    split
    · exact goes_next h
    · have k := memOk_tryAccept (s.metQueues p 0) p
      apply goes_next
      split
      · exact memOk_setPart _ _ _ (k _ _ h)
      · exact k _ _ h

theorem memOk_setCounter (s : State) (p : Nat) (n : Nat) (c : Counter) (hM : MemOk s) :
    MemOk (State.setCounter s p n c) := by
  unfold State.setCounter
  repeat' with_reducible
    first
      | assumption | apply memOk_setPart

theorem memOk_refuse (s : State) (p : Nat) (n : Nat) (cause : Nat) (hM : MemOk s) :
    MemOk (State.refuse s p n cause) := by
  unfold State.refuse
  repeat' with_reducible
    first
      | assumption | apply memOk_report | apply memOk_setCounter

theorem memOk_freezeCounter (s : State) (p : Nat) (n : Nat) (code : Nat) (codes : BitVec 16) (addr : Word) (hM : MemOk
    s) :
    MemOk (State.freezeCounter s p n code codes addr) := by
  unfold State.freezeCounter
  repeat' with_reducible
    first
      | assumption | apply memOk_addVio | apply memOk_setCounter

theorem memOk_taskDone (s : State) (p : Nat) (n : Nat) (hM : MemOk s) :
    MemOk (State.taskDone s p n) := by
  unfold State.taskDone
  repeat' with_reducible
    first
      | assumption | apply memOk_setCounter

theorem memOk_metGirth (s : State) (p : Nat) (k : Vector Word 8) (hM : MemOk s) :
    MemOk (State.metGirth s p k) := by
  unfold State.metGirth
  repeat' with_reducible
    first
      | assumption | apply memOk_metWalks

theorem memOk_metTask (s : State) (p : Nat) (task : Word) (hM : MemOk s) :
    MemOk (State.metTask s p task) := by
  unfold State.metTask
  repeat' with_reducible
    first
      | assumption | apply memOk_metRange | apply memOk_metBridle | apply memOk_metGirth | extract_lets | split

theorem memOk_takeTask (s : State) (p : Nat) (n : Nat) (hM : MemOk s) :
    MemOk (State.takeTask s p n) := by
  unfold State.takeTask
  repeat' with_reducible
    first
      | assumption | apply memOk_setPart | apply memOk_tell | apply memOk_addLaunch | apply memOk_setCounter
      | apply memOk_refuse | apply memOk_freezeCounter | apply memOk_taskDone | apply memOk_metTask | extract_lets
      | split

theorem memOk_issueTask (s : State) (p : Nat) (n : Nat) (hM : MemOk s) :
    MemOk (State.issueTask s p n) := by
  unfold State.issueTask
  repeat' with_reducible
    first
      | assumption | apply memOk_setCounter | apply memOk_takeTask | extract_lets | split

theorem memOk_arm (s : State) (p : Nat) (n : Nat) (count : Nat) (task : Word) (hM : MemOk s) :
    MemOk (State.arm s p n count task) := by
  unfold State.arm
  repeat' with_reducible
    first
      | assumption | apply memOk_setCounter | apply memOk_refuse | apply memOk_issueTask | extract_lets | split

theorem memOk_decrement (s : State) (p : Nat) (n : Nat) (hM : MemOk s) :
    MemOk (State.decrement s p n) := by
  unfold State.decrement
  repeat' with_reducible
    first
      | assumption | apply memOk_setCounter | apply memOk_refuse | apply memOk_issueTask | extract_lets | split

theorem memOk_takeDone (s : State) (p : Nat) (d : Half) (hM : MemOk s) :
    MemOk (State.takeDone s p d) := by
  unfold State.takeDone
  repeat' with_reducible
    first
      | assumption | apply memOk_decrement | split

theorem memOk_execTarm (a : Src) (b : Src) (s : State) (hM : MemOk s) :
    Goes MemOk (execTarm a b s) := by
  unfold execTarm
  repeat' with_reducible
    first
      | assumption | exact trivial | apply ends_bind_unit | apply ends_pure | apply ends_ok | apply memOk_trapIf
      | apply memOk_next | apply memOk_ctl | apply memOk_fenceWait | apply memOk_arm | (intro _)

theorem memOk_execTdec (a : Src) (s : State) (hM : MemOk s) :
    Goes MemOk (execTdec a s) := by
  unfold execTdec
  repeat' with_reducible
    first
      | assumption | exact trivial | apply ends_bind_unit | apply ends_pure | apply ends_ok | apply memOk_trapIf
      | apply memOk_next | apply memOk_ctl | apply memOk_decrement | (intro _)

theorem memOk_clearFrozen (s : State) (p : Nat) (n : Nat) (hM : MemOk s) :
    MemOk (State.clearFrozen s p n) := by
  unfold State.clearFrozen
  repeat' with_reducible
    first
      | assumption | apply memOk_setCounter | apply memOk_takeTask | extract_lets | split

theorem memOk_execCounterFrozenClear (p : Fin 8) (n : Fin 4096) (s : State) (hM : MemOk s) :
    Goes MemOk (execCounterFrozenClear p n s) := by
  unfold execCounterFrozenClear
  repeat' with_reducible
    first
      | assumption | apply goes_next | apply memOk_byPort | apply memOk_clearFrozen | (intro _)

theorem memOk_retryLaunch (s : State) (p : Nat) (q : Queue) (hM : MemOk s) : MemOk (s.retryLaunch p q) := by
  unfold State.retryLaunch
  have h := memOk_metQueue s q hM
  generalize s.metQueue q = s1 at h
  dsimp only
  cases s1.offer q.unstall with
  | packet k =>
    have hk := memOk_metBridle s1 p k h
    dsimp only
    generalize (s1.metBridle p k).accept p k (some q.hdr) 0 = v
    cases v with
    | fault va => exact memOk_stallQueue _ _ _ _ hk
    | wait => exact hk
    | _ => exact memOk_accepted _ _ _ _ (memOk_setQueue _ _ _ (memOk_elideSlot _ _ hk))
  | code c => exact memOk_halt _ _ _ _ (memOk_setQueue _ _ _ h)
  | _ => exact h

theorem memOk_execBridleFaultResume (p : Fin 8) (s : State) (hM : MemOk s) :
    Goes MemOk (execBridleFaultResume p s) := by
  unfold execBridleFaultResume
  repeat' with_reducible
    first
      | assumption | apply goes_next | apply memOk_takeTask | apply memOk_retryLaunch | apply memOk_foldl | (intro _)
      | extract_lets | split

theorem memOk_vputs (s : State) (p : Nat) (va : Word) (ws : List (Nat × Nat × Nat)) (hM : MemOk s) :
    MemOk (State.vputs s p va ws) := by
  unfold State.vputs
  repeat' with_reducible
    first
      | assumption | apply memOk_puts

theorem memOk_metWrites (s : State) (l : Launch) (ws : List (Nat × Nat × Nat)) (hM : MemOk s) :
    MemOk (State.metWrites s l ws) := by
  unfold State.metWrites
  repeat' with_reducible
    first
      | assumption | apply memOk_metWalks | split

theorem memOk_updLaunch (s : State) (l : Launch) (hM : MemOk s) :
    MemOk (State.updLaunch s l) := by
  unfold State.updLaunch
  repeat' with_reducible
    first
      | assumption | apply memOk_setLaunch

theorem memOk_bridleStop (s : State) (l : Launch) (v : Verdict Unit) (hM : MemOk s) :
    MemOk (State.bridleStop s l v) := by
  unfold State.bridleStop
  repeat' with_reducible
    first
      | assumption | apply memOk_freezeQueue | apply memOk_tell | apply memOk_freezeCounter | apply memOk_updLaunch
      | extract_lets | split

theorem memOk_placeString (s : State) (l : Launch) (rig : List Nat) (j : Nat) (x : Place) (hM : MemOk s) :
    MemOk (State.placeString s l rig j x) := by
  unfold State.placeString
  repeat' with_reducible
    first
      | assumption | apply memOk_setSeat | apply memOk_setRow | apply memOk_flushLines | apply memOk_foldl | (intro _)
      | extract_lets | split

theorem memOk_execLaunchPlace (p : Fin 8) (s : State) (hM : MemOk s) :
    Goes MemOk (execLaunchPlace p s) := by
  unfold execLaunchPlace
  repeat' with_reducible
    first
      | assumption | apply goes_next | apply memOk_vputs | apply memOk_metWrites | apply memOk_updLaunch
      | apply memOk_bridleStop | apply memOk_placeString | apply memOk_foldl | (intro _) | extract_lets | split
      | rw [memOk_rec]

theorem memOk_execSpawnBinTimer (core : Fin 64) (bin : Fin 16) (s : State) (hM : MemOk s) :
    Goes MemOk (execSpawnBinTimer core bin s) := by
  unfold execSpawnBinTimer
  repeat' with_reducible
    first
      | assumption | apply goes_next | apply memOk_setBin | extract_lets | split

theorem memOk_execPendingRowPlace (core : Fin 64) (bin : Fin 16) (s : State) (hM : MemOk s) :
    Goes MemOk (execPendingRowPlace core bin s) := by
  unfold execPendingRowPlace
  repeat' with_reducible
    first
      | assumption | apply goes_next | apply memOk_setSeat | apply memOk_setCore | apply memOk_setBin
      | apply memOk_flushLines | extract_lets | split

theorem memOk_dropLaunch (s : State) (key : Nat) (hM : MemOk s) : MemOk (s.dropLaunch key) :=
  memOk_setLaunch _ _ _ (memOk_foldl hM fun _ _ h => memOk_setCore _ _ _ h)

theorem memOk_lastStep (s : State) (key : Nat) (hM : MemOk s) : MemOk (s.lastStep key) := by
  unfold State.lastStep
  split
  · exact hM
  · rename_i l _
    have h := memOk_metWrites s l [(0x1C, 4, l.closing)] hM
    generalize s.metWrites l [(0x1C, 4, l.closing)] = s1 at h
    repeat' with_reducible
      first
        | assumption | apply memOk_dropLaunch | apply memOk_vputs | apply memOk_bridleStop | split | dsimp only

theorem memOk_finish (s : State) (key : Nat) (hM : MemOk s) : MemOk (s.finish key) := by
  unfold State.finish
  cases Sparse.get none s.launches key with
  | none => exact hM
  | some l =>
    dsimp only
    by_cases h1 : l.closing ≠ 0
    · rw [if_pos h1]; exact memOk_lastStep _ _ hM
    rw [if_neg h1]
    by_cases h2 : (!s.rowsGone key) = true
    · rw [if_pos h2]; exact hM
    rw [if_neg h2]
    by_cases h3 : l.killed = true
    · rw [if_pos h3]; exact memOk_lastStep _ _ (memOk_updLaunch _ _ hM)
    rw [if_neg h3]
    by_cases h4 : l.waiting = true ∨ (s.part l.part).saved.any (fun x => x.lid == l.lid) = true
    · rw [if_pos h4]; exact hM
    rw [if_neg h4]
    have h : MemOk ((s.updLaunch { l with closing := 3 }).takeDone l.part l.done) :=
      memOk_takeDone _ _ _ (memOk_updLaunch _ _ hM)
    cases l.queue.bind (s.queue l.part) with
    | none => exact memOk_lastStep _ _ h
    | some q =>
      dsimp only
      by_cases h5 : ((some q).map s.hdrHeld).getD false = true
      · rw [if_pos h5]; exact hM
      · rw [if_neg h5]; exact memOk_lastStep _ _ (memOk_stepDone _ _ h)

theorem memOk_freeSeat (s : State) (sid : Nat) (hM : MemOk s) :
    MemOk (State.freeSeat s sid) := by
  unfold State.freeSeat
  repeat' with_reducible
    first
      | assumption | apply memOk_setSeat | apply memOk_setRow | extract_lets | split | rw [memOk_rec]

theorem memOk_execSeatRelease (sid : Fin 16384) (s : State) (hM : MemOk s) :
    Goes MemOk (execSeatRelease sid s) := by
  unfold execSeatRelease
  repeat' with_reducible
    first
      | assumption | apply goes_next | apply memOk_finish | apply memOk_freeSeat | extract_lets | split

theorem memOk_sideRead (s : State) (n : Nat) (rs : List PeerReply) (x : Side) (hM : MemOk s) :
    MemOk (s.sideRead n rs x).1 := by
  cases x with
  | mem ps =>
    refine memOk_foldl hM fun u a hu => ?_
    split
    · exact memOk_meetUE _ _ hu
    · exact hu
  | _ => exact hM

theorem memOk_rowWrite (s : State) (n : Nat) (k : Packet) (dst : Side) (bs : List (Byte × Bool)) (hM : MemOk s) :
    MemOk (State.rowWrite s n k dst bs) := by
  unfold State.rowWrite
  repeat' with_reducible
    first
      | assumption | apply memOk_spadStore | apply memOk_setAbsent | apply memOk_setPois | apply memOk_setPacket
      | apply memOk_setSecPois | apply memOk_puts | apply memOk_foldl | (intro _) | extract_lets | split

theorem memOk_metRow (s : State) (k : Packet) (hM : MemOk s) :
    MemOk (State.metRow s k) := by
  unfold State.metRow
  repeat' with_reducible
    first
      | assumption | apply memOk_metOn | extract_lets | split | rw [memOk_rec]

theorem memOk_rowStop {α : Type} (s : State) (n : Nat) (k : Packet) (v : Verdict α) (hM : MemOk s) :
    MemOk (State.rowStop s n k v) := by
  unfold State.rowStop
  repeat' with_reducible
    first
      | assumption | apply memOk_setPacket | apply memOk_halt | apply memOk_freezeQueue | apply memOk_tell
      | apply memOk_backTo | apply memOk_metRow | extract_lets | split

theorem memOk_rowBytes (s : State) (k : Packet) (src : Option Side) (rs : List PeerReply) (bad : Bool) (hM : MemOk s)
    :
    MemOk (s.rowBytes k src rs bad).1 := by
  cases src with
  | none => exact hM
  | some x => exact memOk_sideRead _ _ _ _ hM

theorem memOk_moveRow (s : State) (n : Nat) (k : Packet) (idx : Nat × Bool) (hM : MemOk s) :
    MemOk (s.moveRow n k idx) := by
  unfold State.moveRow
  cases (s.rowSrc k idx.1).both (s.rowDst k) with
  | ok x =>
    dsimp only
    split
    · exact hM
    · generalize peerVerdict _ = v
      cases v with
      | ok u => exact memOk_rowWrite _ _ _ _ _ (memOk_rowBytes _ _ _ _ _ hM)
      | _ => exact memOk_rowStop _ _ _ _ hM
  | _ => exact memOk_rowStop _ _ _ _ hM

theorem memOk_copyRow (s : State) (n : Nat) (k : Packet) (hM : MemOk s) :
    MemOk (State.copyRow s n k) := by
  unfold State.copyRow
  have hs (x : Side) := memOk_sideRead s 4 [] x hM
  repeat' with_reducible
    first
      | exact hM | apply memOk_rowStop | apply memOk_moveRow | apply memOk_setPacket | apply hs | split | rw [memOk_rec]

theorem memOk_takeTarget (s : State) (k : Packet) (t : Word) (hM : MemOk s) :
    MemOk (State.takeTarget s k t) := by
  unfold State.takeTarget
  repeat' with_reducible
    first
      | assumption | apply memOk_setBar | apply memOk_markPois | apply memOk_decrement | split

theorem memOk_packetEnd (s : State) (n : Nat) (hM : MemOk s) :
    MemOk (State.packetEnd s n) := by
  unfold State.packetEnd
  repeat' with_reducible
    first
      | assumption | apply memOk_setPacket | apply memOk_markPois | apply memOk_stepDone | extract_lets | split

theorem memOk_execRelease (n : Nat) (s : State) (hM : MemOk s) :
    Goes MemOk (execRelease n s) := by
  unfold execRelease
  repeat' with_reducible
    first
      | assumption | apply goes_next | apply memOk_setPacket | apply memOk_takeTarget | apply memOk_packetEnd | split

theorem memOk_execLanded (n : Nat) (s : State) (hM : MemOk s) :
    Goes MemOk (execLanded n s) := by
  unfold execLanded
  repeat' with_reducible
    first
      | assumption | apply goes_next | apply memOk_setRow | apply memOk_setPacket | apply memOk_takeTarget
      | apply memOk_packetEnd | extract_lets | split | rw [memOk_rec]

theorem memOk_bring (s : State) (k : Packet) (hM : MemOk s) :
    MemOk (State.bring s k) := by
  unfold State.bring
  repeat' with_reducible
    first
      | assumption | apply memOk_setRow | apply memOk_setAbsent | apply memOk_setPacket | apply memOk_foldl
      | (intro _) | extract_lets | split | rw [memOk_rec]

theorem memOk_acceptCopy (s : State) (p : Nat) (q : Queue) (k : Vector Word 8) (hM : MemOk s) :
    MemOk (State.acceptCopy s p q k) := by
  unfold State.acceptCopy
  repeat' with_reducible
    first
      | assumption | apply memOk_setQueue | apply memOk_halt | apply memOk_freezeQueue | apply memOk_stepRidx
      | apply memOk_elideSlot | apply memOk_bring | split | dsimp only

theorem memOk_copyStep (s : State) (p : Nat) (hdr : Word) (kind : Nat) (hM : MemOk s) :
    MemOk (State.copyStep s p hdr kind) := by
  unfold State.copyStep
  repeat' with_reducible
    first
      | assumption | apply memOk_copyRow | apply memOk_acceptCopy | apply memOk_metQueue | apply memOk_halt | split
      | dsimp only

theorem memOk_execCopy (p : Fin 8) (hdr : Word) (s : State) (hM : MemOk s) :
    Goes MemOk (execCopy p hdr s) := by
  unfold execCopy
  repeat' with_reducible
    first
      | assumption | apply goes_next | apply memOk_copyStep

theorem memOk_execFeed (p : Fin 8) (hdr : Word) (s : State) (hM : MemOk s) :
    Goes MemOk (execFeed p hdr s) := by
  unfold execFeed
  repeat' with_reducible
    first
      | assumption | apply goes_next | apply memOk_copyStep

theorem memOk_execFill (p : Fin 8) (hdr : Word) (s : State) (hM : MemOk s) :
    Goes MemOk (execFill p hdr s) := by
  unfold execFill
  repeat' with_reducible
    first
      | assumption | apply goes_next | apply memOk_copyStep

theorem memOk_execGather (p : Fin 8) (hdr : Word) (s : State) (hM : MemOk s) :
    Goes MemOk (execGather p hdr s) := by
  unfold execGather
  repeat' with_reducible
    first
      | assumption | apply goes_next | apply memOk_copyStep

theorem memOk_execFeedEntryPush (h : Fin 4096) (s : State) (hM : MemOk s) :
    Goes MemOk (execFeedEntryPush h s) := by
  unfold execFeedEntryPush
  repeat' with_reducible
    first
      | assumption | apply goes_next | apply memOk_setRow | apply memOk_setPacket | apply memOk_sideRead
      | apply memOk_rowStop | extract_lets | split

theorem memOk_execCopyFaultResume (n : Nat) (s : State) (hM : MemOk s) :
    Goes MemOk (execCopyFaultResume n s) := by
  unfold execCopyFaultResume
  repeat' with_reducible
    first
      | assumption | apply goes_next | apply memOk_setPacket | apply memOk_rowStop | split

theorem memOk_elemsMeet (s : State) (p : Nat) (k : Vector Word 8) (hM : MemOk s) :
    MemOk (State.elemsMeet s p k) := by
  unfold State.elemsMeet
  repeat' with_reducible
    first
      | assumption | apply memOk_meetUE | apply memOk_elide | apply memOk_foldl | (intro _) | extract_lets | split

theorem memOk_girthPerform (s : State) (p : Nat) (k : Vector Word 8) (hM : MemOk s) :
    MemOk (State.girthPerform s p k).1 := by
  unfold State.girthPerform
  repeat' with_reducible
    first
      | assumption | apply memOk_puts | apply memOk_elemsMeet | extract_lets | split | rw [memOk_rec]

theorem memOk_girthAccept (s : State) (p : Nat) (q : Queue) (k : Vector Word 8) (hM : MemOk s) :
    MemOk (State.girthAccept s p q k) := by
  unfold State.girthAccept
  extract_lets s1
  have h : MemOk s1 := by
    dsimp only [s1]
    split
    · exact memOk_metGirth _ _ _ hM
    · exact hM
  clear_value s1
  have hg := memOk_girthPerform _ p k (memOk_stepRidx _ q (memOk_elideSlot _ q h))
  repeat' with_reducible
    first
      | assumption | apply memOk_setQueue | apply memOk_markPois | apply memOk_halt | apply memOk_freezeQueue
      | apply memOk_stallQueue | apply memOk_elideSlot | split

theorem memOk_girthQueue (s : State) (p : Nat) (hdr : Word) (cmd : Nat) (hM : MemOk s) :
    MemOk (State.girthQueue s p hdr cmd) := by
  unfold State.girthQueue
  repeat' with_reducible
    first
      | assumption | apply memOk_setQueue | apply memOk_stepDone | apply memOk_takeDone | apply memOk_girthAccept
      | apply memOk_metQueue | apply memOk_halt | split | dsimp only

theorem memOk_girthTask (s : State) (p : Nat) (stack : Nat) (cmd : Nat) (hM : MemOk s) :
    MemOk (State.girthTask s p stack cmd) := by
  unfold State.girthTask
  repeat' with_reducible
    first
      | assumption | apply memOk_setPart | apply memOk_tell | apply memOk_setCounter | apply memOk_refuse
      | apply memOk_freezeCounter | apply memOk_metGirth | apply memOk_takeDone | apply memOk_girthPerform
      | extract_lets | split

theorem memOk_girth (s : State) (p : Nat) (src : GirthSrc) (cmd : Nat) (hM : MemOk s) :
    MemOk (State.girth s p src cmd) := by
  unfold State.girth
  repeat' with_reducible
    first
      | assumption | apply memOk_girthQueue | apply memOk_girthTask | split

theorem memOk_execAxpy (p : Fin 8) (src : GirthSrc) (s : State) (hM : MemOk s) :
    Goes MemOk (execAxpy p src s) := by
  unfold execAxpy
  repeat' with_reducible
    first
      | assumption | apply goes_next | apply memOk_girth

theorem memOk_execScale (p : Fin 8) (src : GirthSrc) (s : State) (hM : MemOk s) :
    Goes MemOk (execScale p src s) := by
  unfold execScale
  repeat' with_reducible
    first
      | assumption | apply goes_next | apply memOk_girth

theorem memOk_execMomentum (p : Fin 8) (src : GirthSrc) (s : State) (hM : MemOk s) :
    Goes MemOk (execMomentum p src s) := by
  unfold execMomentum
  repeat' with_reducible
    first
      | assumption | apply goes_next | apply memOk_girth

theorem memOk_execAdamw (p : Fin 8) (src : GirthSrc) (s : State) (hM : MemOk s) :
    Goes MemOk (execAdamw p src s) := by
  unfold execAdamw
  repeat' with_reducible
    first
      | assumption | apply goes_next | apply memOk_girth

theorem memOk_execGirthZero (p : Fin 8) (src : GirthSrc) (s : State) (hM : MemOk s) :
    Goes MemOk (execGirthZero p src s) := by
  unfold execGirthZero
  repeat' with_reducible
    first
      | assumption | apply goes_next | apply memOk_girth

theorem memOk_execXclose (p : Fin 8) (src : GirthSrc) (s : State) (hM : MemOk s) :
    Goes MemOk (execXclose p src s) := by
  unfold execXclose
  repeat' with_reducible
    first
      | assumption | apply goes_next | apply memOk_girth

theorem memOk_mapPart (s : State) (p : Nat) (f : Part → Part) (hM : MemOk s) :
    MemOk (State.mapPart s p f) := by
  unfold State.mapPart
  repeat' with_reducible
    first
      | assumption | apply memOk_setPart

theorem memOk_thaw (s : State) (p : Nat) (hdr : Word) (hM : MemOk s) :
    MemOk (State.thaw s p hdr) := by
  unfold State.thaw
  repeat' with_reducible
    first
      | assumption | apply memOk_setQueue | apply memOk_forth | extract_lets | split | rw [memOk_rec]

theorem memOk_thawCounter (s : State) (p : Nat) (n : Nat) (hM : MemOk s) :
    MemOk (State.thawCounter s p n) := by
  unfold State.thawCounter
  repeat' with_reducible
    first
      | assumption | apply memOk_setCounter | apply memOk_takeTask | extract_lets | split | rw [memOk_rec]

theorem memOk_resume (s : State) (p : Nat) (hM : MemOk s) :
    MemOk (State.resume s p) := by
  unfold State.resume
  repeat' with_reducible
    first
      | assumption | apply memOk_setSeat | apply memOk_mapPart | apply memOk_thaw | apply memOk_thawCounter
      | extract_lets | split

theorem memOk_execResume (p : Fin 8) (s : State) (hM : MemOk s) :
    Goes MemOk (execResume p s) := by
  unfold execResume
  repeat' with_reducible
    first
      | assumption | apply goes_next | apply memOk_byPort | apply memOk_resume | (intro _)

theorem memOk_dropPacket (s : State) (n : Nat) (k : Packet) (hM : MemOk s) :
    MemOk (State.dropPacket s n k) := by
  unfold State.dropPacket
  repeat' with_reducible
    first
      | assumption | apply memOk_setRow | apply memOk_setPacket | extract_lets | split

theorem memOk_abort (s : State) (p : Nat) (hM : MemOk s) :
    MemOk (State.abort s p) := by
  unfold State.abort
  repeat' with_reducible
    first
      | assumption | apply memOk_setQueue | apply memOk_halt | apply memOk_stepRidx | apply memOk_stepDone
      | apply memOk_forth | apply memOk_dropPacket | extract_lets | split | rw [memOk_rec]

theorem memOk_execAbort (p : Fin 8) (s : State) (hM : MemOk s) :
    Goes MemOk (execAbort p s) := by
  unfold execAbort
  repeat' with_reducible
    first
      | assumption | apply goes_next | apply memOk_byPort | apply memOk_abort | (intro _)

theorem memOk_skip (s : State) (p : Nat) (hM : MemOk s) :
    MemOk (State.skip s p) := by
  unfold State.skip
  repeat' with_reducible
    first
      | assumption | apply memOk_setQueue | apply memOk_stepRidx | apply memOk_stepDone | split

theorem memOk_execSkip (p : Fin 8) (s : State) (hM : MemOk s) :
    Goes MemOk (execSkip p s) := by
  unfold execSkip
  repeat' with_reducible
    first
      | assumption | apply goes_next | apply memOk_byPort | apply memOk_skip | (intro _)

theorem memOk_removeRow (s : State) (sid : Nat) (hM : MemOk s) :
    MemOk (State.removeRow s sid) := by
  unfold State.removeRow
  repeat' with_reducible
    first
      | assumption | apply memOk_unbind | apply memOk_freeSeat | extract_lets | split | rw [memOk_rec]

theorem memOk_emptyBins (s : State) (key : Nat) (cores : List Nat) (hM : MemOk s) :
    MemOk (State.emptyBins s key cores) := by
  unfold State.emptyBins
  repeat' with_reducible
    first
      | assumption | apply memOk_setBin | apply memOk_foldl | (intro _)

theorem memOk_unfreezeFor (s : State) (l : Launch) (hM : MemOk s) :
    MemOk (State.unfreezeFor s l) := by
  unfold State.unfreezeFor
  repeat' with_reducible
    first
      | assumption | apply memOk_setQueue | apply memOk_setCounter | extract_lets | split

theorem memOk_endClosing (s : State) (l : Launch) (hM : MemOk s) :
    MemOk (State.endClosing s l) := by
  unfold State.endClosing
  repeat' with_reducible
    first
      | assumption | apply memOk_dropLaunch | apply memOk_updLaunch | apply memOk_lastStep | apply memOk_unfreezeFor
      | split | dsimp only

theorem memOk_kill (s : State) (p : Nat) (hM : MemOk s) :
    MemOk (State.kill s p) := by
  unfold State.kill
  repeat' with_reducible
    first
      | assumption | apply memOk_updLaunch | apply memOk_finish | apply memOk_mapPart | apply memOk_removeRow
      | apply memOk_emptyBins | apply memOk_unfreezeFor | apply memOk_endClosing | apply memOk_foldl | extract_lets
      | split

theorem memOk_execKill (p : Fin 8) (s : State) (hM : MemOk s) :
    Goes MemOk (execKill p s) := by
  unfold execKill
  repeat' with_reducible
    first
      | assumption | apply goes_next | apply memOk_byPort | apply memOk_kill | (intro _)

theorem memOk_markStop (s : State) (p : Nat) (hM : MemOk s) :
    MemOk (State.markStop s p) := by
  unfold State.markStop
  repeat' with_reducible
    first
      | assumption | apply memOk_mapPart | split

theorem memOk_execPreemptSeatStop (sid : Fin 16384) (s : State) (hM : MemOk s) :
    Goes MemOk (execPreemptSeatStop sid s) := by
  unfold execPreemptSeatStop
  repeat' with_reducible
    first
      | assumption | apply goes_next | apply memOk_setSeat | apply memOk_markStop | extract_lets | split

theorem memOk_supRefuse (s : State) (p : Nat) (reason : BitVec 8) (hM : MemOk s) :
    MemOk (State.supRefuse s p reason) := by
  unfold State.supRefuse
  repeat' with_reducible
    first
      | assumption | apply memOk_mapPart

theorem memOk_preempt (s : State) (p : Nat) (hM : MemOk s) :
    MemOk (State.preempt s p) := by
  unfold State.preempt
  repeat' with_reducible
    first
      | assumption | apply memOk_metWalks | apply memOk_mapPart | apply memOk_markStop | apply memOk_supRefuse
      | extract_lets | split

theorem memOk_execPreempt (p : Fin 8) (s : State) (hM : MemOk s) :
    Goes MemOk (execPreempt p s) := by
  unfold execPreempt
  repeat' with_reducible
    first
      | assumption | apply goes_next | apply memOk_byPort | apply memOk_preempt | (intro _)

theorem memOk_execPreemptDeadline (p : Fin 8) (s : State) (hM : MemOk s) :
    Goes MemOk (execPreemptDeadline p s) := by
  unfold execPreemptDeadline
  repeat' with_reducible
    first
      | assumption | apply goes_next | apply memOk_setSeat | apply memOk_mapPart | apply memOk_supRefuse
      | apply memOk_foldl | (intro _) | extract_lets | split

theorem memOk_abortPacket (s : State) (p : Nat) (n : Nat) (k : Packet) (hM : MemOk s) :
    MemOk (State.abortPacket s p n k) := by
  unfold State.abortPacket
  repeat' with_reducible
    first
      | assumption | apply memOk_setAbsent | apply memOk_mapPart | apply memOk_dropPacket | apply memOk_foldl
      | (intro _) | extract_lets | split

theorem memOk_putImage (s : State) (p : Nat) (va : Word) (fs : List ImgField) (hM : MemOk s) :
    MemOk (State.putImage s p va fs) := by
  unfold State.putImage
  repeat' with_reducible
    first
      | assumption | apply memOk_setSecPois | apply memOk_vputs | apply memOk_foldl | (intro _) | extract_lets | split

theorem memOk_vacate (s : State) (sid : Nat) (t : Seat) (hM : MemOk s) :
    MemOk (State.vacate s sid t) := by
  unfold State.vacate
  repeat' with_reducible
    first
      | assumption | apply memOk_setSeat | apply memOk_setRow

theorem memOk_saveUnit (s : State) (p : Nat) (x : Preempt) (t1 : Nat) (us : List (Nat × Seat)) (l : Launch) (hM : MemOk s) :
    MemOk (State.saveUnit s p x t1 us l) := by
  unfold State.saveUnit
  exact memOk_addEv _ _ _ (memOk_mapPart _ _ _ (memOk_updLaunch _ _ (memOk_vputs _ _ _ _ (memOk_foldl (memOk_vputs _ _ _ _
    (memOk_foldl hM fun _ _ h => memOk_putImage _ _ _ _ h)) fun _ _ h => memOk_vacate _ _ _ h))))

theorem memOk_execPreemptDrainEnd (p : Fin 8) (s : State) (hM : MemOk s) :
    Goes MemOk (execPreemptDrainEnd p s) := by
  unfold execPreemptDrainEnd
  split
  · exact goes_next hM
  split
  · exact goes_next hM
  extract_lets bound late stop s1 us
  have h : MemOk s1 := memOk_foldl hM fun _ _ k => memOk_abortPacket _ _ _ _ k
  clear_value s1
  split
  · split
    · exact goes_next h
    · extract_lets ws s2
      have h2 : MemOk s2 := memOk_metWrites _ _ _ h
      clear_value s2
      split
      · exact goes_next (memOk_saveUnit _ _ _ _ _ _ h2)
      · exact goes_next (memOk_bridleStop _ _ _ h2)
  · exact goes_next h

theorem memOk_loadRow (s : State) (l : Launch) (x : SavedRow) (r : ImgRead) (y : Place) (hM : MemOk s) :
    MemOk (State.loadRow s l x r y) := by
  unfold State.loadRow
  extract_lets k core clk base t m ab pc slot t1 t2 s1 u mat next
  have h : MemOk s1 := memOk_flushLines _ _ (memOk_setSeat _ _ _ hM)
  split
  · exact memOk_setRow _ _ _ h
  · exact memOk_setRow _ _ _ h

theorem memOk_restoreUnit (s : State) (p : Nat) (l : Launch) (x : SavedUnit) (ys : List ((Bool × Nat) × Place)) (hM :
    MemOk s) :
    MemOk (State.restoreUnit s p l x ys) := by
  unfold State.restoreUnit
  refine memOk_mapPart _ _ _ (memOk_foldl (memOk_foldl (memOk_updLaunch _ _ (memOk_vputs _ _ _ _ hM)) fun u a h => ?_)
    fun _ _ h => memOk_bring _ _ h)
  split
  · exact memOk_loadRow _ _ _ _ _ h
  · exact h

theorem memOk_tryRestore (s : State) (p : Nat) (hM : MemOk s) :
    MemOk (State.tryRestore s p) := by
  unfold State.tryRestore
  repeat' with_reducible
    first
      | assumption | apply memOk_metRange | apply memOk_metWrites | apply memOk_bridleStop | apply memOk_mapPart
      | apply memOk_supRefuse | apply memOk_restoreUnit | extract_lets | split

theorem memOk_restore (s : State) (p : Nat) (hM : MemOk s) :
    MemOk (State.restore s p) := by
  unfold State.restore
  repeat' with_reducible
    first
      | assumption | apply memOk_mapPart | apply memOk_supRefuse | apply memOk_tryRestore | extract_lets | split

theorem memOk_execRestore (p : Fin 8) (s : State) (hM : MemOk s) :
    Goes MemOk (execRestore p s) := by
  unfold execRestore
  repeat' with_reducible
    first
      | assumption | apply goes_next | apply memOk_byPort | apply memOk_restore | (intro _)

theorem memOk_flushPart (s : State) (p : Nat) (hM : MemOk s) :
    MemOk (State.flushPart s p) := by
  unfold State.flushPart
  repeat' with_reducible
    first
      | assumption | apply memOk_flushLines | apply memOk_flushCode | apply memOk_foldl | (intro _)

theorem memOk_tuGo (s : State) (p : Nat) (op : Nat) (cnt : BitVec 10) (level : BitVec 2) (hM : MemOk s) :
    MemOk (State.tuGo s p op cnt level) := by
  unfold State.tuGo
  repeat' with_reducible
    first
      | assumption | apply memOk_hwrite | apply memOk_mapPart | apply memOk_flushPart | apply memOk_elide
      | apply memOk_foldl | (intro _) | extract_lets | split

theorem memOk_execTuSet (p : Fin 8) (cnt : BitVec 10) (level : BitVec 2) (s : State) (hM : MemOk s) :
    Goes MemOk (execTuSet p cnt level s) := by
  unfold execTuSet
  repeat' with_reducible
    first
      | assumption | apply goes_next | apply memOk_byPort | apply memOk_tuGo | (intro _)

theorem memOk_execTuClear (p : Fin 8) (cnt : BitVec 10) (level : BitVec 2) (s : State) (hM : MemOk s) :
    Goes MemOk (execTuClear p cnt level s) := by
  unfold execTuClear
  repeat' with_reducible
    first
      | assumption | apply goes_next | apply memOk_byPort | apply memOk_tuGo | (intro _)

theorem memOk_execTuSetrange (p : Fin 8) (cnt : BitVec 10) (level : BitVec 2) (s : State) (hM : MemOk s) :
    Goes MemOk (execTuSetrange p cnt level s) := by
  unfold execTuSetrange
  repeat' with_reducible
    first
      | assumption | apply goes_next | apply memOk_byPort | apply memOk_tuGo | (intro _)

theorem memOk_execTuComplete (p : Fin 8) (s : State) (hM : MemOk s) :
    Goes MemOk (execTuComplete p s) := by
  unfold execTuComplete
  repeat' with_reducible
    first
      | assumption | apply goes_next | apply memOk_mapPart | split

theorem memOk_meetAll (s : State) (f : Nat → Bool) (hM : MemOk s) :
    MemOk (State.meetAll s f) := by
  unfold State.meetAll
  repeat' with_reducible
    first
      | assumption | apply memOk_meetUE | apply memOk_foldl | (intro _) | extract_lets | split

theorem memOk_startApply (s : State) (k : Nat) (hM : MemOk s) :
    MemOk (State.startApply s k) := by
  unfold State.startApply
  repeat' with_reducible
    first
      | assumption | apply memOk_setStack | extract_lets | split

theorem memOk_execApply (k : Fin 24) (s : State) (hM : MemOk s) :
    Goes MemOk (execApply k s) := by
  unfold execApply
  repeat' with_reducible
    first
      | assumption | apply goes_next | apply memOk_byPort | apply memOk_startApply | (intro _)

theorem memOk_refill (s : State) (k : Nat) (hM : MemOk s) : MemOk (s.refill k) := ⟨hM.1, Sparse.wf_filter _ _ hM.2⟩

theorem memOk_dropStackLines (s : State) (p : Nat) (k : Nat) (hM : MemOk s) :
    MemOk (State.dropStackLines s p k) := by
  unfold State.dropStackLines
  repeat' with_reducible
    first
      | assumption | apply memOk_setCore | apply memOk_foldl | (intro _)

theorem memOk_execApplyDone (k : Fin 24) (s : State) (hM : MemOk s) :
    Goes MemOk (execApplyDone k s) := by
  unfold execApplyDone
  repeat' with_reducible
    first
      | assumption | apply goes_next | apply memOk_setStack | apply memOk_meetAll | apply memOk_refill
      | apply memOk_dropStackLines | extract_lets | split

theorem memOk_startRetire (s : State) (k : Nat) (hM : MemOk s) :
    MemOk (State.startRetire s k) := by
  unfold State.startRetire
  repeat' with_reducible
    first
      | assumption | apply memOk_setStack | extract_lets | split

theorem memOk_execRetireGo (k : Fin 24) (s : State) (hM : MemOk s) :
    Goes MemOk (execRetireGo k s) := by
  unfold execRetireGo
  repeat' with_reducible
    first
      | assumption | apply goes_next | apply memOk_byPort | apply memOk_startRetire | (intro _)

theorem memOk_execRetireSwitch (k : Fin 24) (s : State) (hM : MemOk s) :
    Goes MemOk (execRetireSwitch k s) := by
  unfold execRetireSwitch
  repeat' with_reducible
    first
      | assumption | apply goes_next | apply memOk_setStack | apply memOk_addDieEv | apply memOk_meetAll
      | extract_lets | split | rw [memOk_rec]

theorem memOk_execPeerRetryResend (s : State) (hM : MemOk s) :
    Goes MemOk (execPeerRetryResend s) := by
  unfold execPeerRetryResend
  repeat' with_reducible
    first
      | assumption | apply goes_next | extract_lets | rw [memOk_rec]

theorem memOk_loseLaunch (s : State) (d : Nat) (key : Nat) (hM : MemOk s) :
    MemOk (State.loseLaunch s d key) := by
  unfold State.loseLaunch
  repeat' with_reducible
    first
      | assumption | apply memOk_updLaunch | split

theorem memOk_startReset (s : State) (d : Nat) (therm : Bool) (hM : MemOk s) :
    MemOk (State.startReset s d therm) := by
  unfold State.startReset
  repeat' with_reducible
    first
      | assumption | apply memOk_setDie | apply memOk_finish | apply memOk_removeRow | apply memOk_emptyBins
      | apply memOk_loseLaunch | apply memOk_foldl | (intro _) | extract_lets | split | rw [memOk_rec]

theorem memOk_execDiereset (p : Fin 8) (s : State) (hM : MemOk s) :
    Goes MemOk (execDiereset p s) := by
  unfold execDiereset
  repeat' with_reducible
    first
      | assumption | apply goes_next | apply memOk_byPort | apply memOk_startReset | (intro _) | extract_lets | split

theorem memOk_execDieFault (d : Fin 8) (s : State) (hM : MemOk s) :
    Goes MemOk (execDieFault d s) := by
  unfold execDieFault
  repeat' with_reducible
    first
      | assumption | apply goes_next | apply memOk_startReset

theorem memOk_sever (s : State) (d : Nat) (hM : MemOk s) :
    MemOk (State.sever s d) := by
  unfold State.sever
  repeat' with_reducible
    first
      | assumption | apply memOk_setRow | apply memOk_foldl | (intro _) | extract_lets | split | rw [memOk_rec]

theorem memOk_wipeDie (s : State) (d : Nat) (hM : MemOk s) : MemOk (s.wipeDie d) := by
  unfold State.wipeDie
  exact memOk_foldl (s := _) ⟨Sparse.wf_filter _ _ hM.1, hM.2⟩ fun s i h => memOk_setCore _ _ _ h

theorem memOk_loseWrites (s : State) (d : Nat) (hM : MemOk s) :
    MemOk (State.loseWrites s d) := by
  unfold State.loseWrites
  repeat' with_reducible
    first
      | assumption | apply memOk_addDieEv | apply memOk_ackAt | apply memOk_foldl | (intro _) | extract_lets | split
      | rw [memOk_rec]

theorem memOk_haltEngines (s : State) (d : Nat) (hM : MemOk s) :
    MemOk (State.haltEngines s d) := by
  unfold State.haltEngines
  repeat' with_reducible
    first
      | assumption | apply memOk_rowStop | apply memOk_foldl | (intro _) | extract_lets | split

theorem memOk_copySector (s : State) (dst : Nat) (src : Nat) (hM : MemOk s) :
    MemOk (State.copySector s dst src) := by
  unfold State.copySector
  generalize List.range 32 = is
  extract_lets s1 s2 s3
  have h : MemOk s3 := memOk_setSecPois _ _ _ (memOk_foldl (memOk_meetUE _ _ hM) fun _ _ k => memOk_hput _ _ _ k)
  clear_value s3
  exact memOk_elide _ _ ⟨h.1, h.2⟩

theorem memOk_rebuildTables (s : State) (d : Nat) (hM : MemOk s) :
    MemOk (State.rebuildTables s d) := by
  unfold State.rebuildTables
  repeat' with_reducible
    first
      | assumption | apply memOk_copySector | apply memOk_foldl | (intro _) | extract_lets | split

theorem memOk_freshDie (s : State) (d : Nat) (hM : MemOk s) :
    MemOk (State.freshDie s d) := by
  unfold State.freshDie
  repeat' with_reducible
    first
      | assumption | apply memOk_setCore | apply memOk_setDie | apply memOk_foldl | (intro _)

theorem memOk_zeroClocks (s : State) (d : Nat) (hM : MemOk s) :
    MemOk (State.zeroClocks s d) := by
  unfold State.zeroClocks
  repeat' with_reducible
    first
      | assumption | apply memOk_setCore | apply memOk_foldl | (intro _)

theorem memOk_rejoin (s : State) (d : Nat) (t0 : Nat) (therm : Bool) (hM : MemOk s) :
    MemOk (State.rejoin s d t0 therm) := by
  unfold State.rejoin
  repeat' with_reducible
    first
      | assumption | apply memOk_setDie | apply memOk_addDieEv | apply memOk_freshDie | extract_lets | rw [memOk_rec]

theorem memOk_execDieResetForce (d : Fin 8) (s : State) (hM : MemOk s) :
    Goes MemOk (execDieResetForce d s) := by
  unfold execDieResetForce
  repeat' with_reducible
    first
      | assumption | apply goes_next | apply memOk_setDie | apply memOk_sever | apply memOk_wipeDie
      | apply memOk_loseWrites | apply memOk_haltEngines | apply memOk_rebuildTables | apply memOk_zeroClocks
      | apply memOk_rejoin | extract_lets | split

theorem memOk_spoil (s : State) (x : SramPlace) (hM : MemOk s) : MemOk (s.spoil x) := by
  cases x <;> unfold State.spoil <;> dsimp only <;> (repeat' split) <;>
    exact hM

theorem memOk_execSramUe (place : SramPlace) (s : State) (hM : MemOk s) :
    Goes MemOk (execSramUe place s) := by
  unfold execSramUe
  repeat' with_reducible
    first
      | assumption | apply goes_next | apply memOk_setDie | apply memOk_addDieEv | apply memOk_spoil | extract_lets
      | split | rw [memOk_rec]

theorem memOk_scrub (s : State) (d : Nat) (hM : MemOk s) : MemOk (s.scrub d) := by
  unfold State.scrub
  have h := memOk_wipeDie s d hM
  exact memOk_freshDie _ _ ⟨h.1, Sparse.wf_filter _ _ h.2⟩

theorem memOk_enable (s : State) (p : Nat) (w : Word) (hM : MemOk s) :
    MemOk (State.enable s p w) := by
  unfold State.enable
  repeat' with_reducible
    first
      | assumption | apply memOk_setDie | apply memOk_mapPart | apply memOk_scrub | apply memOk_foldl | (intro _)
      | extract_lets | split | rw [memOk_rec]

theorem memOk_disable (s : State) (p : Nat) (hM : MemOk s) :
    MemOk (State.disable s p) := by
  unfold State.disable
  repeat' with_reducible
    first
      | assumption | apply memOk_mapPart | split

theorem memOk_execPartitionDisable (p : Fin 8) (s : State) (hM : MemOk s) :
    Goes MemOk (execPartitionDisable p s) := by
  unfold execPartitionDisable
  repeat' with_reducible
    first
      | assumption | apply goes_next | apply memOk_byPort | apply memOk_disable | (intro _)

theorem memOk_writePartcfg (s : State) (p : Nat) (w : Word) (hM : MemOk s) :
    MemOk (State.writePartcfg s p w) := by
  unfold State.writePartcfg
  repeat' with_reducible
    first
      | assumption | apply memOk_mapPart | apply memOk_enable | apply memOk_disable | extract_lets | split
      | rw [memOk_rec]

theorem memOk_execPartitionEnable (p : Fin 8) (w : Word) (s : State) (hM : MemOk s) :
    Goes MemOk (execPartitionEnable p w s) := by
  unfold execPartitionEnable
  repeat' with_reducible
    first
      | assumption | apply goes_next | apply memOk_byPort | apply memOk_writePartcfg | (intro _)

theorem memOk_writeShare (s : State) (p : Nat) (w : Word) (hM : MemOk s) :
    MemOk (State.writeShare s p w) := by
  unfold State.writeShare
  repeat' with_reducible
    first
      | assumption | apply memOk_mapPart | split

theorem memOk_execPwrshareWrite (p : Fin 8) (w : Word) (s : State) (hM : MemOk s) :
    Goes MemOk (execPwrshareWrite p w s) := by
  unfold execPwrshareWrite
  repeat' with_reducible
    first
      | assumption | apply goes_next | apply memOk_byPort | apply memOk_writeShare | (intro _)

theorem memOk_writeTuctl (s : State) (p : Nat) (v : Word) (hM : MemOk s) :
    MemOk (State.writeTuctl s p v) := by
  unfold State.writeTuctl
  repeat' with_reducible
    first
      | assumption | apply memOk_mapPart | apply memOk_tuGo | extract_lets | split

theorem memOk_writeHcfg (s : State) (k : Nat) (v : Word) (hM : MemOk s) :
    MemOk (State.writeHcfg s k v) := by
  unfold State.writeHcfg
  repeat' with_reducible
    first
      | assumption | apply memOk_setStack | apply memOk_startApply | extract_lets | split

theorem memOk_writeRetctl (s : State) (k : Nat) (v : Word) (hM : MemOk s) :
    MemOk (State.writeRetctl s k v) := by
  unfold State.writeRetctl
  repeat' with_reducible
    first
      | assumption | apply memOk_setStack | apply memOk_startRetire | extract_lets | split

theorem memOk_writeCounter (s : State) (p : Nat) (n : Nat) (v : Word) (hM : MemOk s) :
    MemOk (State.writeCounter s p n v) := by
  unfold State.writeCounter
  repeat' with_reducible
    first
      | assumption | apply memOk_setCounter | apply memOk_clearFrozen | extract_lets | split | rw [memOk_rec]

theorem memOk_writeReg (s : State) (p : Nat) (r : Reg) (v : Word) (hM : MemOk s) :
    MemOk (State.writeReg s p r v) := by
  unfold State.writeReg
  repeat' with_reducible
    first
      | assumption | apply memOk_setCore | apply memOk_setStack | apply memOk_setDie | apply memOk_mapPart
      | apply memOk_writePartcfg | apply memOk_writeShare | apply memOk_writeTuctl | apply memOk_writeHcfg
      | apply memOk_writeRetctl | apply memOk_writeCounter | extract_lets | split

theorem memOk_execRegisterWrite (p : Fin 8) (r : Reg) (v : Word) (s : State) (hM : MemOk s) :
    Goes MemOk (execRegisterWrite p r v s) := by
  unfold execRegisterWrite
  repeat' with_reducible
    first
      | assumption | apply goes_next | apply memOk_byPort | apply memOk_writeReg | (intro _)

theorem memOk_execControlNodeAccess (p : Fin 8) (va : Word) (size : Fin 4) (wr : Option Word) (s : State) (hM : MemOk
    s) :
    Goes MemOk (execControlNodeAccess p va size wr s) := by
  unfold execControlNodeAccess
  repeat' with_reducible
    first
      | assumption | apply goes_next | apply memOk_meetUE | apply memOk_elide | apply memOk_puts | apply memOk_answer
      | apply memOk_metWalks | extract_lets | split

theorem memOk_reply (s : State) (p : Nat) (va : Word) (r : PeerReply) (hM : MemOk s) :
    MemOk (State.reply s p va r) := by
  unfold State.reply
  repeat' with_reducible
    first
      | assumption | rw [memOk_rec]

theorem memOk_freezeSpan (s : State) (p : Nat) (link : Nat) (dev : BitVec 16) (src : BitVec 3) (code : Nat) (va :
    Word) (hM : MemOk s) :
    MemOk (State.freezeSpan s p link dev src code va) := by
  unfold State.freezeSpan
  repeat' with_reducible
    first
      | assumption | apply memOk_addVio | apply memOk_mapPart

theorem memOk_peerPerform (s : State) (p : Nat) (who : Master) (va : Word) (pa : Nat) (nc : Bool) (op : PeerOp) (hM :
    MemOk s) :
    MemOk (State.peerPerform s p who va pa nc op) := by
  unfold State.peerPerform
  repeat' with_reducible
    first
      | assumption | apply memOk_setSecPois | apply memOk_elide | apply memOk_puts | apply memOk_ackAt | apply memOk_arrive | apply memOk_reply
      | extract_lets | split

theorem memOk_execPeerAccessInbound (link : Fin 16) (dev : BitVec 16) (src : BitVec 3) (p : Fin 8) (va : Word) (op :
    PeerOp) (s : State) (hM : MemOk s) :
    Goes MemOk (execPeerAccessInbound link dev src p va op s) := by
  unfold execPeerAccessInbound
  repeat' with_reducible
    first
      | assumption | apply goes_next | apply memOk_meetUE | apply memOk_mapModule | apply memOk_metWalks
      | apply memOk_reply | apply memOk_freezeSpan | apply memOk_peerPerform | extract_lets | split

theorem memOk_supRead (s : State) (p : Nat) (what : Readable) (hM : MemOk s) :
    MemOk (State.supRead s p what) := by
  unfold State.supRead
  repeat' with_reducible
    first
      | assumption | apply memOk_setPart | extract_lets | split

theorem memOk_portRead (s : State) (p : Nat) (what : Readable) (hM : MemOk s) :
    MemOk (State.portRead s p what) := by
  unfold State.portRead
  repeat' with_reducible
    first
      | assumption | apply memOk_answer | split

theorem memOk_mapDie (s : State) (d : Nat) (f : Die → Die) (hM : MemOk s) :
    MemOk (State.mapDie s d f) := by
  unfold State.mapDie
  repeat' with_reducible
    first
      | assumption | apply memOk_setDie

theorem memOk_mapCore (s : State) (c : Nat) (f : CoreUnit → CoreUnit) (hM : MemOk s) :
    MemOk (State.mapCore s c f) := by
  unfold State.mapCore
  repeat' with_reducible
    first
      | assumption | apply memOk_setCore

theorem memOk_gather (s : State) (hM : MemOk s) :
    MemOk (State.gather s) := by
  unfold State.gather
  repeat' with_reducible
    first
      | assumption | rw [memOk_rec]

theorem memOk_endInterval (s0 : State) (hM : MemOk s0) :
    MemOk (State.endInterval s0) := by
  unfold State.endInterval
  repeat' with_reducible
    first
      | assumption | apply memOk_gather | extract_lets | rw [memOk_rec]

theorem memOk_beginInterval (s : State) (d : Nat) (hM : MemOk s) :
    MemOk (State.beginInterval s d) := by
  unfold State.beginInterval
  repeat' with_reducible
    first
      | assumption | apply memOk_setDie | apply memOk_mapCore | apply memOk_foldl | (intro _)

theorem memOk_execControlInterval (s : State) (hM : MemOk s) :
    Goes MemOk (execControlInterval s) := by
  unfold execControlInterval
  repeat' with_reducible
    first
      | assumption | apply goes_next | apply memOk_endInterval | apply memOk_beginInterval | apply memOk_foldl
      | extract_lets | split | rw [memOk_rec]

theorem memOk_followRail (s : State) (d : Nat) (hM : MemOk s) :
    MemOk (State.followRail s d) := by
  unfold State.followRail
  repeat' with_reducible
    first
      | assumption | apply memOk_mapDie | split

theorem memOk_execNewValuesApply (core : Fin 64) (s : State) (hM : MemOk s) :
    Goes MemOk (execNewValuesApply core s) := by
  unfold execNewValuesApply
  repeat' with_reducible
    first
      | assumption | apply goes_next | apply memOk_setCore | apply memOk_followRail | extract_lets | split

theorem memOk_execDroopTrip (core : Fin 64) (s : State) (hM : MemOk s) :
    Goes MemOk (execDroopTrip core s) := by
  unfold execDroopTrip
  repeat' with_reducible
    first
      | assumption | apply goes_next | apply memOk_setCore | apply memOk_mapDie | extract_lets | split

theorem memOk_execDroopWindowEnd (core : Fin 64) (s : State) (hM : MemOk s) :
    Goes MemOk (execDroopWindowEnd core s) := by
  unfold execDroopWindowEnd
  repeat' with_reducible
    first
      | assumption | apply goes_next | apply memOk_mapCore

theorem memOk_execCoolantFault (s : State) (hM : MemOk s) :
    Goes MemOk (execCoolantFault s) := by
  unfold execCoolantFault
  repeat' with_reducible
    first
      | assumption | apply goes_next | apply memOk_mapModule | split

theorem memOk_execCoolantFaultClear (s : State) (hM : MemOk s) :
    Goes MemOk (execCoolantFaultClear s) := by
  unfold execCoolantFaultClear
  repeat' with_reducible
    first
      | assumption | apply goes_next | apply memOk_mapModule | split

theorem memOk_execThermalTrip (die : Fin 8) (s : State) (hM : MemOk s) :
    Goes MemOk (execThermalTrip die s) := by
  unfold execThermalTrip
  repeat' with_reducible
    first
      | assumption | apply goes_next | apply memOk_setDie | apply memOk_startReset | extract_lets | split

theorem memOk_execDieRejoin (die : Fin 8) (s : State) (hM : MemOk s) :
    Goes MemOk (execDieRejoin die s) := by
  unfold execDieRejoin
  repeat' with_reducible
    first
      | assumption | apply goes_next | apply memOk_rejoin | extract_lets | split

theorem memOk_execUvTrial (die : Fin 8) (s : State) (hM : MemOk s) :
    Goes MemOk (execUvTrial die s) := by
  unfold execUvTrial
  repeat' with_reducible
    first
      | assumption | apply goes_next | apply memOk_setDie | extract_lets | split

theorem memOk_execTrialPassed (die : Fin 8) (s : State) (hM : MemOk s) :
    Goes MemOk (execTrialPassed die s) := by
  unfold execTrialPassed
  repeat' with_reducible
    first
      | assumption | apply goes_next | apply memOk_setDie | extract_lets | split

theorem memOk_execUvAbort (die : Fin 8) (s : State) (hM : MemOk s) :
    Goes MemOk (execUvAbort die s) := by
  unfold execUvAbort
  repeat' with_reducible
    first
      | assumption | apply goes_next | apply memOk_setDie | apply memOk_addDieEv | extract_lets | split

theorem memOk_execUvBlacklistExpire (die : Fin 8) (vid : BitVec 8) (s : State) (hM : MemOk s) :
    Goes MemOk (execUvBlacklistExpire die vid s) := by
  unfold execUvBlacklistExpire
  repeat' with_reducible
    first
      | assumption | apply goes_next | apply memOk_mapDie

theorem memOk_input (s : State) (e : Env) (hM : MemOk s) :
    MemOk (State.input s e) := by
  unfold State.input
  repeat' with_reducible
    first
      | assumption | apply memOk_setStack | apply memOk_mapModule | apply memOk_supRead | apply memOk_portRead
      | apply memOk_mapDie | apply memOk_mapCore | extract_lets | split | rw [memOk_rec]

theorem memOk_trainLinks (s : State) (hM : MemOk s) :
    MemOk (State.trainLinks s) := by
  unfold State.trainLinks
  repeat' with_reducible
    first
      | assumption | apply memOk_mapModule

theorem memOk_startUp (s : State) (hM : MemOk s) :
    MemOk (State.startUp s) := by
  unfold State.startUp
  repeat' with_reducible
    first
      | assumption | apply memOk_mapModule

theorem memOk_boot (s0 : State) (hM : MemOk s0) :
    MemOk (State.boot s0) := by
  unfold State.boot
  repeat' with_reducible
    first
      | assumption | apply memOk_trainLinks | extract_lets | split | rw [memOk_rec]

theorem memOk_execPowerGood (s : State) (hM : MemOk s) :
    Goes MemOk (execPowerGood s) := by
  unfold execPowerGood
  repeat' with_reducible
    first
      | assumption | apply goes_next | apply memOk_startUp | apply memOk_boot | extract_lets | split | rw [memOk_rec]

theorem memOk_endSession (s : State) (hM : MemOk s) :
    MemOk (State.endSession s) := by
  unfold State.endSession
  repeat' with_reducible
    first
      | assumption | apply memOk_mapModule | split

theorem memOk_execPowerOff (s : State) (_ : MemOk s) : Goes MemOk (execPowerOff s) := goes_next ⟨rfl, rfl⟩

theorem memOk_execFirmwareReload (image : List Byte) (s : State) (hM : MemOk s) :
    Goes MemOk (execFirmwareReload image s) := by
  unfold execFirmwareReload
  repeat' with_reducible
    first
      | assumption | apply goes_next | apply memOk_mapModule | apply memOk_answer | apply memOk_startUp
      | apply memOk_endSession | extract_lets | split | rw [memOk_rec]

theorem memOk_execOpen (nonce : BitVec 384) (keys : List Byte) (edSig : List Byte) (mlSig : List Byte) (s : State) (hM
    : MemOk s) :
    Goes MemOk (execOpen nonce keys edSig mlSig s) := by
  unfold execOpen
  repeat' with_reducible
    first
      | assumption | apply goes_next | apply memOk_mapModule | apply memOk_answer | extract_lets | split

theorem memOk_execClose (s : State) (hM : MemOk s) :
    Goes MemOk (execClose s) := by
  unfold execClose
  repeat' with_reducible
    first
      | assumption | apply goes_next | apply memOk_answer | apply memOk_endSession | split

theorem memOk_execLossOfLight (s : State) (hM : MemOk s) :
    Goes MemOk (execLossOfLight s) := by
  unfold execLossOfLight
  repeat' with_reducible
    first
      | assumption | apply goes_next | apply memOk_endSession

theorem memOk_execQuote (nonce : BitVec 384) (s : State) (hM : MemOk s) :
    Goes MemOk (execQuote nonce s) := by
  unfold execQuote
  repeat' with_reducible
    first
      | assumption | apply goes_next | apply memOk_answer | apply memOk_useFree | extract_lets | split

theorem memOk_execIdentityQuery (s : State) (hM : MemOk s) :
    Goes MemOk (execIdentityQuery s) := by
  unfold execIdentityQuery
  repeat' with_reducible
    first
      | assumption | apply goes_next | apply memOk_answer | split

theorem memOk_setLink (s : State) (n : Nat) (l : Link) (hM : MemOk s) :
    MemOk (State.setLink s n l) := by
  unfold State.setLink
  repeat' with_reducible
    first
      | assumption | apply memOk_mapModule

theorem memOk_execFlitCrcError (link : Fin 16) (s : State) (hM : MemOk s) :
    Goes MemOk (execFlitCrcError link s) := by
  unfold execFlitCrcError
  repeat' with_reducible
    first
      | assumption | apply goes_next | apply memOk_setLink | extract_lets | split

theorem memOk_execLinkTrained (link : Fin 16) (dev : BitVec 16) (s : State) (hM : MemOk s) :
    Goes MemOk (execLinkTrained link dev s) := by
  unfold execLinkTrained
  repeat' with_reducible
    first
      | assumption | apply goes_next | apply memOk_setLink | extract_lets | split

theorem memOk_makeCodeRoom (s : State) (core : Nat) (line : Nat) (hM : MemOk s) :
    MemOk (State.makeCodeRoom s core line) := by
  unfold State.makeCodeRoom
  repeat' with_reducible
    first
      | assumption | apply memOk_setCore | apply memOk_useFree | extract_lets | split

theorem memOk_fillCode (s0 : State) (core : Nat) (va : Nat) (pa : Nat) (hM : MemOk s0) :
    MemOk (State.fillCode s0 core va pa) := by
  unfold State.fillCode
  repeat' with_reducible
    first
      | assumption | apply memOk_setCore | apply memOk_makeCodeRoom

theorem memOk_readBundle (s : State) (p : Nat) (core : Nat) (pc : Word) (hM : MemOk s) :
    Ends MemOk (fun r => MemOk r.2) (State.readBundle s p core pc) := by
  unfold State.readBundle
  repeat' with_reducible
    first
      | assumption | apply ends_ok | apply ends_err | apply holds_trap | apply holds_freeze | apply holds_stall
      | apply holds_after | apply memOk_meetUE | apply memOk_elide | apply memOk_fillCode
      | apply memOk_elideWalks | extract_lets | split

theorem memOk_fetch (s : State) (sid : Nat) (hM : MemOk s) : Ends MemOk MemOk (s.fetch sid) := by
  unfold State.fetch
  have h := memOk_readBundle s (s.seat sid).bind.part (sidCore sid) (s.seat sid).pc hM
  dsimp only
  split
  · exact ends_err (h.2 _ ‹_›)
  · have k := h.1 _ ‹_›
    split
    · exact ends_err ⟨k, trivial⟩
    · split
      · exact ends_err ⟨k, trivial⟩
      · split
        · exact ends_err ⟨memOk_setSeat _ _ _ k, trivial⟩
        · exact ends_ok (memOk_setSeat _ _ _ k)

theorem memOk_inHand (s : State) (sid : Nat) (hM : MemOk s) :
    Ends MemOk MemOk (State.inHand s sid) := by
  unfold State.inHand
  repeat' with_reducible
    first
      | assumption | apply ends_ok | apply memOk_fetch | split

theorem memOk_execUnassignedOpcode (w : Half) (s : State) (hM : MemOk s) :
    Goes MemOk (execUnassignedOpcode w s) := by
  unfold execUnassignedOpcode
  repeat' with_reducible
    first
      | assumption | apply ends_ok | apply memOk_trapC | apply memOk_run | apply memOk_prefixed | (intro _)
      | extract_lets | split

theorem memOk_execForcedIssue (sid : Fin 16384) (s : State) (hM : MemOk s) :
    Goes MemOk (execForcedIssue sid s) := by
  unfold execForcedIssue
  repeat' with_reducible
    first
      | assumption | apply goes_next | apply memOk_setSeat | apply memOk_setCore | extract_lets | split
      | rw [memOk_rec]

theorem memOk_wake (s : State) (sid : Nat) (sleepers : Bool) (hM : MemOk s) :
    MemOk (State.wake s sid sleepers) := by
  unfold State.wake
  repeat' with_reducible
    first
      | assumption | apply memOk_setSeat | extract_lets | split

theorem memOk_execSeatWake (sid : Fin 16384) (s : State) (hM : MemOk s) :
    Goes MemOk (execSeatWake sid s) := by
  unfold execSeatWake
  repeat' with_reducible
    first
      | assumption | apply goes_next | apply memOk_wake

theorem memOk_execSleeptWake (sid : Fin 16384) (s : State) (hM : MemOk s) :
    Goes MemOk (execSleeptWake sid s) := by
  unfold execSleeptWake
  repeat' with_reducible
    first
      | assumption | apply goes_next | apply memOk_wake

theorem memOk_exec (i : Instr) (s : State) (hM : MemOk s) : Goes MemOk (exec i s) :=
  match i with
  | .nop => memOk_execNop s hM
  | .mod q sc e t r z k => memOk_execMod q sc e t r z k s hM
  | .ximm imm => memOk_execXimm imm s hM
  | .bra o => memOk_execBra o s hM
  | .bz c o => memOk_execBz c o s hM
  | .bnz c o => memOk_execBnz c o s hM
  | .brd m o => memOk_execBrd m o s hM
  | .brdn m o => memOk_execBrdn m o s hM
  | .jset o => memOk_execJset o s hM
  | .join => memOk_execJoin s hM
  | .jmp a => memOk_execJmp a s hM
  | .jmpv a => memOk_execJmpv a s hM
  | .call o => memOk_execCall o s hM
  | .callr a => memOk_execCallr a s hM
  | .ret a => memOk_execRet a s hM
  | .exit => memOk_execExit s hM
  | .loop c o => memOk_execLoop c o s hM
  | .brk k => memOk_execBrk k s hM
  | .pushp a => memOk_execPushp a s hM
  | .pushpn a => memOk_execPushpn a s hM
  | .pushm a => memOk_execPushm a s hM
  | .invp => memOk_execInvp s hM
  | .popp => memOk_execPopp s hM
  | .mset d k => memOk_execMset d k s hM
  | .mlog d a b f => memOk_execMlog d a b f s hM
  | .mcnt d a => memOk_execMcnt d a s hM
  | .mfst d a => memOk_execMfst d a s hM
  | .mtos d a => memOk_execMtos d a s hM
  | .stom d a => memOk_execStom d a s hM
  | .many d a => memOk_execMany d a s hM
  | .mall d a => memOk_execMall d a s hM
  | .mspill a => memOk_execMspill a s hM
  | .mfill a n => memOk_execMfill a n s hM
  | .add d a b => memOk_execAdd d a b s hM
  | .sub d a b => memOk_execSub d a b s hM
  | .mul d a b => memOk_execMul d a b s hM
  | .mulh d a b => memOk_execMulh d a b s hM
  | .min d a b => memOk_execMin d a b s hM
  | .max d a b => memOk_execMax d a b s hM
  | .abs d a => memOk_execAbs d a s hM
  | .neg d a => memOk_execNeg d a s hM
  | .and d a b => memOk_execAnd d a b s hM
  | .or d a b => memOk_execOr d a b s hM
  | .xor d a b => memOk_execXor d a b s hM
  | .andn d a b => memOk_execAndn d a b s hM
  | .shl d a b => memOk_execShl d a b s hM
  | .shr d a b => memOk_execShr d a b s hM
  | .sar d a b => memOk_execSar d a b s hM
  | .rot d a b => memOk_execRot d a b s hM
  | .addi d imm => memOk_execAddi d imm s hM
  | .li d imm => memOk_execLi d imm s hM
  | .lsi d imm => memOk_execLsi d imm s hM
  | .lea d a b k => memOk_execLea d a b k s hM
  | .clz d a => memOk_execClz d a s hM
  | .popc d a => memOk_execPopc d a s hM
  | .brev d a => memOk_execBrev d a s hM
  | .bfx d a b => memOk_execBfx d a b s hM
  | .bfi d a b => memOk_execBfi d a b s hM
  | .div d a b => memOk_execDiv d a b s hM
  | .rem d a b => memOk_execRem d a b s hM
  | .mad d a b => memOk_execMad d a b s hM
  | .sext d a b => memOk_execSext d a b s hM
  | .zext d a b => memOk_execZext d a b s hM
  | .cmp d a b f => memOk_execCmp d a b f s hM
  | .cmpm d a b f => memOk_execCmpm d a b f s hM
  | .sel d a b m => memOk_execSel d a b m s hM
  | .clamp d a b => memOk_execClamp d a b s hM
  | .fadd d a b => memOk_execFadd d a b s hM
  | .fsub d a b => memOk_execFsub d a b s hM
  | .fmul d a b => memOk_execFmul d a b s hM
  | .fma d a b => memOk_execFma d a b s hM
  | .fnma d a b => memOk_execFnma d a b s hM
  | .fmin d a b => memOk_execFmin d a b s hM
  | .fmax d a b => memOk_execFmax d a b s hM
  | .fneg d a => memOk_execFneg d a s hM
  | .fabs d a => memOk_execFabs d a s hM
  | .fdiv d a b => memOk_execFdiv d a b s hM
  | .fsqrt d a => memOk_execFsqrt d a s hM
  | .fexp2 d a => memOk_execFexp2 d a s hM
  | .flog2 d a => memOk_execFlog2 d a s hM
  | .frsq d a => memOk_execFrsq d a s hM
  | .ftanh d a => memOk_execFtanh d a s hM
  | .fsigm d a => memOk_execFsigm d a s hM
  | .fclass d a => memOk_execFclass d a s hM
  | .cvt d a b sc => memOk_execCvt d a b sc s hM
  | .qcb d a b n => memOk_execQcb d a b n s hM
  | .dqcb d a b n => memOk_execDqcb d a b n s hM
  | .pack d a b sc => memOk_execPack d a b sc s hM
  | .unpk d a sc => memOk_execUnpk d a sc s hM
  | .had d a b => memOk_execHad d a b s hM
  | .hadinv d a b => memOk_execHadinv d a b s hM
  | .rand d a b => memOk_execRand d a b s hM
  | .shfl d a b f => memOk_execShfl d a b f s hM
  | .bfly d a f => memOk_execBfly d a f s hM
  | .bcast d a b => memOk_execBcast d a b s hM
  | .redw d a f => memOk_execRedw d a f s hM
  | .scan d a f => memOk_execScan d a f s hM
  | .compact d a => memOk_execCompact d a s hM
  | .xtos d a b => memOk_execXtos d a b s hM
  | .stox d a b => memOk_execStox d a b s hM
  | .mov d a => memOk_execMov d a s hM
  | .movs d a b => memOk_execMovs d a b s hM
  | .mdot d a b k => memOk_execMdot d a b k s hM
  | .mdotp a b z k => memOk_execMdotp a b z k s hM
  | .mbatch d => memOk_execMbatch d s hM
  | .mwait a => memOk_execMwait a s hM
  | .aget d a => memOk_execAget d a s hM
  | .aput d a => memOk_execAput d a s hM
  | .azero d k => memOk_execAzero d k s hM
  | .ascl d a k => memOk_execAscl d a k s hM
  | .ldcb n a => memOk_execLdcb n a s hM
  | .ppass => memOk_execPpass s hM
  | .pdrop => memOk_execPdrop s hM
  | .pstat d => memOk_execPstat d s hM
  | .tailcfg a b => memOk_execTailcfg a b s hM
  | .lds d a b f => memOk_execLds d a b f s hM
  | .sts d a b f => memOk_execSts d a b f s hM
  | .ldsb d a b => memOk_execLdsb d a b s hM
  | .stsb d a b => memOk_execStsb d a b s hM
  | .pres d a b => memOk_execPres d a b s hM
  | .absent a b n => memOk_execAbsent a b n s hM
  | .atoms d a b f => memOk_execAtoms d a b f s hM
  | .cass d a b => memOk_execCass d a b s hM
  | .ldg d a b f => memOk_execLdg d a b f s hM
  | .stg d a b f => memOk_execStg d a b f s hM
  | .ldgb d a b f => memOk_execLdgb d a b f s hM
  | .stgb d a b => memOk_execStgb d a b s hM
  | .atomg d a b f => memOk_execAtomg d a b f s hM
  | .redg a b f => memOk_execRedg a b f s hM
  | .casg d a b => memOk_execCasg d a b s hM
  | .prefg a b => memOk_execPrefg a b s hM
  | .isect d a b => memOk_execIsect d a b s hM
  | .frel sc => memOk_execFrel sc s hM
  | .facq sc => memOk_execFacq sc s hM
  | .ffull sc => memOk_execFfull sc s hM
  | .ifence => memOk_execIfence s hM
  | .bari a b => memOk_execBari a b s hM
  | .barv a b sc => memOk_execBarv a b sc s hM
  | .barw a b => memOk_execBarw a b s hM
  | .barx a b => memOk_execBarx a b s hM
  | .bars d a k => memOk_execBars d a k s hM
  | .time d => memOk_execTime d s hM
  | .clkc d => memOk_execClkc d s hM
  | .qput a b f => memOk_execQput a b f s hM
  | .tdec a => memOk_execTdec a s hM
  | .tarm a b => memOk_execTarm a b s hM
  | .take d a => memOk_execTake d a s hM
  | .spawn a b => memOk_execSpawn a b s hM
  | .yield => memOk_execYield s hM
  | .sleept a => memOk_execSleept a s hM
  | .setmode m => memOk_execSetmode m s hM
  | .getmode d => memOk_execGetmode d s hM
  | .csrr d c => memOk_execCsrr d c s hM
  | .csrw c b => memOk_execCsrw c b s hM
  | .trap a k => memOk_execTrap a k s hM
  | .rett => memOk_execRett s hM
  | .ctxsv a => memOk_execCtxsv a s hM
  | .ctxld a => memOk_execCtxld a s hM
  | .forcedIssue sid => memOk_execForcedIssue sid s hM
  | .seatWake sid => memOk_execSeatWake sid s hM
  | .sleeptWake sid => memOk_execSleeptWake sid s hM
  | .matrixStep k => memOk_execMatrixStep k s hM
  | .portCrossingMove k => memOk_execPortCrossingMove k s hM
  | .tailSinkStore k => memOk_execTailSinkStore k s hM
  | .faddxContribution imm => memOk_execFaddxContribution imm s hM
  | .faddxWaitReport imm => memOk_execFaddxWaitReport imm s hM
  | .extQueueSubmit p hdr pkt widx => memOk_execExtQueueSubmit p hdr pkt widx s hM
  | .queueRegister p hdr => memOk_execQueueRegister p hdr s hM
  | .queueHaltClear p hdr => memOk_execQueueHaltClear p hdr s hM
  | .copy p hdr => memOk_execCopy p hdr s hM
  | .feed p hdr => memOk_execFeed p hdr s hM
  | .fill p hdr => memOk_execFill p hdr s hM
  | .gather p hdr => memOk_execGather p hdr s hM
  | .feedEntryPush k => memOk_execFeedEntryPush k s hM
  | .release n => memOk_execRelease n s hM
  | .landed n => memOk_execLanded n s hM
  | .copyFaultResume n => memOk_execCopyFaultResume n s hM
  | .axpy p src => memOk_execAxpy p src s hM
  | .scale p src => memOk_execScale p src s hM
  | .momentum p src => memOk_execMomentum p src s hM
  | .adamw p src => memOk_execAdamw p src s hM
  | .girthZero p src => memOk_execGirthZero p src s hM
  | .xclose p src => memOk_execXclose p src s hM
  | .launchAccept p => memOk_execLaunchAccept p s hM
  | .launchPlace p => memOk_execLaunchPlace p s hM
  | .bridleFaultResume p => memOk_execBridleFaultResume p s hM
  | .spawnBinTimer core bin => memOk_execSpawnBinTimer core bin s hM
  | .pendingRowPlace core bin => memOk_execPendingRowPlace core bin s hM
  | .seatRelease sid => memOk_execSeatRelease sid s hM
  | .resume p => memOk_execResume p s hM
  | .abort p => memOk_execAbort p s hM
  | .kill p => memOk_execKill p s hM
  | .skip p => memOk_execSkip p s hM
  | .preempt p => memOk_execPreempt p s hM
  | .preemptSeatStop sid => memOk_execPreemptSeatStop sid s hM
  | .preemptDeadline p => memOk_execPreemptDeadline p s hM
  | .preemptDrainEnd p => memOk_execPreemptDrainEnd p s hM
  | .restore p => memOk_execRestore p s hM
  | .diereset p => memOk_execDiereset p s hM
  | .dieFault die => memOk_execDieFault die s hM
  | .dieResetForce die => memOk_execDieResetForce die s hM
  | .tuSet p cnt level => memOk_execTuSet p cnt level s hM
  | .tuClear p cnt level => memOk_execTuClear p cnt level s hM
  | .tuSetrange p cnt level => memOk_execTuSetrange p cnt level s hM
  | .tuComplete p => memOk_execTuComplete p s hM
  | .apply stack => memOk_execApply stack s hM
  | .applyDone stack => memOk_execApplyDone stack s hM
  | .retireGo stack => memOk_execRetireGo stack s hM
  | .retireSwitch stack => memOk_execRetireSwitch stack s hM
  | .peerRetryResend => memOk_execPeerRetryResend s hM
  | .sramUe place => memOk_execSramUe place s hM
  | .uvTrial die => memOk_execUvTrial die s hM
  | .uvAbort die => memOk_execUvAbort die s hM
  | .uvBlacklistExpire die vid => memOk_execUvBlacklistExpire die vid s hM
  | .partitionEnable p w => memOk_execPartitionEnable p w s hM
  | .partitionDisable p => memOk_execPartitionDisable p s hM
  | .pwrshareWrite p w => memOk_execPwrshareWrite p w s hM
  | .counterFrozenClear p n => memOk_execCounterFrozenClear p n s hM
  | .registerWrite p r v => memOk_execRegisterWrite p r v s hM
  | .controlNodeAccess p va size wr => memOk_execControlNodeAccess p va size wr s hM
  | .peerAccessInbound link dev src p va op => memOk_execPeerAccessInbound link dev src p va op s hM
  | .controlInterval => memOk_execControlInterval s hM
  | .droopTrip core => memOk_execDroopTrip core s hM
  | .droopWindowEnd core => memOk_execDroopWindowEnd core s hM
  | .coolantFault => memOk_execCoolantFault s hM
  | .coolantFaultClear => memOk_execCoolantFaultClear s hM
  | .thermalTrip die => memOk_execThermalTrip die s hM
  | .powerGood => memOk_execPowerGood s hM
  | .firmwareReload image => memOk_execFirmwareReload image s hM
  | .open nonce keys edSig mlSig => memOk_execOpen nonce keys edSig mlSig s hM
  | .close => memOk_execClose s hM
  | .lossOfLight => memOk_execLossOfLight s hM
  | .quote nonce => memOk_execQuote nonce s hM
  | .identityQuery => memOk_execIdentityQuery s hM
  | .flitCrcError link => memOk_execFlitCrcError link s hM
  | .linkTrained link dev => memOk_execLinkTrained link dev s hM
  | .unassignedOpcode w => memOk_execUnassignedOpcode w s hM
  | .trialPassed die => memOk_execTrialPassed die s hM
  | .dieRejoin die => memOk_execDieRejoin die s hM
  | .powerOff => memOk_execPowerOff s hM
  | .newValuesApply core => memOk_execNewValuesApply core s hM

theorem memOk_startString (s : State) (head : Seat) (hM : MemOk s) :
    MemOk (State.startString s head) := by
  unfold State.startString
  repeat' with_reducible
    first
      | assumption | split | rw [memOk_rec]

theorem memOk_issued (s : State) (sid : Nat) (t : Seat) (hM : MemOk s) :
    MemOk (State.issued s sid t) := by
  unfold State.issued
  repeat' with_reducible
    first
      | assumption | apply memOk_setSeat | apply memOk_mapDie | apply memOk_startString | extract_lets | split
      | rw [memOk_rec]

theorem memOk_joined (s : State) (sid : Nat) (i : Instr) (hM : MemOk s) :
    MemOk (State.joined s sid i) := by
  unfold State.joined
  repeat' with_reducible
    first
      | assumption | apply memOk_setSeat | extract_lets | split

theorem memOk_after (s : State) (sid : Nat) (t : Seat) (i : Instr) (hM : MemOk s) :
    MemOk (State.after s sid t i) := by
  unfold State.after
  repeat' with_reducible
    first
      | assumption | apply memOk_issued | apply memOk_joined | extract_lets | split | rw [memOk_rec]

theorem memOk_runWord (s : State) (sid : Nat) (hM : MemOk s) : Goes MemOk (s.runWord sid) := by
  have h := memOk_exec (wordInstr (s.seat sid).word) s hM
  unfold State.runWord
  dsimp only
  split
  · exact goes_next (memOk_after _ _ _ _ (h _ ‹_›))
  · exact goes_fault
  · exact goes_refused

theorem memOk_runSlot (s : State) (sid : Nat) (hM : MemOk s) : Goes MemOk (s.runSlot sid) := by
  unfold State.runSlot
  have h := memOk_inHand { s with cur := sid, stalled := false } sid hM
  dsimp only
  split
  · exact goes_next hM
  · split
    · exact goes_next (memOk_stop _ _ _ hM (h.2 _ ‹_›))
    · exact memOk_runWord _ _ (h.1 _ ‹_›)

theorem memOk_prepare (s : State) (sid : Nat) (hM : MemOk s) : Goes MemOk (s.prepare sid) := by
  unfold State.prepare
  split
  · split
    · refine goes_next ?_
      have k := memOk_runSlot s sid hM _ ‹_›
      split
      · exact k
      · exact k
    · rename_i o hn
      intro u hu
      exact absurd hu (hn u)
  · exact goes_next hM

theorem memOk_gauge (s : State) (core : Nat) (hM : MemOk s) :
    MemOk (State.gauge s core) := by
  unfold State.gauge
  repeat' with_reducible
    first
      | assumption | rw [memOk_rec]

theorem memOk_selectPart (s : State) (core : Nat) (q : Nat) (hM : MemOk s) :
    MemOk (State.selectPart s core q).1 := by
  unfold State.selectPart
  repeat' with_reducible
    first
      | assumption | apply memOk_setSeat | apply memOk_setCore | apply memOk_foldl | (intro _) | extract_lets | split

theorem memOk_select (s : State) (core : Nat) (hM : MemOk s) : MemOk (s.select core) := by
  unfold State.select
  have h := foldl_keep (P := fun (x : State × List Act × List Act) => MemOk x.1) (xs := List.range 8) (b := (s, [], []))
    (f := fun x q => ((x.1.selectPart core q).1, x.2.1 ++ (x.1.selectPart core q).2.1, x.2.2 ++ (x.1.selectPart core q).2.2))
    hM fun x q hx => memOk_selectPart _ _ _ hx
  exact h

theorem memOk_clockBegin (s : State) (core : Nat) (hM : MemOk s) :
    MemOk (State.clockBegin s core) := by
  unfold State.clockBegin
  repeat' with_reducible
    first
      | assumption | apply memOk_setCore | extract_lets | split | rw [memOk_rec]

theorem memOk_retry (s : State) (hM : MemOk s) :
    MemOk (State.retry s) := by
  unfold State.retry
  repeat' with_reducible
    first
      | assumption | apply memOk_giveAcks | apply memOk_haltBad | apply memOk_finish | apply memOk_tryRestore
      | apply memOk_foldl | extract_lets | split

theorem memOk_tick (s : State) (hM : MemOk s) :
    MemOk (State.tick s) := by
  unfold State.tick
  repeat' with_reducible
    first
      | assumption | apply memOk_retry | extract_lets | split | rw [memOk_rec]
end Sys2Proof.Machine
end

