-- ==== Sys2Proof/Laws/PerInstr.lean ====
section
/-! SUPPORT. Encoding and decoding agree, instruction by instruction: the word that an instruction encodes to decodes to
it, with every operand at every value. -/
namespace Sys2Proof.Laws

/-- The word that the instruction encodes to, if it has one, decodes to the instruction. -/
def Encoding.Statement (i : Instr) : Prop := ∀ w, encode i = some w → decodeWord w = some i

theorem of_word {i : Instr} {N : Nat} (h : encodeNat i = some N)
    (k : ∀ n, n = N → decodeWord (BitVec.ofNat 32 n) = some i) : Encoding.Statement i := by
  intro w hw
  unfold encode at hw
  rw [h] at hw
  cases hw
  exact k N rfl

theorem a_lt (a : Src) : a.code < 128 := by
  unfold Src.code
  have := a.n.isLt
  cases a.lu <;> cases a.l <;> simp <;> omega

theorem d_lt (d : Dst) : d.code < 64 := by
  unfold Dst.code
  have := d.dr.isLt
  cases d.nw <;> simp <;> omega

theorem bits_of {n lo k v : Nat} (h : n / 2 ^ lo % 2 ^ k = v) : bits n lo k = v := h

theorem fld_of {n lo k : Nat} {v : BitVec k} (h : n / 2 ^ lo % 2 ^ k = v.toNat) : fld n lo k = v := by
  apply BitVec.eq_of_toNat_eq
  simp [fld, h]

theorem src_of {n lo : Nat} {a : Src} (h : n / 2 ^ lo % 128 = a.code) : src n lo = a := by
  obtain ⟨u, l, r⟩ := a
  have hr := r.isLt
  have h6 : n / 2 ^ (lo + 6) = n / 2 ^ lo / 64 := by rw [Nat.pow_add, ← Nat.div_div_eq_div_mul]
  have h5 : n / 2 ^ (lo + 5) = n / 2 ^ lo / 32 := by rw [Nat.pow_add, ← Nat.div_div_eq_div_mul]
  simp only [Src.code] at h
  unfold src bits
  rw [h6, h5]
  clear h6 h5
  generalize n / 2 ^ lo = m at *
  cases u <;> cases l <;> simp at h ⊢ <;>
    exact ⟨by omega, by omega, BitVec.eq_of_toNat_eq (by simp; omega)⟩

theorem dst_of {n : Nat} {d : Dst} (h : n / 2 ^ 18 % 64 = d.code) : dst n = d := by
  obtain ⟨u, r⟩ := d
  have hr := r.isLt
  simp only [Dst.code] at h
  unfold dst bits
  cases u <;> simp at h ⊢ <;> exact ⟨by omega, BitVec.eq_of_toNat_eq (by simp; omega)⟩

theorem bits_word {n hi lo : Nat} (h : n / 2 ^ 24 = hi * 16 + lo) (k : lo < 16) (j : hi < 16) :
    (BitVec.ofNat 32 n).toNat = n ∧ bits n 28 4 = hi ∧ bits n 24 4 = lo := by
  refine ⟨?_, ?_, ?_⟩
  · simp; omega
  · unfold bits; omega
  · unfold bits; omega

theorem word_Control {n lo : Nat} (h : n / 2 ^ 24 = 0 * 16 + lo) (k : lo < 16) :
    decodeWord (BitVec.ofNat 32 n) = decodeControl lo n := by
  obtain ⟨a, b, c⟩ := bits_word h k (by decide)
  simp only [decodeWord, a, b, c]

theorem word_Masks {n lo : Nat} (h : n / 2 ^ 24 = 1 * 16 + lo) (k : lo < 16) :
    decodeWord (BitVec.ofNat 32 n) = decodeMasks lo n := by
  obtain ⟨a, b, c⟩ := bits_word h k (by decide)
  simp only [decodeWord, a, b, c]

theorem word_IntegerA {n lo : Nat} (h : n / 2 ^ 24 = 2 * 16 + lo) (k : lo < 16) :
    decodeWord (BitVec.ofNat 32 n) = decodeIntegerA lo n := by
  obtain ⟨a, b, c⟩ := bits_word h k (by decide)
  simp only [decodeWord, a, b, c]

theorem word_IntegerB {n lo : Nat} (h : n / 2 ^ 24 = 3 * 16 + lo) (k : lo < 16) :
    decodeWord (BitVec.ofNat 32 n) = decodeIntegerB lo n := by
  obtain ⟨a, b, c⟩ := bits_word h k (by decide)
  simp only [decodeWord, a, b, c]

theorem word_Compare {n lo : Nat} (h : n / 2 ^ 24 = 4 * 16 + lo) (k : lo < 16) :
    decodeWord (BitVec.ofNat 32 n) = decodeCompare lo n := by
  obtain ⟨a, b, c⟩ := bits_word h k (by decide)
  simp only [decodeWord, a, b, c]

theorem word_Float {n lo : Nat} (h : n / 2 ^ 24 = 5 * 16 + lo) (k : lo < 16) :
    decodeWord (BitVec.ofNat 32 n) = decodeFloat lo n := by
  obtain ⟨a, b, c⟩ := bits_word h k (by decide)
  simp only [decodeWord, a, b, c]

theorem word_Conversion {n lo : Nat} (h : n / 2 ^ 24 = 6 * 16 + lo) (k : lo < 16) :
    decodeWord (BitVec.ofNat 32 n) = decodeConversion lo n := by
  obtain ⟨a, b, c⟩ := bits_word h k (by decide)
  simp only [decodeWord, a, b, c]

theorem word_Lanes {n lo : Nat} (h : n / 2 ^ 24 = 7 * 16 + lo) (k : lo < 16) :
    decodeWord (BitVec.ofNat 32 n) = decodeLanes lo n := by
  obtain ⟨a, b, c⟩ := bits_word h k (by decide)
  simp only [decodeWord, a, b, c]

theorem word_Matrix {n lo : Nat} (h : n / 2 ^ 24 = 8 * 16 + lo) (k : lo < 16) :
    decodeWord (BitVec.ofNat 32 n) = decodeMatrix lo n := by
  obtain ⟨a, b, c⟩ := bits_word h k (by decide)
  simp only [decodeWord, a, b, c]

theorem word_Ports {n lo : Nat} (h : n / 2 ^ 24 = 9 * 16 + lo) (k : lo < 16) :
    decodeWord (BitVec.ofNat 32 n) = decodePorts lo n := by
  obtain ⟨a, b, c⟩ := bits_word h k (by decide)
  simp only [decodeWord, a, b, c]

theorem word_Scratchpad {n lo : Nat} (h : n / 2 ^ 24 = 10 * 16 + lo) (k : lo < 16) :
    decodeWord (BitVec.ofNat 32 n) = decodeScratchpad lo n := by
  obtain ⟨a, b, c⟩ := bits_word h k (by decide)
  simp only [decodeWord, a, b, c]

theorem word_Global {n lo : Nat} (h : n / 2 ^ 24 = 11 * 16 + lo) (k : lo < 16) :
    decodeWord (BitVec.ofNat 32 n) = decodeGlobal lo n := by
  obtain ⟨a, b, c⟩ := bits_word h k (by decide)
  simp only [decodeWord, a, b, c]

theorem word_Fences {n lo : Nat} (h : n / 2 ^ 24 = 12 * 16 + lo) (k : lo < 16) :
    decodeWord (BitVec.ofNat 32 n) = decodeFences lo n := by
  obtain ⟨a, b, c⟩ := bits_word h k (by decide)
  simp only [decodeWord, a, b, c]

theorem word_Tasks {n lo : Nat} (h : n / 2 ^ 24 = 13 * 16 + lo) (k : lo < 16) :
    decodeWord (BitVec.ofNat 32 n) = decodeTasks lo n := by
  obtain ⟨a, b, c⟩ := bits_word h k (by decide)
  simp only [decodeWord, a, b, c]

theorem word_System {n lo : Nat} (h : n / 2 ^ 24 = 14 * 16 + lo) (k : lo < 16) :
    decodeWord (BitVec.ofNat 32 n) = decodeSystem lo n := by
  obtain ⟨a, b, c⟩ := bits_word h k (by decide)
  simp only [decodeWord, a, b, c]

theorem word_Prefixes {n lo : Nat} (h : n / 2 ^ 24 = 15 * 16 + lo) (k : lo < 16) :
    decodeWord (BitVec.ofNat 32 n) = decodePrefixes lo n := by
  obtain ⟨a, b, c⟩ := bits_word h k (by decide)
  simp only [decodeWord, a, b, c]

theorem Encoding.nop : Encoding.Statement .nop := by
  exact of_word rfl fun n hn => by subst hn; rfl

theorem Encoding.mod (q : BitVec 1) (s : BitVec 7) (e : BitVec 1) (t : BitVec 4) (r : BitVec 3) (z : BitVec 2) (k : BitVec 3) : Encoding.Statement (.mod q s e t r z k) := by
  refine of_word rfl fun N hn => ?_
  have := q.isLt; have := s.isLt; have := e.isLt; have := t.isLt; have := r.isLt; have := z.isLt; have := k.isLt
  have b0 := bits_of (n := N) (lo := 0) (k := 3) (v := 0) (by omega)
  have e0 := word_Prefixes (n := N) (lo := 0) (by omega) (by decide)
  have e1 := fld_of (n := N) (lo := 23) (v := q) (by omega)
  have e2 := fld_of (n := N) (lo := 16) (v := s) (by omega)
  have e3 := fld_of (n := N) (lo := 15) (v := e) (by omega)
  have e4 := fld_of (n := N) (lo := 11) (v := t) (by omega)
  have e5 := fld_of (n := N) (lo := 8) (v := r) (by omega)
  have e6 := fld_of (n := N) (lo := 6) (v := z) (by omega)
  have e7 := fld_of (n := N) (lo := 3) (v := k) (by omega)
  simp [decodePrefixes, e0, e1, e2, e3, e4, e5, e6, e7, b0]

theorem Encoding.ximm (i : BitVec 24) : Encoding.Statement (.ximm i) := by
  refine of_word rfl fun N hn => ?_
  have := i.isLt
  have e0 := word_Prefixes (n := N) (lo := 8) (by omega) (by decide)
  have e1 := fld_of (n := N) (lo := 0) (v := i) (by omega)
  simp [decodePrefixes, e0, e1]

theorem Encoding.bra (o : BitVec 20) : Encoding.Statement (.bra o) := by
  refine of_word rfl fun N hn => ?_
  have := o.isLt
  have b0 := bits_of (n := N) (lo := 20) (k := 4) (v := 0) (by omega)
  have e0 := word_Control (n := N) (lo := 1) (by omega) (by decide)
  have e1 := fld_of (n := N) (lo := 0) (v := o) (by omega)
  simp [decodeControl, e0, e1, b0]

theorem Encoding.bz (c : BitVec 4) (o : BitVec 20) : Encoding.Statement (.bz c o) := by
  refine of_word rfl fun N hn => ?_
  have := c.isLt; have := o.isLt
  have e0 := word_Control (n := N) (lo := 2) (by omega) (by decide)
  have e1 := fld_of (n := N) (lo := 20) (v := c) (by omega)
  have e2 := fld_of (n := N) (lo := 0) (v := o) (by omega)
  simp [decodeControl, e0, e1, e2]

theorem Encoding.bnz (c : BitVec 4) (o : BitVec 20) : Encoding.Statement (.bnz c o) := by
  refine of_word rfl fun N hn => ?_
  have := c.isLt; have := o.isLt
  have e0 := word_Control (n := N) (lo := 3) (by omega) (by decide)
  have e1 := fld_of (n := N) (lo := 20) (v := c) (by omega)
  have e2 := fld_of (n := N) (lo := 0) (v := o) (by omega)
  simp [decodeControl, e0, e1, e2]

theorem Encoding.brd (m : BitVec 3) (o : BitVec 20) : Encoding.Statement (.brd m o) := by
  refine of_word rfl fun N hn => ?_
  have := m.isLt; have := o.isLt
  have b0 := bits_of (n := N) (lo := 23) (k := 1) (v := 0) (by omega)
  have e0 := word_Control (n := N) (lo := 4) (by omega) (by decide)
  have e1 := fld_of (n := N) (lo := 20) (v := m) (by omega)
  have e2 := fld_of (n := N) (lo := 0) (v := o) (by omega)
  simp [decodeControl, e0, e1, e2, b0]

theorem Encoding.brdn (m : BitVec 3) (o : BitVec 20) : Encoding.Statement (.brdn m o) := by
  refine of_word rfl fun N hn => ?_
  have := m.isLt; have := o.isLt
  have b0 := bits_of (n := N) (lo := 23) (k := 1) (v := 1) (by omega)
  have e0 := word_Control (n := N) (lo := 4) (by omega) (by decide)
  have e1 := fld_of (n := N) (lo := 20) (v := m) (by omega)
  have e2 := fld_of (n := N) (lo := 0) (v := o) (by omega)
  simp [decodeControl, e0, e1, e2, b0]

theorem Encoding.jset (o : BitVec 20) : Encoding.Statement (.jset o) := by
  refine of_word rfl fun N hn => ?_
  have := o.isLt
  have b0 := bits_of (n := N) (lo := 20) (k := 4) (v := 0) (by omega)
  have e0 := word_Control (n := N) (lo := 5) (by omega) (by decide)
  have e1 := fld_of (n := N) (lo := 0) (v := o) (by omega)
  simp [decodeControl, e0, e1, b0]

theorem Encoding.join : Encoding.Statement .join := by
  refine of_word rfl fun N hn => ?_
  have b0 := bits_of (n := N) (lo := 0) (k := 24) (v := 0) (by omega)
  have e0 := word_Control (n := N) (lo := 6) (by omega) (by decide)
  simp [decodeControl, e0, b0]

theorem Encoding.jmp (a : Src) : Encoding.Statement (.jmp a) := by
  refine of_word rfl fun N hn => ?_
  have := a_lt a
  have b0 := bits_of (n := N) (lo := 0) (k := 11) (v := 0) (by omega)
  have b1 := bits_of (n := N) (lo := 18) (k := 6) (v := 0) (by omega)
  have e0 := word_Control (n := N) (lo := 7) (by omega) (by decide)
  have e1 := src_of (n := N) (lo := 11) (a := a) (by omega)
  simp [decodeControl, e0, e1, b0, b1]

theorem Encoding.jmpv (a : Src) : Encoding.Statement (.jmpv a) := by
  refine of_word rfl fun N hn => ?_
  have := a_lt a
  have b0 := bits_of (n := N) (lo := 0) (k := 11) (v := 0) (by omega)
  have b1 := bits_of (n := N) (lo := 18) (k := 6) (v := 0) (by omega)
  have e0 := word_Control (n := N) (lo := 8) (by omega) (by decide)
  have e1 := src_of (n := N) (lo := 11) (a := a) (by omega)
  simp [decodeControl, e0, e1, b0, b1]

theorem Encoding.call (o : BitVec 20) : Encoding.Statement (.call o) := by
  refine of_word rfl fun N hn => ?_
  have := o.isLt
  have b0 := bits_of (n := N) (lo := 20) (k := 4) (v := 0) (by omega)
  have e0 := word_Control (n := N) (lo := 9) (by omega) (by decide)
  have e1 := fld_of (n := N) (lo := 0) (v := o) (by omega)
  simp [decodeControl, e0, e1, b0]

theorem Encoding.callr (a : Src) : Encoding.Statement (.callr a) := by
  refine of_word rfl fun N hn => ?_
  have := a_lt a
  have b0 := bits_of (n := N) (lo := 0) (k := 11) (v := 0) (by omega)
  have b1 := bits_of (n := N) (lo := 18) (k := 6) (v := 0) (by omega)
  have e0 := word_Control (n := N) (lo := 10) (by omega) (by decide)
  have e1 := src_of (n := N) (lo := 11) (a := a) (by omega)
  simp [decodeControl, e0, e1, b0, b1]

theorem Encoding.ret (a : Src) : Encoding.Statement (.ret a) := by
  refine of_word rfl fun N hn => ?_
  have := a_lt a
  have b0 := bits_of (n := N) (lo := 0) (k := 11) (v := 0) (by omega)
  have b1 := bits_of (n := N) (lo := 18) (k := 6) (v := 0) (by omega)
  have e0 := word_Control (n := N) (lo := 11) (by omega) (by decide)
  have e1 := src_of (n := N) (lo := 11) (a := a) (by omega)
  simp [decodeControl, e0, e1, b0, b1]

theorem Encoding.exit : Encoding.Statement .exit := by
  refine of_word rfl fun N hn => ?_
  have b0 := bits_of (n := N) (lo := 0) (k := 24) (v := 0) (by omega)
  have e0 := word_Control (n := N) (lo := 12) (by omega) (by decide)
  simp [decodeControl, e0, b0]

theorem Encoding.loop (c : BitVec 4) (o : BitVec 20) : Encoding.Statement (.loop c o) := by
  refine of_word rfl fun N hn => ?_
  have := c.isLt; have := o.isLt
  have e0 := word_Control (n := N) (lo := 13) (by omega) (by decide)
  have e1 := fld_of (n := N) (lo := 20) (v := c) (by omega)
  have e2 := fld_of (n := N) (lo := 0) (v := o) (by omega)
  simp [decodeControl, e0, e1, e2]

theorem Encoding.brk (k : BitVec 4) : Encoding.Statement (.brk k) := by
  refine of_word rfl fun N hn => ?_
  have := k.isLt
  have b0 := bits_of (n := N) (lo := 4) (k := 20) (v := 0) (by omega)
  have e0 := word_Control (n := N) (lo := 14) (by omega) (by decide)
  have e1 := fld_of (n := N) (lo := 0) (v := k) (by omega)
  simp [decodeControl, e0, e1, b0]

theorem Encoding.pushp (a : BitVec 3) : Encoding.Statement (.pushp a) := by
  refine of_word rfl fun N hn => ?_
  have := a.isLt
  have b0 := bits_of (n := N) (lo := 0) (k := 11) (v := 0) (by omega)
  have b1 := bits_of (n := N) (lo := 14) (k := 10) (v := 0) (by omega)
  have e0 := word_Masks (n := N) (lo := 0) (by omega) (by decide)
  have e1 := fld_of (n := N) (lo := 11) (v := a) (by omega)
  simp [decodeMasks, e0, e1, b0, b1]

theorem Encoding.pushpn (a : BitVec 3) : Encoding.Statement (.pushpn a) := by
  refine of_word rfl fun N hn => ?_
  have := a.isLt
  have b0 := bits_of (n := N) (lo := 0) (k := 11) (v := 1) (by omega)
  have b1 := bits_of (n := N) (lo := 14) (k := 10) (v := 0) (by omega)
  have e0 := word_Masks (n := N) (lo := 0) (by omega) (by decide)
  have e1 := fld_of (n := N) (lo := 11) (v := a) (by omega)
  simp [decodeMasks, e0, e1, b0, b1]

theorem Encoding.pushm (a : BitVec 3) : Encoding.Statement (.pushm a) := by
  refine of_word rfl fun N hn => ?_
  have := a.isLt
  have b0 := bits_of (n := N) (lo := 0) (k := 11) (v := 0) (by omega)
  have b1 := bits_of (n := N) (lo := 14) (k := 10) (v := 0) (by omega)
  have e0 := word_Masks (n := N) (lo := 1) (by omega) (by decide)
  have e1 := fld_of (n := N) (lo := 11) (v := a) (by omega)
  simp [decodeMasks, e0, e1, b0, b1]

theorem Encoding.invp : Encoding.Statement .invp := by
  refine of_word rfl fun N hn => ?_
  have b0 := bits_of (n := N) (lo := 0) (k := 24) (v := 0) (by omega)
  have e0 := word_Masks (n := N) (lo := 2) (by omega) (by decide)
  simp [decodeMasks, e0, b0]

theorem Encoding.popp : Encoding.Statement .popp := by
  refine of_word rfl fun N hn => ?_
  have b0 := bits_of (n := N) (lo := 0) (k := 24) (v := 0) (by omega)
  have e0 := word_Masks (n := N) (lo := 3) (by omega) (by decide)
  simp [decodeMasks, e0, b0]

theorem Encoding.mset (d : BitVec 3) (k : BitVec 2) : Encoding.Statement (.mset d k) := by
  refine of_word rfl fun N hn => ?_
  have := d.isLt; have := k.isLt
  have b0 := bits_of (n := N) (lo := 2) (k := 16) (v := 0) (by omega)
  have b1 := bits_of (n := N) (lo := 21) (k := 3) (v := 0) (by omega)
  have e0 := word_Masks (n := N) (lo := 4) (by omega) (by decide)
  have e1 := fld_of (n := N) (lo := 18) (v := d) (by omega)
  have e2 := fld_of (n := N) (lo := 0) (v := k) (by omega)
  simp [decodeMasks, e0, e1, e2, b0, b1]

theorem Encoding.mlog (d : BitVec 3) (a : BitVec 3) (b : BitVec 3) (f : BitVec 4) : Encoding.Statement (.mlog d a b f) := by
  refine of_word rfl fun N hn => ?_
  have := d.isLt; have := a.isLt; have := b.isLt; have := f.isLt
  have b0 := bits_of (n := N) (lo := 14) (k := 4) (v := 0) (by omega)
  have b1 := bits_of (n := N) (lo := 21) (k := 3) (v := 0) (by omega)
  have b2 := bits_of (n := N) (lo := 7) (k := 4) (v := 0) (by omega)
  have e0 := word_Masks (n := N) (lo := 5) (by omega) (by decide)
  have e1 := fld_of (n := N) (lo := 18) (v := d) (by omega)
  have e2 := fld_of (n := N) (lo := 11) (v := a) (by omega)
  have e3 := fld_of (n := N) (lo := 4) (v := b) (by omega)
  have e4 := fld_of (n := N) (lo := 0) (v := f) (by omega)
  simp [decodeMasks, e0, e1, e2, e3, e4, b0, b1, b2]

theorem Encoding.mcnt (d : Dst) (a : BitVec 3) : Encoding.Statement (.mcnt d a) := by
  refine of_word rfl fun N hn => ?_
  have := d_lt d; have := a.isLt
  have b0 := bits_of (n := N) (lo := 0) (k := 11) (v := 0) (by omega)
  have b1 := bits_of (n := N) (lo := 14) (k := 4) (v := 0) (by omega)
  have e0 := word_Masks (n := N) (lo := 6) (by omega) (by decide)
  have e1 := dst_of (n := N) (d := d) (by omega)
  have e2 := fld_of (n := N) (lo := 11) (v := a) (by omega)
  simp [decodeMasks, e0, e1, e2, b0, b1]

theorem Encoding.mfst (d : Dst) (a : BitVec 3) : Encoding.Statement (.mfst d a) := by
  refine of_word rfl fun N hn => ?_
  have := d_lt d; have := a.isLt
  have b0 := bits_of (n := N) (lo := 0) (k := 11) (v := 0) (by omega)
  have b1 := bits_of (n := N) (lo := 14) (k := 4) (v := 0) (by omega)
  have e0 := word_Masks (n := N) (lo := 7) (by omega) (by decide)
  have e1 := dst_of (n := N) (d := d) (by omega)
  have e2 := fld_of (n := N) (lo := 11) (v := a) (by omega)
  simp [decodeMasks, e0, e1, e2, b0, b1]

theorem Encoding.mtos (d : Dst) (a : BitVec 3) : Encoding.Statement (.mtos d a) := by
  refine of_word rfl fun N hn => ?_
  have := d_lt d; have := a.isLt
  have b0 := bits_of (n := N) (lo := 0) (k := 11) (v := 0) (by omega)
  have b1 := bits_of (n := N) (lo := 14) (k := 4) (v := 0) (by omega)
  have e0 := word_Masks (n := N) (lo := 8) (by omega) (by decide)
  have e1 := dst_of (n := N) (d := d) (by omega)
  have e2 := fld_of (n := N) (lo := 11) (v := a) (by omega)
  simp [decodeMasks, e0, e1, e2, b0, b1]

theorem Encoding.stom (d : BitVec 3) (a : Src) : Encoding.Statement (.stom d a) := by
  refine of_word rfl fun N hn => ?_
  have := d.isLt; have := a_lt a
  have b0 := bits_of (n := N) (lo := 0) (k := 11) (v := 0) (by omega)
  have b1 := bits_of (n := N) (lo := 21) (k := 3) (v := 0) (by omega)
  have e0 := word_Masks (n := N) (lo := 9) (by omega) (by decide)
  have e1 := fld_of (n := N) (lo := 18) (v := d) (by omega)
  have e2 := src_of (n := N) (lo := 11) (a := a) (by omega)
  simp [decodeMasks, e0, e1, e2, b0, b1]

theorem Encoding.many (d : Dst) (a : BitVec 3) : Encoding.Statement (.many d a) := by
  refine of_word rfl fun N hn => ?_
  have := d_lt d; have := a.isLt
  have b0 := bits_of (n := N) (lo := 0) (k := 11) (v := 0) (by omega)
  have b1 := bits_of (n := N) (lo := 14) (k := 4) (v := 0) (by omega)
  have e0 := word_Masks (n := N) (lo := 10) (by omega) (by decide)
  have e1 := dst_of (n := N) (d := d) (by omega)
  have e2 := fld_of (n := N) (lo := 11) (v := a) (by omega)
  simp [decodeMasks, e0, e1, e2, b0, b1]

theorem Encoding.mall (d : Dst) (a : BitVec 3) : Encoding.Statement (.mall d a) := by
  refine of_word rfl fun N hn => ?_
  have := d_lt d; have := a.isLt
  have b0 := bits_of (n := N) (lo := 0) (k := 11) (v := 0) (by omega)
  have b1 := bits_of (n := N) (lo := 14) (k := 4) (v := 0) (by omega)
  have e0 := word_Masks (n := N) (lo := 11) (by omega) (by decide)
  have e1 := dst_of (n := N) (d := d) (by omega)
  have e2 := fld_of (n := N) (lo := 11) (v := a) (by omega)
  simp [decodeMasks, e0, e1, e2, b0, b1]

theorem Encoding.mspill (a : Src) : Encoding.Statement (.mspill a) := by
  refine of_word rfl fun N hn => ?_
  have := a_lt a
  have b0 := bits_of (n := N) (lo := 0) (k := 11) (v := 0) (by omega)
  have b1 := bits_of (n := N) (lo := 18) (k := 6) (v := 0) (by omega)
  have e0 := word_Masks (n := N) (lo := 12) (by omega) (by decide)
  have e1 := src_of (n := N) (lo := 11) (a := a) (by omega)
  simp [decodeMasks, e0, e1, b0, b1]

theorem Encoding.mfill (a : Src) (n : BitVec 4) : Encoding.Statement (.mfill a n) := by
  refine of_word rfl fun N hn => ?_
  have := a_lt a; have := n.isLt
  have b0 := bits_of (n := N) (lo := 18) (k := 6) (v := 0) (by omega)
  have b1 := bits_of (n := N) (lo := 4) (k := 7) (v := 0) (by omega)
  have e0 := word_Masks (n := N) (lo := 13) (by omega) (by decide)
  have e1 := src_of (n := N) (lo := 11) (a := a) (by omega)
  have e2 := fld_of (n := N) (lo := 0) (v := n) (by omega)
  simp [decodeMasks, e0, e1, e2, b0, b1]

theorem Encoding.add (d : Dst) (a : Src) (b : Src) : Encoding.Statement (.add d a b) := by
  refine of_word rfl fun N hn => ?_
  have := d_lt d; have := a_lt a; have := a_lt b
  have b0 := bits_of (n := N) (lo := 0) (k := 4) (v := 0) (by omega)
  have e0 := word_IntegerA (n := N) (lo := 0) (by omega) (by decide)
  have e1 := dst_of (n := N) (d := d) (by omega)
  have e2 := src_of (n := N) (lo := 11) (a := a) (by omega)
  have e3 := src_of (n := N) (lo := 4) (a := b) (by omega)
  simp [decodeIntegerA, e0, e1, e2, e3, b0]

theorem Encoding.sub (d : Dst) (a : Src) (b : Src) : Encoding.Statement (.sub d a b) := by
  refine of_word rfl fun N hn => ?_
  have := d_lt d; have := a_lt a; have := a_lt b
  have b0 := bits_of (n := N) (lo := 0) (k := 4) (v := 0) (by omega)
  have e0 := word_IntegerA (n := N) (lo := 1) (by omega) (by decide)
  have e1 := dst_of (n := N) (d := d) (by omega)
  have e2 := src_of (n := N) (lo := 11) (a := a) (by omega)
  have e3 := src_of (n := N) (lo := 4) (a := b) (by omega)
  simp [decodeIntegerA, e0, e1, e2, e3, b0]

theorem Encoding.mul (d : Dst) (a : Src) (b : Src) : Encoding.Statement (.mul d a b) := by
  refine of_word rfl fun N hn => ?_
  have := d_lt d; have := a_lt a; have := a_lt b
  have b0 := bits_of (n := N) (lo := 0) (k := 4) (v := 0) (by omega)
  have e0 := word_IntegerA (n := N) (lo := 2) (by omega) (by decide)
  have e1 := dst_of (n := N) (d := d) (by omega)
  have e2 := src_of (n := N) (lo := 11) (a := a) (by omega)
  have e3 := src_of (n := N) (lo := 4) (a := b) (by omega)
  simp [decodeIntegerA, e0, e1, e2, e3, b0]

theorem Encoding.mulh (d : Dst) (a : Src) (b : Src) : Encoding.Statement (.mulh d a b) := by
  refine of_word rfl fun N hn => ?_
  have := d_lt d; have := a_lt a; have := a_lt b
  have b0 := bits_of (n := N) (lo := 0) (k := 4) (v := 0) (by omega)
  have e0 := word_IntegerA (n := N) (lo := 3) (by omega) (by decide)
  have e1 := dst_of (n := N) (d := d) (by omega)
  have e2 := src_of (n := N) (lo := 11) (a := a) (by omega)
  have e3 := src_of (n := N) (lo := 4) (a := b) (by omega)
  simp [decodeIntegerA, e0, e1, e2, e3, b0]

theorem Encoding.min (d : Dst) (a : Src) (b : Src) : Encoding.Statement (.min d a b) := by
  refine of_word rfl fun N hn => ?_
  have := d_lt d; have := a_lt a; have := a_lt b
  have b0 := bits_of (n := N) (lo := 0) (k := 4) (v := 0) (by omega)
  have e0 := word_IntegerA (n := N) (lo := 4) (by omega) (by decide)
  have e1 := dst_of (n := N) (d := d) (by omega)
  have e2 := src_of (n := N) (lo := 11) (a := a) (by omega)
  have e3 := src_of (n := N) (lo := 4) (a := b) (by omega)
  simp [decodeIntegerA, e0, e1, e2, e3, b0]

theorem Encoding.max (d : Dst) (a : Src) (b : Src) : Encoding.Statement (.max d a b) := by
  refine of_word rfl fun N hn => ?_
  have := d_lt d; have := a_lt a; have := a_lt b
  have b0 := bits_of (n := N) (lo := 0) (k := 4) (v := 0) (by omega)
  have e0 := word_IntegerA (n := N) (lo := 5) (by omega) (by decide)
  have e1 := dst_of (n := N) (d := d) (by omega)
  have e2 := src_of (n := N) (lo := 11) (a := a) (by omega)
  have e3 := src_of (n := N) (lo := 4) (a := b) (by omega)
  simp [decodeIntegerA, e0, e1, e2, e3, b0]

theorem Encoding.abs (d : Dst) (a : Src) : Encoding.Statement (.abs d a) := by
  refine of_word rfl fun N hn => ?_
  have := d_lt d; have := a_lt a
  have b0 := bits_of (n := N) (lo := 0) (k := 11) (v := 0) (by omega)
  have e0 := word_IntegerA (n := N) (lo := 6) (by omega) (by decide)
  have e1 := dst_of (n := N) (d := d) (by omega)
  have e2 := src_of (n := N) (lo := 11) (a := a) (by omega)
  simp [decodeIntegerA, e0, e1, e2, b0]

theorem Encoding.neg (d : Dst) (a : Src) : Encoding.Statement (.neg d a) := by
  refine of_word rfl fun N hn => ?_
  have := d_lt d; have := a_lt a
  have b0 := bits_of (n := N) (lo := 0) (k := 11) (v := 0) (by omega)
  have e0 := word_IntegerA (n := N) (lo := 7) (by omega) (by decide)
  have e1 := dst_of (n := N) (d := d) (by omega)
  have e2 := src_of (n := N) (lo := 11) (a := a) (by omega)
  simp [decodeIntegerA, e0, e1, e2, b0]

theorem Encoding.and (d : Dst) (a : Src) (b : Src) : Encoding.Statement (.and d a b) := by
  refine of_word rfl fun N hn => ?_
  have := d_lt d; have := a_lt a; have := a_lt b
  have b0 := bits_of (n := N) (lo := 0) (k := 4) (v := 0) (by omega)
  have e0 := word_IntegerA (n := N) (lo := 8) (by omega) (by decide)
  have e1 := dst_of (n := N) (d := d) (by omega)
  have e2 := src_of (n := N) (lo := 11) (a := a) (by omega)
  have e3 := src_of (n := N) (lo := 4) (a := b) (by omega)
  simp [decodeIntegerA, e0, e1, e2, e3, b0]

theorem Encoding.or (d : Dst) (a : Src) (b : Src) : Encoding.Statement (.or d a b) := by
  refine of_word rfl fun N hn => ?_
  have := d_lt d; have := a_lt a; have := a_lt b
  have b0 := bits_of (n := N) (lo := 0) (k := 4) (v := 0) (by omega)
  have e0 := word_IntegerA (n := N) (lo := 9) (by omega) (by decide)
  have e1 := dst_of (n := N) (d := d) (by omega)
  have e2 := src_of (n := N) (lo := 11) (a := a) (by omega)
  have e3 := src_of (n := N) (lo := 4) (a := b) (by omega)
  simp [decodeIntegerA, e0, e1, e2, e3, b0]

theorem Encoding.xor (d : Dst) (a : Src) (b : Src) : Encoding.Statement (.xor d a b) := by
  refine of_word rfl fun N hn => ?_
  have := d_lt d; have := a_lt a; have := a_lt b
  have b0 := bits_of (n := N) (lo := 0) (k := 4) (v := 0) (by omega)
  have e0 := word_IntegerA (n := N) (lo := 10) (by omega) (by decide)
  have e1 := dst_of (n := N) (d := d) (by omega)
  have e2 := src_of (n := N) (lo := 11) (a := a) (by omega)
  have e3 := src_of (n := N) (lo := 4) (a := b) (by omega)
  simp [decodeIntegerA, e0, e1, e2, e3, b0]

theorem Encoding.andn (d : Dst) (a : Src) (b : Src) : Encoding.Statement (.andn d a b) := by
  refine of_word rfl fun N hn => ?_
  have := d_lt d; have := a_lt a; have := a_lt b
  have b0 := bits_of (n := N) (lo := 0) (k := 4) (v := 0) (by omega)
  have e0 := word_IntegerA (n := N) (lo := 11) (by omega) (by decide)
  have e1 := dst_of (n := N) (d := d) (by omega)
  have e2 := src_of (n := N) (lo := 11) (a := a) (by omega)
  have e3 := src_of (n := N) (lo := 4) (a := b) (by omega)
  simp [decodeIntegerA, e0, e1, e2, e3, b0]

theorem Encoding.shl (d : Dst) (a : Src) (b : Src) : Encoding.Statement (.shl d a b) := by
  refine of_word rfl fun N hn => ?_
  have := d_lt d; have := a_lt a; have := a_lt b
  have b0 := bits_of (n := N) (lo := 0) (k := 4) (v := 0) (by omega)
  have e0 := word_IntegerA (n := N) (lo := 12) (by omega) (by decide)
  have e1 := dst_of (n := N) (d := d) (by omega)
  have e2 := src_of (n := N) (lo := 11) (a := a) (by omega)
  have e3 := src_of (n := N) (lo := 4) (a := b) (by omega)
  simp [decodeIntegerA, e0, e1, e2, e3, b0]

theorem Encoding.shr (d : Dst) (a : Src) (b : Src) : Encoding.Statement (.shr d a b) := by
  refine of_word rfl fun N hn => ?_
  have := d_lt d; have := a_lt a; have := a_lt b
  have b0 := bits_of (n := N) (lo := 0) (k := 4) (v := 0) (by omega)
  have e0 := word_IntegerA (n := N) (lo := 13) (by omega) (by decide)
  have e1 := dst_of (n := N) (d := d) (by omega)
  have e2 := src_of (n := N) (lo := 11) (a := a) (by omega)
  have e3 := src_of (n := N) (lo := 4) (a := b) (by omega)
  simp [decodeIntegerA, e0, e1, e2, e3, b0]

theorem Encoding.sar (d : Dst) (a : Src) (b : Src) : Encoding.Statement (.sar d a b) := by
  refine of_word rfl fun N hn => ?_
  have := d_lt d; have := a_lt a; have := a_lt b
  have b0 := bits_of (n := N) (lo := 0) (k := 4) (v := 0) (by omega)
  have e0 := word_IntegerA (n := N) (lo := 14) (by omega) (by decide)
  have e1 := dst_of (n := N) (d := d) (by omega)
  have e2 := src_of (n := N) (lo := 11) (a := a) (by omega)
  have e3 := src_of (n := N) (lo := 4) (a := b) (by omega)
  simp [decodeIntegerA, e0, e1, e2, e3, b0]

theorem Encoding.rot (d : Dst) (a : Src) (b : Src) : Encoding.Statement (.rot d a b) := by
  refine of_word rfl fun N hn => ?_
  have := d_lt d; have := a_lt a; have := a_lt b
  have b0 := bits_of (n := N) (lo := 0) (k := 4) (v := 0) (by omega)
  have e0 := word_IntegerA (n := N) (lo := 15) (by omega) (by decide)
  have e1 := dst_of (n := N) (d := d) (by omega)
  have e2 := src_of (n := N) (lo := 11) (a := a) (by omega)
  have e3 := src_of (n := N) (lo := 4) (a := b) (by omega)
  simp [decodeIntegerA, e0, e1, e2, e3, b0]

theorem Encoding.addi (d : Dst) (i : BitVec 18) : Encoding.Statement (.addi d i) := by
  refine of_word rfl fun N hn => ?_
  have := d_lt d; have := i.isLt
  have e0 := word_IntegerB (n := N) (lo := 0) (by omega) (by decide)
  have e1 := dst_of (n := N) (d := d) (by omega)
  have e2 := fld_of (n := N) (lo := 0) (v := i) (by omega)
  simp [decodeIntegerB, e0, e1, e2]

theorem Encoding.li (d : Dst) (i : BitVec 18) : Encoding.Statement (.li d i) := by
  refine of_word rfl fun N hn => ?_
  have := d_lt d; have := i.isLt
  have e0 := word_IntegerB (n := N) (lo := 1) (by omega) (by decide)
  have e1 := dst_of (n := N) (d := d) (by omega)
  have e2 := fld_of (n := N) (lo := 0) (v := i) (by omega)
  simp [decodeIntegerB, e0, e1, e2]

theorem Encoding.lsi (d : Dst) (i : BitVec 18) : Encoding.Statement (.lsi d i) := by
  refine of_word rfl fun N hn => ?_
  have := d_lt d; have := i.isLt
  have e0 := word_IntegerB (n := N) (lo := 2) (by omega) (by decide)
  have e1 := dst_of (n := N) (d := d) (by omega)
  have e2 := fld_of (n := N) (lo := 0) (v := i) (by omega)
  simp [decodeIntegerB, e0, e1, e2]

theorem Encoding.lea (d : Dst) (a : Src) (b : Src) (k : BitVec 4) : Encoding.Statement (.lea d a b k) := by
  refine of_word rfl fun N hn => ?_
  have := d_lt d; have := a_lt a; have := a_lt b; have := k.isLt
  have e0 := word_IntegerB (n := N) (lo := 3) (by omega) (by decide)
  have e1 := dst_of (n := N) (d := d) (by omega)
  have e2 := src_of (n := N) (lo := 11) (a := a) (by omega)
  have e3 := src_of (n := N) (lo := 4) (a := b) (by omega)
  have e4 := fld_of (n := N) (lo := 0) (v := k) (by omega)
  simp [decodeIntegerB, e0, e1, e2, e3, e4]

theorem Encoding.clz (d : Dst) (a : Src) : Encoding.Statement (.clz d a) := by
  refine of_word rfl fun N hn => ?_
  have := d_lt d; have := a_lt a
  have b0 := bits_of (n := N) (lo := 0) (k := 11) (v := 0) (by omega)
  have e0 := word_IntegerB (n := N) (lo := 4) (by omega) (by decide)
  have e1 := dst_of (n := N) (d := d) (by omega)
  have e2 := src_of (n := N) (lo := 11) (a := a) (by omega)
  simp [decodeIntegerB, e0, e1, e2, b0]

theorem Encoding.popc (d : Dst) (a : Src) : Encoding.Statement (.popc d a) := by
  refine of_word rfl fun N hn => ?_
  have := d_lt d; have := a_lt a
  have b0 := bits_of (n := N) (lo := 0) (k := 11) (v := 0) (by omega)
  have e0 := word_IntegerB (n := N) (lo := 5) (by omega) (by decide)
  have e1 := dst_of (n := N) (d := d) (by omega)
  have e2 := src_of (n := N) (lo := 11) (a := a) (by omega)
  simp [decodeIntegerB, e0, e1, e2, b0]

theorem Encoding.brev (d : Dst) (a : Src) : Encoding.Statement (.brev d a) := by
  refine of_word rfl fun N hn => ?_
  have := d_lt d; have := a_lt a
  have b0 := bits_of (n := N) (lo := 0) (k := 11) (v := 0) (by omega)
  have e0 := word_IntegerB (n := N) (lo := 6) (by omega) (by decide)
  have e1 := dst_of (n := N) (d := d) (by omega)
  have e2 := src_of (n := N) (lo := 11) (a := a) (by omega)
  simp [decodeIntegerB, e0, e1, e2, b0]

theorem Encoding.bfx (d : Dst) (a : Src) (b : Src) : Encoding.Statement (.bfx d a b) := by
  refine of_word rfl fun N hn => ?_
  have := d_lt d; have := a_lt a; have := a_lt b
  have b0 := bits_of (n := N) (lo := 0) (k := 4) (v := 0) (by omega)
  have e0 := word_IntegerB (n := N) (lo := 7) (by omega) (by decide)
  have e1 := dst_of (n := N) (d := d) (by omega)
  have e2 := src_of (n := N) (lo := 11) (a := a) (by omega)
  have e3 := src_of (n := N) (lo := 4) (a := b) (by omega)
  simp [decodeIntegerB, e0, e1, e2, e3, b0]

theorem Encoding.bfi (d : Dst) (a : Src) (b : Src) : Encoding.Statement (.bfi d a b) := by
  refine of_word rfl fun N hn => ?_
  have := d_lt d; have := a_lt a; have := a_lt b
  have b0 := bits_of (n := N) (lo := 0) (k := 4) (v := 0) (by omega)
  have e0 := word_IntegerB (n := N) (lo := 8) (by omega) (by decide)
  have e1 := dst_of (n := N) (d := d) (by omega)
  have e2 := src_of (n := N) (lo := 11) (a := a) (by omega)
  have e3 := src_of (n := N) (lo := 4) (a := b) (by omega)
  simp [decodeIntegerB, e0, e1, e2, e3, b0]

theorem Encoding.div (d : Dst) (a : Src) (b : Src) : Encoding.Statement (.div d a b) := by
  refine of_word rfl fun N hn => ?_
  have := d_lt d; have := a_lt a; have := a_lt b
  have b0 := bits_of (n := N) (lo := 0) (k := 4) (v := 0) (by omega)
  have e0 := word_IntegerB (n := N) (lo := 9) (by omega) (by decide)
  have e1 := dst_of (n := N) (d := d) (by omega)
  have e2 := src_of (n := N) (lo := 11) (a := a) (by omega)
  have e3 := src_of (n := N) (lo := 4) (a := b) (by omega)
  simp [decodeIntegerB, e0, e1, e2, e3, b0]

theorem Encoding.rem (d : Dst) (a : Src) (b : Src) : Encoding.Statement (.rem d a b) := by
  refine of_word rfl fun N hn => ?_
  have := d_lt d; have := a_lt a; have := a_lt b
  have b0 := bits_of (n := N) (lo := 0) (k := 4) (v := 0) (by omega)
  have e0 := word_IntegerB (n := N) (lo := 10) (by omega) (by decide)
  have e1 := dst_of (n := N) (d := d) (by omega)
  have e2 := src_of (n := N) (lo := 11) (a := a) (by omega)
  have e3 := src_of (n := N) (lo := 4) (a := b) (by omega)
  simp [decodeIntegerB, e0, e1, e2, e3, b0]

theorem Encoding.mad (d : Dst) (a : Src) (b : Src) : Encoding.Statement (.mad d a b) := by
  refine of_word rfl fun N hn => ?_
  have := d_lt d; have := a_lt a; have := a_lt b
  have b0 := bits_of (n := N) (lo := 0) (k := 4) (v := 0) (by omega)
  have e0 := word_IntegerB (n := N) (lo := 11) (by omega) (by decide)
  have e1 := dst_of (n := N) (d := d) (by omega)
  have e2 := src_of (n := N) (lo := 11) (a := a) (by omega)
  have e3 := src_of (n := N) (lo := 4) (a := b) (by omega)
  simp [decodeIntegerB, e0, e1, e2, e3, b0]

theorem Encoding.sext (d : Dst) (a : Src) (b : Src) : Encoding.Statement (.sext d a b) := by
  refine of_word rfl fun N hn => ?_
  have := d_lt d; have := a_lt a; have := a_lt b
  have b0 := bits_of (n := N) (lo := 0) (k := 4) (v := 0) (by omega)
  have e0 := word_IntegerB (n := N) (lo := 12) (by omega) (by decide)
  have e1 := dst_of (n := N) (d := d) (by omega)
  have e2 := src_of (n := N) (lo := 11) (a := a) (by omega)
  have e3 := src_of (n := N) (lo := 4) (a := b) (by omega)
  simp [decodeIntegerB, e0, e1, e2, e3, b0]

theorem Encoding.zext (d : Dst) (a : Src) (b : Src) : Encoding.Statement (.zext d a b) := by
  refine of_word rfl fun N hn => ?_
  have := d_lt d; have := a_lt a; have := a_lt b
  have b0 := bits_of (n := N) (lo := 0) (k := 4) (v := 0) (by omega)
  have e0 := word_IntegerB (n := N) (lo := 13) (by omega) (by decide)
  have e1 := dst_of (n := N) (d := d) (by omega)
  have e2 := src_of (n := N) (lo := 11) (a := a) (by omega)
  have e3 := src_of (n := N) (lo := 4) (a := b) (by omega)
  simp [decodeIntegerB, e0, e1, e2, e3, b0]

theorem Encoding.cmp (d : Dst) (a : Src) (b : Src) (f : BitVec 4) : Encoding.Statement (.cmp d a b f) := by
  refine of_word rfl fun N hn => ?_
  have := d_lt d; have := a_lt a; have := a_lt b; have := f.isLt
  have e0 := word_Compare (n := N) (lo := 0) (by omega) (by decide)
  have e1 := dst_of (n := N) (d := d) (by omega)
  have e2 := src_of (n := N) (lo := 11) (a := a) (by omega)
  have e3 := src_of (n := N) (lo := 4) (a := b) (by omega)
  have e4 := fld_of (n := N) (lo := 0) (v := f) (by omega)
  simp [decodeCompare, e0, e1, e2, e3, e4]

theorem Encoding.cmpm (d : BitVec 3) (a : Src) (b : Src) (f : BitVec 4) : Encoding.Statement (.cmpm d a b f) := by
  refine of_word rfl fun N hn => ?_
  have := d.isLt; have := a_lt a; have := a_lt b; have := f.isLt
  have b0 := bits_of (n := N) (lo := 21) (k := 3) (v := 0) (by omega)
  have e0 := word_Compare (n := N) (lo := 1) (by omega) (by decide)
  have e1 := fld_of (n := N) (lo := 18) (v := d) (by omega)
  have e2 := src_of (n := N) (lo := 11) (a := a) (by omega)
  have e3 := src_of (n := N) (lo := 4) (a := b) (by omega)
  have e4 := fld_of (n := N) (lo := 0) (v := f) (by omega)
  simp [decodeCompare, e0, e1, e2, e3, e4, b0]

theorem Encoding.sel (d : Dst) (a : Src) (b : Src) (m : BitVec 3) : Encoding.Statement (.sel d a b m) := by
  refine of_word rfl fun N hn => ?_
  have := d_lt d; have := a_lt a; have := a_lt b; have := m.isLt
  have b0 := bits_of (n := N) (lo := 3) (k := 1) (v := 0) (by omega)
  have e0 := word_Compare (n := N) (lo := 2) (by omega) (by decide)
  have e1 := dst_of (n := N) (d := d) (by omega)
  have e2 := src_of (n := N) (lo := 11) (a := a) (by omega)
  have e3 := src_of (n := N) (lo := 4) (a := b) (by omega)
  have e4 := fld_of (n := N) (lo := 0) (v := m) (by omega)
  simp [decodeCompare, e0, e1, e2, e3, e4, b0]

theorem Encoding.clamp (d : Dst) (a : Src) (b : Src) : Encoding.Statement (.clamp d a b) := by
  refine of_word rfl fun N hn => ?_
  have := d_lt d; have := a_lt a; have := a_lt b
  have b0 := bits_of (n := N) (lo := 0) (k := 4) (v := 0) (by omega)
  have e0 := word_Compare (n := N) (lo := 3) (by omega) (by decide)
  have e1 := dst_of (n := N) (d := d) (by omega)
  have e2 := src_of (n := N) (lo := 11) (a := a) (by omega)
  have e3 := src_of (n := N) (lo := 4) (a := b) (by omega)
  simp [decodeCompare, e0, e1, e2, e3, b0]

theorem Encoding.fadd (d : Dst) (a : Src) (b : Src) : Encoding.Statement (.fadd d a b) := by
  refine of_word rfl fun N hn => ?_
  have := d_lt d; have := a_lt a; have := a_lt b
  have b0 := bits_of (n := N) (lo := 0) (k := 4) (v := 0) (by omega)
  have e0 := word_Float (n := N) (lo := 0) (by omega) (by decide)
  have e1 := dst_of (n := N) (d := d) (by omega)
  have e2 := src_of (n := N) (lo := 11) (a := a) (by omega)
  have e3 := src_of (n := N) (lo := 4) (a := b) (by omega)
  simp [decodeFloat, e0, e1, e2, e3, b0]

theorem Encoding.fsub (d : Dst) (a : Src) (b : Src) : Encoding.Statement (.fsub d a b) := by
  refine of_word rfl fun N hn => ?_
  have := d_lt d; have := a_lt a; have := a_lt b
  have b0 := bits_of (n := N) (lo := 0) (k := 4) (v := 0) (by omega)
  have e0 := word_Float (n := N) (lo := 1) (by omega) (by decide)
  have e1 := dst_of (n := N) (d := d) (by omega)
  have e2 := src_of (n := N) (lo := 11) (a := a) (by omega)
  have e3 := src_of (n := N) (lo := 4) (a := b) (by omega)
  simp [decodeFloat, e0, e1, e2, e3, b0]

theorem Encoding.fmul (d : Dst) (a : Src) (b : Src) : Encoding.Statement (.fmul d a b) := by
  refine of_word rfl fun N hn => ?_
  have := d_lt d; have := a_lt a; have := a_lt b
  have b0 := bits_of (n := N) (lo := 0) (k := 4) (v := 0) (by omega)
  have e0 := word_Float (n := N) (lo := 2) (by omega) (by decide)
  have e1 := dst_of (n := N) (d := d) (by omega)
  have e2 := src_of (n := N) (lo := 11) (a := a) (by omega)
  have e3 := src_of (n := N) (lo := 4) (a := b) (by omega)
  simp [decodeFloat, e0, e1, e2, e3, b0]

theorem Encoding.fma (d : Dst) (a : Src) (b : Src) : Encoding.Statement (.fma d a b) := by
  refine of_word rfl fun N hn => ?_
  have := d_lt d; have := a_lt a; have := a_lt b
  have b0 := bits_of (n := N) (lo := 0) (k := 4) (v := 0) (by omega)
  have e0 := word_Float (n := N) (lo := 3) (by omega) (by decide)
  have e1 := dst_of (n := N) (d := d) (by omega)
  have e2 := src_of (n := N) (lo := 11) (a := a) (by omega)
  have e3 := src_of (n := N) (lo := 4) (a := b) (by omega)
  simp [decodeFloat, e0, e1, e2, e3, b0]

theorem Encoding.fnma (d : Dst) (a : Src) (b : Src) : Encoding.Statement (.fnma d a b) := by
  refine of_word rfl fun N hn => ?_
  have := d_lt d; have := a_lt a; have := a_lt b
  have b0 := bits_of (n := N) (lo := 0) (k := 4) (v := 0) (by omega)
  have e0 := word_Float (n := N) (lo := 4) (by omega) (by decide)
  have e1 := dst_of (n := N) (d := d) (by omega)
  have e2 := src_of (n := N) (lo := 11) (a := a) (by omega)
  have e3 := src_of (n := N) (lo := 4) (a := b) (by omega)
  simp [decodeFloat, e0, e1, e2, e3, b0]

theorem Encoding.fmin (d : Dst) (a : Src) (b : Src) : Encoding.Statement (.fmin d a b) := by
  refine of_word rfl fun N hn => ?_
  have := d_lt d; have := a_lt a; have := a_lt b
  have b0 := bits_of (n := N) (lo := 0) (k := 4) (v := 0) (by omega)
  have e0 := word_Float (n := N) (lo := 5) (by omega) (by decide)
  have e1 := dst_of (n := N) (d := d) (by omega)
  have e2 := src_of (n := N) (lo := 11) (a := a) (by omega)
  have e3 := src_of (n := N) (lo := 4) (a := b) (by omega)
  simp [decodeFloat, e0, e1, e2, e3, b0]

theorem Encoding.fmax (d : Dst) (a : Src) (b : Src) : Encoding.Statement (.fmax d a b) := by
  refine of_word rfl fun N hn => ?_
  have := d_lt d; have := a_lt a; have := a_lt b
  have b0 := bits_of (n := N) (lo := 0) (k := 4) (v := 0) (by omega)
  have e0 := word_Float (n := N) (lo := 6) (by omega) (by decide)
  have e1 := dst_of (n := N) (d := d) (by omega)
  have e2 := src_of (n := N) (lo := 11) (a := a) (by omega)
  have e3 := src_of (n := N) (lo := 4) (a := b) (by omega)
  simp [decodeFloat, e0, e1, e2, e3, b0]

theorem Encoding.fneg (d : Dst) (a : Src) : Encoding.Statement (.fneg d a) := by
  refine of_word rfl fun N hn => ?_
  have := d_lt d; have := a_lt a
  have b0 := bits_of (n := N) (lo := 0) (k := 11) (v := 0) (by omega)
  have e0 := word_Float (n := N) (lo := 7) (by omega) (by decide)
  have e1 := dst_of (n := N) (d := d) (by omega)
  have e2 := src_of (n := N) (lo := 11) (a := a) (by omega)
  simp [decodeFloat, e0, e1, e2, b0]

theorem Encoding.fabs (d : Dst) (a : Src) : Encoding.Statement (.fabs d a) := by
  refine of_word rfl fun N hn => ?_
  have := d_lt d; have := a_lt a
  have b0 := bits_of (n := N) (lo := 0) (k := 11) (v := 1) (by omega)
  have e0 := word_Float (n := N) (lo := 7) (by omega) (by decide)
  have e1 := dst_of (n := N) (d := d) (by omega)
  have e2 := src_of (n := N) (lo := 11) (a := a) (by omega)
  simp [decodeFloat, e0, e1, e2, b0]

theorem Encoding.fdiv (d : Dst) (a : Src) (b : Src) : Encoding.Statement (.fdiv d a b) := by
  refine of_word rfl fun N hn => ?_
  have := d_lt d; have := a_lt a; have := a_lt b
  have b0 := bits_of (n := N) (lo := 0) (k := 4) (v := 0) (by omega)
  have e0 := word_Float (n := N) (lo := 8) (by omega) (by decide)
  have e1 := dst_of (n := N) (d := d) (by omega)
  have e2 := src_of (n := N) (lo := 11) (a := a) (by omega)
  have e3 := src_of (n := N) (lo := 4) (a := b) (by omega)
  simp [decodeFloat, e0, e1, e2, e3, b0]

theorem Encoding.fsqrt (d : Dst) (a : Src) : Encoding.Statement (.fsqrt d a) := by
  refine of_word rfl fun N hn => ?_
  have := d_lt d; have := a_lt a
  have b0 := bits_of (n := N) (lo := 0) (k := 11) (v := 0) (by omega)
  have e0 := word_Float (n := N) (lo := 9) (by omega) (by decide)
  have e1 := dst_of (n := N) (d := d) (by omega)
  have e2 := src_of (n := N) (lo := 11) (a := a) (by omega)
  simp [decodeFloat, e0, e1, e2, b0]

theorem Encoding.fexp2 (d : Dst) (a : Src) : Encoding.Statement (.fexp2 d a) := by
  refine of_word rfl fun N hn => ?_
  have := d_lt d; have := a_lt a
  have b0 := bits_of (n := N) (lo := 0) (k := 11) (v := 0) (by omega)
  have e0 := word_Float (n := N) (lo := 10) (by omega) (by decide)
  have e1 := dst_of (n := N) (d := d) (by omega)
  have e2 := src_of (n := N) (lo := 11) (a := a) (by omega)
  simp [decodeFloat, e0, e1, e2, b0]

theorem Encoding.flog2 (d : Dst) (a : Src) : Encoding.Statement (.flog2 d a) := by
  refine of_word rfl fun N hn => ?_
  have := d_lt d; have := a_lt a
  have b0 := bits_of (n := N) (lo := 0) (k := 11) (v := 0) (by omega)
  have e0 := word_Float (n := N) (lo := 11) (by omega) (by decide)
  have e1 := dst_of (n := N) (d := d) (by omega)
  have e2 := src_of (n := N) (lo := 11) (a := a) (by omega)
  simp [decodeFloat, e0, e1, e2, b0]

theorem Encoding.frsq (d : Dst) (a : Src) : Encoding.Statement (.frsq d a) := by
  refine of_word rfl fun N hn => ?_
  have := d_lt d; have := a_lt a
  have b0 := bits_of (n := N) (lo := 0) (k := 11) (v := 0) (by omega)
  have e0 := word_Float (n := N) (lo := 12) (by omega) (by decide)
  have e1 := dst_of (n := N) (d := d) (by omega)
  have e2 := src_of (n := N) (lo := 11) (a := a) (by omega)
  simp [decodeFloat, e0, e1, e2, b0]

theorem Encoding.ftanh (d : Dst) (a : Src) : Encoding.Statement (.ftanh d a) := by
  refine of_word rfl fun N hn => ?_
  have := d_lt d; have := a_lt a
  have b0 := bits_of (n := N) (lo := 0) (k := 11) (v := 0) (by omega)
  have e0 := word_Float (n := N) (lo := 13) (by omega) (by decide)
  have e1 := dst_of (n := N) (d := d) (by omega)
  have e2 := src_of (n := N) (lo := 11) (a := a) (by omega)
  simp [decodeFloat, e0, e1, e2, b0]

theorem Encoding.fsigm (d : Dst) (a : Src) : Encoding.Statement (.fsigm d a) := by
  refine of_word rfl fun N hn => ?_
  have := d_lt d; have := a_lt a
  have b0 := bits_of (n := N) (lo := 0) (k := 11) (v := 0) (by omega)
  have e0 := word_Float (n := N) (lo := 14) (by omega) (by decide)
  have e1 := dst_of (n := N) (d := d) (by omega)
  have e2 := src_of (n := N) (lo := 11) (a := a) (by omega)
  simp [decodeFloat, e0, e1, e2, b0]

theorem Encoding.fclass (d : Dst) (a : Src) : Encoding.Statement (.fclass d a) := by
  refine of_word rfl fun N hn => ?_
  have := d_lt d; have := a_lt a
  have b0 := bits_of (n := N) (lo := 0) (k := 11) (v := 0) (by omega)
  have e0 := word_Float (n := N) (lo := 15) (by omega) (by decide)
  have e1 := dst_of (n := N) (d := d) (by omega)
  have e2 := src_of (n := N) (lo := 11) (a := a) (by omega)
  simp [decodeFloat, e0, e1, e2, b0]

theorem Encoding.cvt (d : Dst) (a : Src) (b : Src) (s : BitVec 4) : Encoding.Statement (.cvt d a b s) := by
  refine of_word rfl fun N hn => ?_
  have := d_lt d; have := a_lt a; have := a_lt b; have := s.isLt
  have e0 := word_Conversion (n := N) (lo := 0) (by omega) (by decide)
  have e1 := dst_of (n := N) (d := d) (by omega)
  have e2 := src_of (n := N) (lo := 11) (a := a) (by omega)
  have e3 := src_of (n := N) (lo := 4) (a := b) (by omega)
  have e4 := fld_of (n := N) (lo := 0) (v := s) (by omega)
  simp [decodeConversion, e0, e1, e2, e3, e4]

theorem Encoding.qcb (d : Dst) (a : Src) (b : Src) (n : BitVec 2) : Encoding.Statement (.qcb d a b n) := by
  refine of_word rfl fun N hn => ?_
  have := d_lt d; have := a_lt a; have := a_lt b; have := n.isLt
  have b0 := bits_of (n := N) (lo := 2) (k := 2) (v := 0) (by omega)
  have e0 := word_Conversion (n := N) (lo := 1) (by omega) (by decide)
  have e1 := dst_of (n := N) (d := d) (by omega)
  have e2 := src_of (n := N) (lo := 11) (a := a) (by omega)
  have e3 := src_of (n := N) (lo := 4) (a := b) (by omega)
  have e4 := fld_of (n := N) (lo := 0) (v := n) (by omega)
  simp [decodeConversion, e0, e1, e2, e3, e4, b0]

theorem Encoding.dqcb (d : Dst) (a : Src) (b : Src) (n : BitVec 2) : Encoding.Statement (.dqcb d a b n) := by
  refine of_word rfl fun N hn => ?_
  have := d_lt d; have := a_lt a; have := a_lt b; have := n.isLt
  have b0 := bits_of (n := N) (lo := 2) (k := 2) (v := 0) (by omega)
  have e0 := word_Conversion (n := N) (lo := 2) (by omega) (by decide)
  have e1 := dst_of (n := N) (d := d) (by omega)
  have e2 := src_of (n := N) (lo := 11) (a := a) (by omega)
  have e3 := src_of (n := N) (lo := 4) (a := b) (by omega)
  have e4 := fld_of (n := N) (lo := 0) (v := n) (by omega)
  simp [decodeConversion, e0, e1, e2, e3, e4, b0]

theorem Encoding.pack (d : Dst) (a : Src) (b : Src) (s : BitVec 4) : Encoding.Statement (.pack d a b s) := by
  refine of_word rfl fun N hn => ?_
  have := d_lt d; have := a_lt a; have := a_lt b; have := s.isLt
  have e0 := word_Conversion (n := N) (lo := 3) (by omega) (by decide)
  have e1 := dst_of (n := N) (d := d) (by omega)
  have e2 := src_of (n := N) (lo := 11) (a := a) (by omega)
  have e3 := src_of (n := N) (lo := 4) (a := b) (by omega)
  have e4 := fld_of (n := N) (lo := 0) (v := s) (by omega)
  simp [decodeConversion, e0, e1, e2, e3, e4]

theorem Encoding.unpk (d : Dst) (a : Src) (s : BitVec 4) : Encoding.Statement (.unpk d a s) := by
  refine of_word rfl fun N hn => ?_
  have := d_lt d; have := a_lt a; have := s.isLt
  have b0 := bits_of (n := N) (lo := 4) (k := 7) (v := 0) (by omega)
  have e0 := word_Conversion (n := N) (lo := 4) (by omega) (by decide)
  have e1 := dst_of (n := N) (d := d) (by omega)
  have e2 := src_of (n := N) (lo := 11) (a := a) (by omega)
  have e3 := fld_of (n := N) (lo := 0) (v := s) (by omega)
  simp [decodeConversion, e0, e1, e2, e3, b0]

theorem Encoding.had (d : Dst) (a : Src) (b : Src) : Encoding.Statement (.had d a b) := by
  refine of_word rfl fun N hn => ?_
  have := d_lt d; have := a_lt a; have := a_lt b
  have b0 := bits_of (n := N) (lo := 0) (k := 4) (v := 0) (by omega)
  have e0 := word_Conversion (n := N) (lo := 5) (by omega) (by decide)
  have e1 := dst_of (n := N) (d := d) (by omega)
  have e2 := src_of (n := N) (lo := 11) (a := a) (by omega)
  have e3 := src_of (n := N) (lo := 4) (a := b) (by omega)
  simp [decodeConversion, e0, e1, e2, e3, b0]

theorem Encoding.hadinv (d : Dst) (a : Src) (b : Src) : Encoding.Statement (.hadinv d a b) := by
  refine of_word rfl fun N hn => ?_
  have := d_lt d; have := a_lt a; have := a_lt b
  have b0 := bits_of (n := N) (lo := 0) (k := 4) (v := 1) (by omega)
  have e0 := word_Conversion (n := N) (lo := 5) (by omega) (by decide)
  have e1 := dst_of (n := N) (d := d) (by omega)
  have e2 := src_of (n := N) (lo := 11) (a := a) (by omega)
  have e3 := src_of (n := N) (lo := 4) (a := b) (by omega)
  simp [decodeConversion, e0, e1, e2, e3, b0]

theorem Encoding.rand (d : Dst) (a : Src) (b : Src) : Encoding.Statement (.rand d a b) := by
  refine of_word rfl fun N hn => ?_
  have := d_lt d; have := a_lt a; have := a_lt b
  have b0 := bits_of (n := N) (lo := 0) (k := 4) (v := 0) (by omega)
  have e0 := word_Conversion (n := N) (lo := 6) (by omega) (by decide)
  have e1 := dst_of (n := N) (d := d) (by omega)
  have e2 := src_of (n := N) (lo := 11) (a := a) (by omega)
  have e3 := src_of (n := N) (lo := 4) (a := b) (by omega)
  simp [decodeConversion, e0, e1, e2, e3, b0]

theorem Encoding.shfl (d : Dst) (a : Src) (b : Src) (f : BitVec 4) : Encoding.Statement (.shfl d a b f) := by
  refine of_word rfl fun N hn => ?_
  have := d_lt d; have := a_lt a; have := a_lt b; have := f.isLt
  have e0 := word_Lanes (n := N) (lo := 0) (by omega) (by decide)
  have e1 := dst_of (n := N) (d := d) (by omega)
  have e2 := src_of (n := N) (lo := 11) (a := a) (by omega)
  have e3 := src_of (n := N) (lo := 4) (a := b) (by omega)
  have e4 := fld_of (n := N) (lo := 0) (v := f) (by omega)
  simp [decodeLanes, e0, e1, e2, e3, e4]

theorem Encoding.bfly (d : Dst) (a : Src) (f : BitVec 4) : Encoding.Statement (.bfly d a f) := by
  refine of_word rfl fun N hn => ?_
  have := d_lt d; have := a_lt a; have := f.isLt
  have b0 := bits_of (n := N) (lo := 4) (k := 7) (v := 0) (by omega)
  have e0 := word_Lanes (n := N) (lo := 1) (by omega) (by decide)
  have e1 := dst_of (n := N) (d := d) (by omega)
  have e2 := src_of (n := N) (lo := 11) (a := a) (by omega)
  have e3 := fld_of (n := N) (lo := 0) (v := f) (by omega)
  simp [decodeLanes, e0, e1, e2, e3, b0]

theorem Encoding.bcast (d : Dst) (a : Src) (b : Src) : Encoding.Statement (.bcast d a b) := by
  refine of_word rfl fun N hn => ?_
  have := d_lt d; have := a_lt a; have := a_lt b
  have b0 := bits_of (n := N) (lo := 0) (k := 4) (v := 0) (by omega)
  have e0 := word_Lanes (n := N) (lo := 2) (by omega) (by decide)
  have e1 := dst_of (n := N) (d := d) (by omega)
  have e2 := src_of (n := N) (lo := 11) (a := a) (by omega)
  have e3 := src_of (n := N) (lo := 4) (a := b) (by omega)
  simp [decodeLanes, e0, e1, e2, e3, b0]

theorem Encoding.redw (d : Dst) (a : Src) (f : BitVec 3) : Encoding.Statement (.redw d a f) := by
  refine of_word rfl fun N hn => ?_
  have := d_lt d; have := a_lt a; have := f.isLt
  have b0 := bits_of (n := N) (lo := 3) (k := 8) (v := 0) (by omega)
  have e0 := word_Lanes (n := N) (lo := 3) (by omega) (by decide)
  have e1 := dst_of (n := N) (d := d) (by omega)
  have e2 := src_of (n := N) (lo := 11) (a := a) (by omega)
  have e3 := fld_of (n := N) (lo := 0) (v := f) (by omega)
  simp [decodeLanes, e0, e1, e2, e3, b0]

theorem Encoding.scan (d : Dst) (a : Src) (f : BitVec 4) : Encoding.Statement (.scan d a f) := by
  refine of_word rfl fun N hn => ?_
  have := d_lt d; have := a_lt a; have := f.isLt
  have b0 := bits_of (n := N) (lo := 4) (k := 7) (v := 0) (by omega)
  have e0 := word_Lanes (n := N) (lo := 4) (by omega) (by decide)
  have e1 := dst_of (n := N) (d := d) (by omega)
  have e2 := src_of (n := N) (lo := 11) (a := a) (by omega)
  have e3 := fld_of (n := N) (lo := 0) (v := f) (by omega)
  simp [decodeLanes, e0, e1, e2, e3, b0]

theorem Encoding.compact (d : Dst) (a : Src) : Encoding.Statement (.compact d a) := by
  refine of_word rfl fun N hn => ?_
  have := d_lt d; have := a_lt a
  have b0 := bits_of (n := N) (lo := 0) (k := 11) (v := 0) (by omega)
  have e0 := word_Lanes (n := N) (lo := 5) (by omega) (by decide)
  have e1 := dst_of (n := N) (d := d) (by omega)
  have e2 := src_of (n := N) (lo := 11) (a := a) (by omega)
  simp [decodeLanes, e0, e1, e2, b0]

theorem Encoding.xtos (d : Dst) (a : Src) (b : Src) : Encoding.Statement (.xtos d a b) := by
  refine of_word rfl fun N hn => ?_
  have := d_lt d; have := a_lt a; have := a_lt b
  have b0 := bits_of (n := N) (lo := 0) (k := 4) (v := 0) (by omega)
  have e0 := word_Lanes (n := N) (lo := 6) (by omega) (by decide)
  have e1 := dst_of (n := N) (d := d) (by omega)
  have e2 := src_of (n := N) (lo := 11) (a := a) (by omega)
  have e3 := src_of (n := N) (lo := 4) (a := b) (by omega)
  simp [decodeLanes, e0, e1, e2, e3, b0]

theorem Encoding.stox (d : Dst) (a : Src) (b : Src) : Encoding.Statement (.stox d a b) := by
  refine of_word rfl fun N hn => ?_
  have := d_lt d; have := a_lt a; have := a_lt b
  have b0 := bits_of (n := N) (lo := 0) (k := 4) (v := 0) (by omega)
  have e0 := word_Lanes (n := N) (lo := 7) (by omega) (by decide)
  have e1 := dst_of (n := N) (d := d) (by omega)
  have e2 := src_of (n := N) (lo := 11) (a := a) (by omega)
  have e3 := src_of (n := N) (lo := 4) (a := b) (by omega)
  simp [decodeLanes, e0, e1, e2, e3, b0]

theorem Encoding.mov (d : Dst) (a : Src) : Encoding.Statement (.mov d a) := by
  refine of_word rfl fun N hn => ?_
  have := d_lt d; have := a_lt a
  have b0 := bits_of (n := N) (lo := 0) (k := 11) (v := 0) (by omega)
  have e0 := word_Lanes (n := N) (lo := 8) (by omega) (by decide)
  have e1 := dst_of (n := N) (d := d) (by omega)
  have e2 := src_of (n := N) (lo := 11) (a := a) (by omega)
  simp [decodeLanes, e0, e1, e2, b0]

theorem Encoding.movs (d : Dst) (a : Src) (b : Src) : Encoding.Statement (.movs d a b) := by
  refine of_word rfl fun N hn => ?_
  have := d_lt d; have := a_lt a; have := a_lt b
  have b0 := bits_of (n := N) (lo := 0) (k := 4) (v := 0) (by omega)
  have e0 := word_Lanes (n := N) (lo := 9) (by omega) (by decide)
  have e1 := dst_of (n := N) (d := d) (by omega)
  have e2 := src_of (n := N) (lo := 11) (a := a) (by omega)
  have e3 := src_of (n := N) (lo := 4) (a := b) (by omega)
  simp [decodeLanes, e0, e1, e2, e3, b0]

theorem Encoding.mdot (d : BitVec 5) (a : Src) (b : Src) (k : BitVec 3) : Encoding.Statement (.mdot d a b k) := by
  refine of_word rfl fun N hn => ?_
  have := d.isLt; have := a_lt a; have := a_lt b; have := k.isLt
  have b0 := bits_of (n := N) (lo := 23) (k := 1) (v := 0) (by omega)
  have b1 := bits_of (n := N) (lo := 3) (k := 1) (v := 0) (by omega)
  have e0 := word_Matrix (n := N) (lo := 0) (by omega) (by decide)
  have e1 := fld_of (n := N) (lo := 18) (v := d) (by omega)
  have e2 := src_of (n := N) (lo := 11) (a := a) (by omega)
  have e3 := src_of (n := N) (lo := 4) (a := b) (by omega)
  have e4 := fld_of (n := N) (lo := 0) (v := k) (by omega)
  simp [decodeMatrix, e0, e1, e2, e3, e4, b0, b1]

theorem Encoding.mdotp (a : Src) (b : Src) (z : BitVec 1) (k : BitVec 3) : Encoding.Statement (.mdotp a b z k) := by
  refine of_word rfl fun N hn => ?_
  have := a_lt a; have := a_lt b; have := z.isLt; have := k.isLt
  have b0 := bits_of (n := N) (lo := 18) (k := 6) (v := 31) (by omega)
  have e0 := word_Matrix (n := N) (lo := 1) (by omega) (by decide)
  have e1 := src_of (n := N) (lo := 11) (a := a) (by omega)
  have e2 := src_of (n := N) (lo := 4) (a := b) (by omega)
  have e3 := fld_of (n := N) (lo := 3) (v := z) (by omega)
  have e4 := fld_of (n := N) (lo := 0) (v := k) (by omega)
  simp [decodeMatrix, e0, e1, e2, e3, e4, b0]

theorem Encoding.mbatch (d : Dst) : Encoding.Statement (.mbatch d) := by
  refine of_word rfl fun N hn => ?_
  have := d_lt d
  have b0 := bits_of (n := N) (lo := 0) (k := 18) (v := 0) (by omega)
  have e0 := word_Matrix (n := N) (lo := 2) (by omega) (by decide)
  have e1 := dst_of (n := N) (d := d) (by omega)
  simp [decodeMatrix, e0, e1, b0]

theorem Encoding.mwait (a : Src) : Encoding.Statement (.mwait a) := by
  refine of_word rfl fun N hn => ?_
  have := a_lt a
  have b0 := bits_of (n := N) (lo := 0) (k := 11) (v := 0) (by omega)
  have b1 := bits_of (n := N) (lo := 18) (k := 6) (v := 0) (by omega)
  have e0 := word_Matrix (n := N) (lo := 3) (by omega) (by decide)
  have e1 := src_of (n := N) (lo := 11) (a := a) (by omega)
  simp [decodeMatrix, e0, e1, b0, b1]

theorem Encoding.aget (d : Dst) (a : BitVec 5) : Encoding.Statement (.aget d a) := by
  refine of_word rfl fun N hn => ?_
  have := d_lt d; have := a.isLt
  have b0 := bits_of (n := N) (lo := 0) (k := 11) (v := 0) (by omega)
  have b1 := bits_of (n := N) (lo := 16) (k := 2) (v := 0) (by omega)
  have e0 := word_Matrix (n := N) (lo := 4) (by omega) (by decide)
  have e1 := dst_of (n := N) (d := d) (by omega)
  have e2 := fld_of (n := N) (lo := 11) (v := a) (by omega)
  simp [decodeMatrix, e0, e1, e2, b0, b1]

theorem Encoding.aput (d : BitVec 5) (a : Src) : Encoding.Statement (.aput d a) := by
  refine of_word rfl fun N hn => ?_
  have := d.isLt; have := a_lt a
  have b0 := bits_of (n := N) (lo := 0) (k := 11) (v := 0) (by omega)
  have b1 := bits_of (n := N) (lo := 23) (k := 1) (v := 0) (by omega)
  have e0 := word_Matrix (n := N) (lo := 5) (by omega) (by decide)
  have e1 := fld_of (n := N) (lo := 18) (v := d) (by omega)
  have e2 := src_of (n := N) (lo := 11) (a := a) (by omega)
  simp [decodeMatrix, e0, e1, e2, b0, b1]

theorem Encoding.azero (d : BitVec 5) (k : BitVec 4) : Encoding.Statement (.azero d k) := by
  refine of_word rfl fun N hn => ?_
  have := d.isLt; have := k.isLt
  have b0 := bits_of (n := N) (lo := 23) (k := 1) (v := 0) (by omega)
  have b1 := bits_of (n := N) (lo := 4) (k := 14) (v := 0) (by omega)
  have e0 := word_Matrix (n := N) (lo := 6) (by omega) (by decide)
  have e1 := fld_of (n := N) (lo := 18) (v := d) (by omega)
  have e2 := fld_of (n := N) (lo := 0) (v := k) (by omega)
  simp [decodeMatrix, e0, e1, e2, b0, b1]

theorem Encoding.ascl (d : BitVec 5) (a : Src) (k : BitVec 4) : Encoding.Statement (.ascl d a k) := by
  refine of_word rfl fun N hn => ?_
  have := d.isLt; have := a_lt a; have := k.isLt
  have b0 := bits_of (n := N) (lo := 23) (k := 1) (v := 0) (by omega)
  have b1 := bits_of (n := N) (lo := 4) (k := 7) (v := 0) (by omega)
  have e0 := word_Matrix (n := N) (lo := 7) (by omega) (by decide)
  have e1 := fld_of (n := N) (lo := 18) (v := d) (by omega)
  have e2 := src_of (n := N) (lo := 11) (a := a) (by omega)
  have e3 := fld_of (n := N) (lo := 0) (v := k) (by omega)
  simp [decodeMatrix, e0, e1, e2, e3, b0, b1]

theorem Encoding.ldcb (n : BitVec 2) (a : Src) : Encoding.Statement (.ldcb n a) := by
  refine of_word rfl fun N hn => ?_
  have := n.isLt; have := a_lt a
  have b0 := bits_of (n := N) (lo := 0) (k := 11) (v := 0) (by omega)
  have b1 := bits_of (n := N) (lo := 20) (k := 4) (v := 0) (by omega)
  have e0 := word_Matrix (n := N) (lo := 8) (by omega) (by decide)
  have e1 := fld_of (n := N) (lo := 18) (v := n) (by omega)
  have e2 := src_of (n := N) (lo := 11) (a := a) (by omega)
  simp [decodeMatrix, e0, e1, e2, b0, b1]

theorem Encoding.ppass : Encoding.Statement .ppass := by
  refine of_word rfl fun N hn => ?_
  have b0 := bits_of (n := N) (lo := 0) (k := 24) (v := 0) (by omega)
  have e0 := word_Ports (n := N) (lo := 0) (by omega) (by decide)
  simp [decodePorts, e0, b0]

theorem Encoding.pdrop : Encoding.Statement .pdrop := by
  refine of_word rfl fun N hn => ?_
  have b0 := bits_of (n := N) (lo := 0) (k := 24) (v := 0) (by omega)
  have e0 := word_Ports (n := N) (lo := 1) (by omega) (by decide)
  simp [decodePorts, e0, b0]

theorem Encoding.pstat (d : Dst) : Encoding.Statement (.pstat d) := by
  refine of_word rfl fun N hn => ?_
  have := d_lt d
  have b0 := bits_of (n := N) (lo := 0) (k := 18) (v := 0) (by omega)
  have e0 := word_Ports (n := N) (lo := 2) (by omega) (by decide)
  have e1 := dst_of (n := N) (d := d) (by omega)
  simp [decodePorts, e0, e1, b0]

theorem Encoding.tailcfg (a : Src) (b : Src) : Encoding.Statement (.tailcfg a b) := by
  refine of_word rfl fun N hn => ?_
  have := a_lt a; have := a_lt b
  have b0 := bits_of (n := N) (lo := 0) (k := 4) (v := 0) (by omega)
  have b1 := bits_of (n := N) (lo := 18) (k := 6) (v := 0) (by omega)
  have e0 := word_Ports (n := N) (lo := 3) (by omega) (by decide)
  have e1 := src_of (n := N) (lo := 11) (a := a) (by omega)
  have e2 := src_of (n := N) (lo := 4) (a := b) (by omega)
  simp [decodePorts, e0, e1, e2, b0, b1]

theorem Encoding.lds (d : Dst) (a : Src) (b : Src) (f : BitVec 4) : Encoding.Statement (.lds d a b f) := by
  refine of_word rfl fun N hn => ?_
  have := d_lt d; have := a_lt a; have := a_lt b; have := f.isLt
  have e0 := word_Scratchpad (n := N) (lo := 0) (by omega) (by decide)
  have e1 := dst_of (n := N) (d := d) (by omega)
  have e2 := src_of (n := N) (lo := 11) (a := a) (by omega)
  have e3 := src_of (n := N) (lo := 4) (a := b) (by omega)
  have e4 := fld_of (n := N) (lo := 0) (v := f) (by omega)
  simp [decodeScratchpad, e0, e1, e2, e3, e4]

theorem Encoding.sts (d : BitVec 5) (a : Src) (b : Src) (f : BitVec 4) : Encoding.Statement (.sts d a b f) := by
  refine of_word rfl fun N hn => ?_
  have := d.isLt; have := a_lt a; have := a_lt b; have := f.isLt
  have b0 := bits_of (n := N) (lo := 23) (k := 1) (v := 0) (by omega)
  have e0 := word_Scratchpad (n := N) (lo := 1) (by omega) (by decide)
  have e1 := fld_of (n := N) (lo := 18) (v := d) (by omega)
  have e2 := src_of (n := N) (lo := 11) (a := a) (by omega)
  have e3 := src_of (n := N) (lo := 4) (a := b) (by omega)
  have e4 := fld_of (n := N) (lo := 0) (v := f) (by omega)
  simp [decodeScratchpad, e0, e1, e2, e3, e4, b0]

theorem Encoding.ldsb (d : Dst) (a : Src) (b : Src) : Encoding.Statement (.ldsb d a b) := by
  refine of_word rfl fun N hn => ?_
  have := d_lt d; have := a_lt a; have := a_lt b
  have b0 := bits_of (n := N) (lo := 0) (k := 4) (v := 0) (by omega)
  have e0 := word_Scratchpad (n := N) (lo := 2) (by omega) (by decide)
  have e1 := dst_of (n := N) (d := d) (by omega)
  have e2 := src_of (n := N) (lo := 11) (a := a) (by omega)
  have e3 := src_of (n := N) (lo := 4) (a := b) (by omega)
  simp [decodeScratchpad, e0, e1, e2, e3, b0]

theorem Encoding.stsb (d : BitVec 5) (a : Src) (b : Src) : Encoding.Statement (.stsb d a b) := by
  refine of_word rfl fun N hn => ?_
  have := d.isLt; have := a_lt a; have := a_lt b
  have b0 := bits_of (n := N) (lo := 0) (k := 4) (v := 0) (by omega)
  have b1 := bits_of (n := N) (lo := 23) (k := 1) (v := 0) (by omega)
  have e0 := word_Scratchpad (n := N) (lo := 3) (by omega) (by decide)
  have e1 := fld_of (n := N) (lo := 18) (v := d) (by omega)
  have e2 := src_of (n := N) (lo := 11) (a := a) (by omega)
  have e3 := src_of (n := N) (lo := 4) (a := b) (by omega)
  simp [decodeScratchpad, e0, e1, e2, e3, b0, b1]

theorem Encoding.pres (d : Dst) (a : Src) (b : Src) : Encoding.Statement (.pres d a b) := by
  refine of_word rfl fun N hn => ?_
  have := d_lt d; have := a_lt a; have := a_lt b
  have b0 := bits_of (n := N) (lo := 0) (k := 4) (v := 0) (by omega)
  have e0 := word_Scratchpad (n := N) (lo := 4) (by omega) (by decide)
  have e1 := dst_of (n := N) (d := d) (by omega)
  have e2 := src_of (n := N) (lo := 11) (a := a) (by omega)
  have e3 := src_of (n := N) (lo := 4) (a := b) (by omega)
  simp [decodeScratchpad, e0, e1, e2, e3, b0]

theorem Encoding.absent (a : Src) (b : Src) (n : BitVec 4) : Encoding.Statement (.absent a b n) := by
  refine of_word rfl fun N hn => ?_
  have := a_lt a; have := a_lt b; have := n.isLt
  have b0 := bits_of (n := N) (lo := 18) (k := 6) (v := 0) (by omega)
  have e0 := word_Scratchpad (n := N) (lo := 5) (by omega) (by decide)
  have e1 := src_of (n := N) (lo := 11) (a := a) (by omega)
  have e2 := src_of (n := N) (lo := 4) (a := b) (by omega)
  have e3 := fld_of (n := N) (lo := 0) (v := n) (by omega)
  simp [decodeScratchpad, e0, e1, e2, e3, b0]

theorem Encoding.atoms (d : Dst) (a : Src) (b : Src) (f : BitVec 4) : Encoding.Statement (.atoms d a b f) := by
  refine of_word rfl fun N hn => ?_
  have := d_lt d; have := a_lt a; have := a_lt b; have := f.isLt
  have e0 := word_Scratchpad (n := N) (lo := 6) (by omega) (by decide)
  have e1 := dst_of (n := N) (d := d) (by omega)
  have e2 := src_of (n := N) (lo := 11) (a := a) (by omega)
  have e3 := src_of (n := N) (lo := 4) (a := b) (by omega)
  have e4 := fld_of (n := N) (lo := 0) (v := f) (by omega)
  simp [decodeScratchpad, e0, e1, e2, e3, e4]

theorem Encoding.cass (d : Dst) (a : Src) (b : Src) : Encoding.Statement (.cass d a b) := by
  refine of_word rfl fun N hn => ?_
  have := d_lt d; have := a_lt a; have := a_lt b
  have b0 := bits_of (n := N) (lo := 0) (k := 4) (v := 0) (by omega)
  have e0 := word_Scratchpad (n := N) (lo := 7) (by omega) (by decide)
  have e1 := dst_of (n := N) (d := d) (by omega)
  have e2 := src_of (n := N) (lo := 11) (a := a) (by omega)
  have e3 := src_of (n := N) (lo := 4) (a := b) (by omega)
  simp [decodeScratchpad, e0, e1, e2, e3, b0]

theorem Encoding.ldg (d : Dst) (a : Src) (b : Src) (f : BitVec 4) : Encoding.Statement (.ldg d a b f) := by
  refine of_word rfl fun N hn => ?_
  have := d_lt d; have := a_lt a; have := a_lt b; have := f.isLt
  have e0 := word_Global (n := N) (lo := 0) (by omega) (by decide)
  have e1 := dst_of (n := N) (d := d) (by omega)
  have e2 := src_of (n := N) (lo := 11) (a := a) (by omega)
  have e3 := src_of (n := N) (lo := 4) (a := b) (by omega)
  have e4 := fld_of (n := N) (lo := 0) (v := f) (by omega)
  simp [decodeGlobal, e0, e1, e2, e3, e4]

theorem Encoding.stg (d : BitVec 5) (a : Src) (b : Src) (f : BitVec 2) : Encoding.Statement (.stg d a b f) := by
  refine of_word rfl fun N hn => ?_
  have := d.isLt; have := a_lt a; have := a_lt b; have := f.isLt
  have b0 := bits_of (n := N) (lo := 2) (k := 2) (v := 0) (by omega)
  have b1 := bits_of (n := N) (lo := 23) (k := 1) (v := 0) (by omega)
  have e0 := word_Global (n := N) (lo := 1) (by omega) (by decide)
  have e1 := fld_of (n := N) (lo := 18) (v := d) (by omega)
  have e2 := src_of (n := N) (lo := 11) (a := a) (by omega)
  have e3 := src_of (n := N) (lo := 4) (a := b) (by omega)
  have e4 := fld_of (n := N) (lo := 0) (v := f) (by omega)
  simp [decodeGlobal, e0, e1, e2, e3, e4, b0, b1]

theorem Encoding.ldgb (d : Dst) (a : Src) (b : Src) (f : BitVec 1) : Encoding.Statement (.ldgb d a b f) := by
  refine of_word rfl fun N hn => ?_
  have := d_lt d; have := a_lt a; have := a_lt b; have := f.isLt
  have b0 := bits_of (n := N) (lo := 0) (k := 3) (v := 0) (by omega)
  have e0 := word_Global (n := N) (lo := 2) (by omega) (by decide)
  have e1 := dst_of (n := N) (d := d) (by omega)
  have e2 := src_of (n := N) (lo := 11) (a := a) (by omega)
  have e3 := src_of (n := N) (lo := 4) (a := b) (by omega)
  have e4 := fld_of (n := N) (lo := 3) (v := f) (by omega)
  simp [decodeGlobal, e0, e1, e2, e3, e4, b0]

theorem Encoding.stgb (d : BitVec 5) (a : Src) (b : Src) : Encoding.Statement (.stgb d a b) := by
  refine of_word rfl fun N hn => ?_
  have := d.isLt; have := a_lt a; have := a_lt b
  have b0 := bits_of (n := N) (lo := 0) (k := 4) (v := 0) (by omega)
  have b1 := bits_of (n := N) (lo := 23) (k := 1) (v := 0) (by omega)
  have e0 := word_Global (n := N) (lo := 3) (by omega) (by decide)
  have e1 := fld_of (n := N) (lo := 18) (v := d) (by omega)
  have e2 := src_of (n := N) (lo := 11) (a := a) (by omega)
  have e3 := src_of (n := N) (lo := 4) (a := b) (by omega)
  simp [decodeGlobal, e0, e1, e2, e3, b0, b1]

theorem Encoding.atomg (d : Dst) (a : Src) (b : Src) (f : BitVec 4) : Encoding.Statement (.atomg d a b f) := by
  refine of_word rfl fun N hn => ?_
  have := d_lt d; have := a_lt a; have := a_lt b; have := f.isLt
  have e0 := word_Global (n := N) (lo := 4) (by omega) (by decide)
  have e1 := dst_of (n := N) (d := d) (by omega)
  have e2 := src_of (n := N) (lo := 11) (a := a) (by omega)
  have e3 := src_of (n := N) (lo := 4) (a := b) (by omega)
  have e4 := fld_of (n := N) (lo := 0) (v := f) (by omega)
  simp [decodeGlobal, e0, e1, e2, e3, e4]

theorem Encoding.redg (a : Src) (b : Src) (f : BitVec 4) : Encoding.Statement (.redg a b f) := by
  refine of_word rfl fun N hn => ?_
  have := a_lt a; have := a_lt b; have := f.isLt
  have b0 := bits_of (n := N) (lo := 18) (k := 6) (v := 0) (by omega)
  have e0 := word_Global (n := N) (lo := 5) (by omega) (by decide)
  have e1 := src_of (n := N) (lo := 11) (a := a) (by omega)
  have e2 := src_of (n := N) (lo := 4) (a := b) (by omega)
  have e3 := fld_of (n := N) (lo := 0) (v := f) (by omega)
  simp [decodeGlobal, e0, e1, e2, e3, b0]

theorem Encoding.casg (d : Dst) (a : Src) (b : Src) : Encoding.Statement (.casg d a b) := by
  refine of_word rfl fun N hn => ?_
  have := d_lt d; have := a_lt a; have := a_lt b
  have b0 := bits_of (n := N) (lo := 0) (k := 4) (v := 0) (by omega)
  have e0 := word_Global (n := N) (lo := 6) (by omega) (by decide)
  have e1 := dst_of (n := N) (d := d) (by omega)
  have e2 := src_of (n := N) (lo := 11) (a := a) (by omega)
  have e3 := src_of (n := N) (lo := 4) (a := b) (by omega)
  simp [decodeGlobal, e0, e1, e2, e3, b0]

theorem Encoding.prefg (a : Src) (b : Src) : Encoding.Statement (.prefg a b) := by
  refine of_word rfl fun N hn => ?_
  have := a_lt a; have := a_lt b
  have b0 := bits_of (n := N) (lo := 0) (k := 4) (v := 0) (by omega)
  have b1 := bits_of (n := N) (lo := 18) (k := 6) (v := 0) (by omega)
  have e0 := word_Global (n := N) (lo := 7) (by omega) (by decide)
  have e1 := src_of (n := N) (lo := 11) (a := a) (by omega)
  have e2 := src_of (n := N) (lo := 4) (a := b) (by omega)
  simp [decodeGlobal, e0, e1, e2, b0, b1]

theorem Encoding.isect (d : BitVec 5) (a : BitVec 5) (b : BitVec 5) : Encoding.Statement (.isect d a b) := by
  refine of_word rfl fun N hn => ?_
  have := d.isLt; have := a.isLt; have := b.isLt
  have b0 := bits_of (n := N) (lo := 0) (k := 4) (v := 0) (by omega)
  have b1 := bits_of (n := N) (lo := 16) (k := 2) (v := 0) (by omega)
  have b2 := bits_of (n := N) (lo := 23) (k := 1) (v := 0) (by omega)
  have b3 := bits_of (n := N) (lo := 9) (k := 2) (v := 0) (by omega)
  have e0 := word_Global (n := N) (lo := 8) (by omega) (by decide)
  have e1 := fld_of (n := N) (lo := 18) (v := d) (by omega)
  have e2 := fld_of (n := N) (lo := 11) (v := a) (by omega)
  have e3 := fld_of (n := N) (lo := 4) (v := b) (by omega)
  simp [decodeGlobal, e0, e1, e2, e3, b0, b1, b2, b3]

theorem Encoding.frel (s : BitVec 3) : Encoding.Statement (.frel s) := by
  refine of_word rfl fun N hn => ?_
  have := s.isLt
  have b0 := bits_of (n := N) (lo := 3) (k := 21) (v := 0) (by omega)
  have e0 := word_Fences (n := N) (lo := 0) (by omega) (by decide)
  have e1 := fld_of (n := N) (lo := 0) (v := s) (by omega)
  simp [decodeFences, e0, e1, b0]

theorem Encoding.facq (s : BitVec 3) : Encoding.Statement (.facq s) := by
  refine of_word rfl fun N hn => ?_
  have := s.isLt
  have b0 := bits_of (n := N) (lo := 3) (k := 21) (v := 0) (by omega)
  have e0 := word_Fences (n := N) (lo := 1) (by omega) (by decide)
  have e1 := fld_of (n := N) (lo := 0) (v := s) (by omega)
  simp [decodeFences, e0, e1, b0]

theorem Encoding.ffull (s : BitVec 3) : Encoding.Statement (.ffull s) := by
  refine of_word rfl fun N hn => ?_
  have := s.isLt
  have b0 := bits_of (n := N) (lo := 3) (k := 21) (v := 0) (by omega)
  have e0 := word_Fences (n := N) (lo := 2) (by omega) (by decide)
  have e1 := fld_of (n := N) (lo := 0) (v := s) (by omega)
  simp [decodeFences, e0, e1, b0]

theorem Encoding.ifence : Encoding.Statement .ifence := by
  refine of_word rfl fun N hn => ?_
  have b0 := bits_of (n := N) (lo := 0) (k := 24) (v := 0) (by omega)
  have e0 := word_Fences (n := N) (lo := 3) (by omega) (by decide)
  simp [decodeFences, e0, b0]

theorem Encoding.bari (a : Src) (b : Src) : Encoding.Statement (.bari a b) := by
  refine of_word rfl fun N hn => ?_
  have := a_lt a; have := a_lt b
  have b0 := bits_of (n := N) (lo := 0) (k := 4) (v := 0) (by omega)
  have b1 := bits_of (n := N) (lo := 18) (k := 6) (v := 0) (by omega)
  have e0 := word_Fences (n := N) (lo := 4) (by omega) (by decide)
  have e1 := src_of (n := N) (lo := 11) (a := a) (by omega)
  have e2 := src_of (n := N) (lo := 4) (a := b) (by omega)
  simp [decodeFences, e0, e1, e2, b0, b1]

theorem Encoding.barv (a : Src) (b : Src) (s : BitVec 4) : Encoding.Statement (.barv a b s) := by
  refine of_word rfl fun N hn => ?_
  have := a_lt a; have := a_lt b; have := s.isLt
  have b0 := bits_of (n := N) (lo := 18) (k := 6) (v := 0) (by omega)
  have e0 := word_Fences (n := N) (lo := 5) (by omega) (by decide)
  have e1 := src_of (n := N) (lo := 11) (a := a) (by omega)
  have e2 := src_of (n := N) (lo := 4) (a := b) (by omega)
  have e3 := fld_of (n := N) (lo := 0) (v := s) (by omega)
  simp [decodeFences, e0, e1, e2, e3, b0]

theorem Encoding.barw (a : Src) (b : Src) : Encoding.Statement (.barw a b) := by
  refine of_word rfl fun N hn => ?_
  have := a_lt a; have := a_lt b
  have b0 := bits_of (n := N) (lo := 0) (k := 4) (v := 0) (by omega)
  have b1 := bits_of (n := N) (lo := 18) (k := 6) (v := 0) (by omega)
  have e0 := word_Fences (n := N) (lo := 6) (by omega) (by decide)
  have e1 := src_of (n := N) (lo := 11) (a := a) (by omega)
  have e2 := src_of (n := N) (lo := 4) (a := b) (by omega)
  simp [decodeFences, e0, e1, e2, b0, b1]

theorem Encoding.barx (a : Src) (b : Src) : Encoding.Statement (.barx a b) := by
  refine of_word rfl fun N hn => ?_
  have := a_lt a; have := a_lt b
  have b0 := bits_of (n := N) (lo := 0) (k := 4) (v := 0) (by omega)
  have b1 := bits_of (n := N) (lo := 18) (k := 6) (v := 0) (by omega)
  have e0 := word_Fences (n := N) (lo := 7) (by omega) (by decide)
  have e1 := src_of (n := N) (lo := 11) (a := a) (by omega)
  have e2 := src_of (n := N) (lo := 4) (a := b) (by omega)
  simp [decodeFences, e0, e1, e2, b0, b1]

theorem Encoding.bars (d : Dst) (a : Src) (k : BitVec 4) : Encoding.Statement (.bars d a k) := by
  refine of_word rfl fun N hn => ?_
  have := d_lt d; have := a_lt a; have := k.isLt
  have b0 := bits_of (n := N) (lo := 4) (k := 7) (v := 0) (by omega)
  have e0 := word_Fences (n := N) (lo := 8) (by omega) (by decide)
  have e1 := dst_of (n := N) (d := d) (by omega)
  have e2 := src_of (n := N) (lo := 11) (a := a) (by omega)
  have e3 := fld_of (n := N) (lo := 0) (v := k) (by omega)
  simp [decodeFences, e0, e1, e2, e3, b0]

theorem Encoding.time (d : Dst) : Encoding.Statement (.time d) := by
  refine of_word rfl fun N hn => ?_
  have := d_lt d
  have b0 := bits_of (n := N) (lo := 0) (k := 18) (v := 0) (by omega)
  have e0 := word_Fences (n := N) (lo := 9) (by omega) (by decide)
  have e1 := dst_of (n := N) (d := d) (by omega)
  simp [decodeFences, e0, e1, b0]

theorem Encoding.clkc (d : Dst) : Encoding.Statement (.clkc d) := by
  refine of_word rfl fun N hn => ?_
  have := d_lt d
  have b0 := bits_of (n := N) (lo := 0) (k := 18) (v := 0) (by omega)
  have e0 := word_Fences (n := N) (lo := 10) (by omega) (by decide)
  have e1 := dst_of (n := N) (d := d) (by omega)
  simp [decodeFences, e0, e1, b0]

theorem Encoding.qput (a : Src) (b : Src) (f : BitVec 4) : Encoding.Statement (.qput a b f) := by
  refine of_word rfl fun N hn => ?_
  have := a_lt a; have := a_lt b; have := f.isLt
  have b0 := bits_of (n := N) (lo := 18) (k := 6) (v := 0) (by omega)
  have e0 := word_Tasks (n := N) (lo := 0) (by omega) (by decide)
  have e1 := src_of (n := N) (lo := 11) (a := a) (by omega)
  have e2 := src_of (n := N) (lo := 4) (a := b) (by omega)
  have e3 := fld_of (n := N) (lo := 0) (v := f) (by omega)
  simp [decodeTasks, e0, e1, e2, e3, b0]

theorem Encoding.tdec (a : Src) : Encoding.Statement (.tdec a) := by
  refine of_word rfl fun N hn => ?_
  have := a_lt a
  have b0 := bits_of (n := N) (lo := 0) (k := 11) (v := 0) (by omega)
  have b1 := bits_of (n := N) (lo := 18) (k := 6) (v := 0) (by omega)
  have e0 := word_Tasks (n := N) (lo := 1) (by omega) (by decide)
  have e1 := src_of (n := N) (lo := 11) (a := a) (by omega)
  simp [decodeTasks, e0, e1, b0, b1]

theorem Encoding.tarm (a : Src) (b : Src) : Encoding.Statement (.tarm a b) := by
  refine of_word rfl fun N hn => ?_
  have := a_lt a; have := a_lt b
  have b0 := bits_of (n := N) (lo := 0) (k := 4) (v := 0) (by omega)
  have b1 := bits_of (n := N) (lo := 18) (k := 6) (v := 0) (by omega)
  have e0 := word_Tasks (n := N) (lo := 2) (by omega) (by decide)
  have e1 := src_of (n := N) (lo := 11) (a := a) (by omega)
  have e2 := src_of (n := N) (lo := 4) (a := b) (by omega)
  simp [decodeTasks, e0, e1, e2, b0, b1]

theorem Encoding.take (d : Dst) (a : Src) : Encoding.Statement (.take d a) := by
  refine of_word rfl fun N hn => ?_
  have := d_lt d; have := a_lt a
  have b0 := bits_of (n := N) (lo := 0) (k := 11) (v := 0) (by omega)
  have e0 := word_Tasks (n := N) (lo := 3) (by omega) (by decide)
  have e1 := dst_of (n := N) (d := d) (by omega)
  have e2 := src_of (n := N) (lo := 11) (a := a) (by omega)
  simp [decodeTasks, e0, e1, e2, b0]

theorem Encoding.spawn (a : Src) (b : Src) : Encoding.Statement (.spawn a b) := by
  refine of_word rfl fun N hn => ?_
  have := a_lt a; have := a_lt b
  have b0 := bits_of (n := N) (lo := 0) (k := 4) (v := 0) (by omega)
  have b1 := bits_of (n := N) (lo := 18) (k := 6) (v := 0) (by omega)
  have e0 := word_Tasks (n := N) (lo := 4) (by omega) (by decide)
  have e1 := src_of (n := N) (lo := 11) (a := a) (by omega)
  have e2 := src_of (n := N) (lo := 4) (a := b) (by omega)
  simp [decodeTasks, e0, e1, e2, b0, b1]

theorem Encoding.yield : Encoding.Statement .yield := by
  refine of_word rfl fun N hn => ?_
  have b0 := bits_of (n := N) (lo := 0) (k := 24) (v := 0) (by omega)
  have e0 := word_Tasks (n := N) (lo := 5) (by omega) (by decide)
  simp [decodeTasks, e0, b0]

theorem Encoding.sleept (a : Src) : Encoding.Statement (.sleept a) := by
  refine of_word rfl fun N hn => ?_
  have := a_lt a
  have b0 := bits_of (n := N) (lo := 0) (k := 11) (v := 0) (by omega)
  have b1 := bits_of (n := N) (lo := 18) (k := 6) (v := 0) (by omega)
  have e0 := word_Tasks (n := N) (lo := 6) (by omega) (by decide)
  have e1 := src_of (n := N) (lo := 11) (a := a) (by omega)
  simp [decodeTasks, e0, e1, b0, b1]

theorem Encoding.setmode (m : BitVec 16) : Encoding.Statement (.setmode m) := by
  refine of_word rfl fun N hn => ?_
  have := m.isLt
  have b0 := bits_of (n := N) (lo := 16) (k := 8) (v := 0) (by omega)
  have e0 := word_System (n := N) (lo := 0) (by omega) (by decide)
  have e1 := fld_of (n := N) (lo := 0) (v := m) (by omega)
  simp [decodeSystem, e0, e1, b0]

theorem Encoding.getmode (d : Dst) : Encoding.Statement (.getmode d) := by
  refine of_word rfl fun N hn => ?_
  have := d_lt d
  have b0 := bits_of (n := N) (lo := 0) (k := 18) (v := 0) (by omega)
  have e0 := word_System (n := N) (lo := 1) (by omega) (by decide)
  have e1 := dst_of (n := N) (d := d) (by omega)
  simp [decodeSystem, e0, e1, b0]

theorem Encoding.csrr (d : Dst) (c : BitVec 7) : Encoding.Statement (.csrr d c) := by
  refine of_word rfl fun N hn => ?_
  have := d_lt d; have := c.isLt
  have b0 := bits_of (n := N) (lo := 0) (k := 11) (v := 0) (by omega)
  have e0 := word_System (n := N) (lo := 2) (by omega) (by decide)
  have e1 := dst_of (n := N) (d := d) (by omega)
  have e2 := fld_of (n := N) (lo := 11) (v := c) (by omega)
  simp [decodeSystem, e0, e1, e2, b0]

theorem Encoding.csrw (c : BitVec 7) (b : Src) : Encoding.Statement (.csrw c b) := by
  refine of_word rfl fun N hn => ?_
  have := c.isLt; have := a_lt b
  have b0 := bits_of (n := N) (lo := 0) (k := 4) (v := 0) (by omega)
  have b1 := bits_of (n := N) (lo := 18) (k := 6) (v := 0) (by omega)
  have e0 := word_System (n := N) (lo := 3) (by omega) (by decide)
  have e1 := fld_of (n := N) (lo := 11) (v := c) (by omega)
  have e2 := src_of (n := N) (lo := 4) (a := b) (by omega)
  simp [decodeSystem, e0, e1, e2, b0, b1]

theorem Encoding.trap (a : Src) (k : BitVec 4) : Encoding.Statement (.trap a k) := by
  refine of_word rfl fun N hn => ?_
  have := a_lt a; have := k.isLt
  have b0 := bits_of (n := N) (lo := 18) (k := 6) (v := 0) (by omega)
  have b1 := bits_of (n := N) (lo := 4) (k := 7) (v := 0) (by omega)
  have e0 := word_System (n := N) (lo := 4) (by omega) (by decide)
  have e1 := src_of (n := N) (lo := 11) (a := a) (by omega)
  have e2 := fld_of (n := N) (lo := 0) (v := k) (by omega)
  simp [decodeSystem, e0, e1, e2, b0, b1]

theorem Encoding.rett : Encoding.Statement .rett := by
  refine of_word rfl fun N hn => ?_
  have b0 := bits_of (n := N) (lo := 0) (k := 24) (v := 0) (by omega)
  have e0 := word_System (n := N) (lo := 5) (by omega) (by decide)
  simp [decodeSystem, e0, b0]

theorem Encoding.ctxsv (a : Src) : Encoding.Statement (.ctxsv a) := by
  refine of_word rfl fun N hn => ?_
  have := a_lt a
  have b0 := bits_of (n := N) (lo := 0) (k := 11) (v := 0) (by omega)
  have b1 := bits_of (n := N) (lo := 18) (k := 6) (v := 0) (by omega)
  have e0 := word_System (n := N) (lo := 6) (by omega) (by decide)
  have e1 := src_of (n := N) (lo := 11) (a := a) (by omega)
  simp [decodeSystem, e0, e1, b0, b1]

theorem Encoding.ctxld (a : Src) : Encoding.Statement (.ctxld a) := by
  refine of_word rfl fun N hn => ?_
  have := a_lt a
  have b0 := bits_of (n := N) (lo := 0) (k := 11) (v := 0) (by omega)
  have b1 := bits_of (n := N) (lo := 18) (k := 6) (v := 0) (by omega)
  have e0 := word_System (n := N) (lo := 7) (by omega) (by decide)
  have e1 := src_of (n := N) (lo := 11) (a := a) (by omega)
  simp [decodeSystem, e0, e1, b0, b1]

theorem Encoding.forcedIssue (sid : Fin 16384) : Encoding.Statement (.forcedIssue sid) := nofun

theorem Encoding.seatWake (sid : Fin 16384) : Encoding.Statement (.seatWake sid) := nofun

theorem Encoding.sleeptWake (sid : Fin 16384) : Encoding.Statement (.sleeptWake sid) := nofun

theorem Encoding.matrixStep (k : Fin 4096) : Encoding.Statement (.matrixStep k) := nofun

theorem Encoding.portCrossingMove (k : Fin 4096) : Encoding.Statement (.portCrossingMove k) := nofun

theorem Encoding.tailSinkStore (k : Fin 4096) : Encoding.Statement (.tailSinkStore k) := nofun

theorem Encoding.faddxContribution (i : Nat) : Encoding.Statement (.faddxContribution i) := nofun

theorem Encoding.faddxWaitReport (i : Nat) : Encoding.Statement (.faddxWaitReport i) := nofun

theorem Encoding.extQueueSubmit (p : Fin 8) (hdr : Word) (pkt : Vector Word 8) (widx : Word) : Encoding.Statement (.extQueueSubmit p hdr pkt widx) := nofun

theorem Encoding.queueRegister (p : Fin 8) (hdr : Word) : Encoding.Statement (.queueRegister p hdr) := nofun

theorem Encoding.queueHaltClear (p : Fin 8) (hdr : Word) : Encoding.Statement (.queueHaltClear p hdr) := nofun

theorem Encoding.copy (p : Fin 8) (hdr : Word) : Encoding.Statement (.copy p hdr) := nofun

theorem Encoding.feed (p : Fin 8) (hdr : Word) : Encoding.Statement (.feed p hdr) := nofun

theorem Encoding.fill (p : Fin 8) (hdr : Word) : Encoding.Statement (.fill p hdr) := nofun

theorem Encoding.gather (p : Fin 8) (hdr : Word) : Encoding.Statement (.gather p hdr) := nofun

theorem Encoding.feedEntryPush (k : Fin 4096) : Encoding.Statement (.feedEntryPush k) := nofun

theorem Encoding.release (n : Nat) : Encoding.Statement (.release n) := nofun

theorem Encoding.landed (n : Nat) : Encoding.Statement (.landed n) := nofun

theorem Encoding.copyFaultResume (n : Nat) : Encoding.Statement (.copyFaultResume n) := nofun

theorem Encoding.axpy (p : Fin 8) (src : GirthSrc) : Encoding.Statement (.axpy p src) := nofun

theorem Encoding.scale (p : Fin 8) (src : GirthSrc) : Encoding.Statement (.scale p src) := nofun

theorem Encoding.momentum (p : Fin 8) (src : GirthSrc) : Encoding.Statement (.momentum p src) := nofun

theorem Encoding.adamw (p : Fin 8) (src : GirthSrc) : Encoding.Statement (.adamw p src) := nofun

theorem Encoding.girthZero (p : Fin 8) (src : GirthSrc) : Encoding.Statement (.girthZero p src) := nofun

theorem Encoding.xclose (p : Fin 8) (src : GirthSrc) : Encoding.Statement (.xclose p src) := nofun

theorem Encoding.launchAccept (p : Fin 8) : Encoding.Statement (.launchAccept p) := nofun

theorem Encoding.launchPlace (p : Fin 8) : Encoding.Statement (.launchPlace p) := nofun

theorem Encoding.bridleFaultResume (p : Fin 8) : Encoding.Statement (.bridleFaultResume p) := nofun

theorem Encoding.spawnBinTimer (core : Fin 64) (bin : Fin 16) : Encoding.Statement (.spawnBinTimer core bin) := nofun

theorem Encoding.pendingRowPlace (core : Fin 64) (bin : Fin 16) : Encoding.Statement (.pendingRowPlace core bin) := nofun

theorem Encoding.seatRelease (sid : Fin 16384) : Encoding.Statement (.seatRelease sid) := nofun

theorem Encoding.resume (p : Fin 8) : Encoding.Statement (.resume p) := nofun

theorem Encoding.abort (p : Fin 8) : Encoding.Statement (.abort p) := nofun

theorem Encoding.kill (p : Fin 8) : Encoding.Statement (.kill p) := nofun

theorem Encoding.skip (p : Fin 8) : Encoding.Statement (.skip p) := nofun

theorem Encoding.preempt (p : Fin 8) : Encoding.Statement (.preempt p) := nofun

theorem Encoding.preemptSeatStop (sid : Fin 16384) : Encoding.Statement (.preemptSeatStop sid) := nofun

theorem Encoding.preemptDeadline (p : Fin 8) : Encoding.Statement (.preemptDeadline p) := nofun

theorem Encoding.preemptDrainEnd (p : Fin 8) : Encoding.Statement (.preemptDrainEnd p) := nofun

theorem Encoding.restore (p : Fin 8) : Encoding.Statement (.restore p) := nofun

theorem Encoding.diereset (p : Fin 8) : Encoding.Statement (.diereset p) := nofun

theorem Encoding.dieFault (die : Fin 8) : Encoding.Statement (.dieFault die) := nofun

theorem Encoding.dieResetForce (die : Fin 8) : Encoding.Statement (.dieResetForce die) := nofun

theorem Encoding.tuSet (p : Fin 8) (cnt : BitVec 10) (level : BitVec 2) : Encoding.Statement (.tuSet p cnt level) := nofun

theorem Encoding.tuClear (p : Fin 8) (cnt : BitVec 10) (level : BitVec 2) : Encoding.Statement (.tuClear p cnt level) := nofun

theorem Encoding.tuSetrange (p : Fin 8) (cnt : BitVec 10) (level : BitVec 2) : Encoding.Statement (.tuSetrange p cnt level) := nofun

theorem Encoding.tuComplete (p : Fin 8) : Encoding.Statement (.tuComplete p) := nofun

theorem Encoding.apply (stack : Fin 24) : Encoding.Statement (.apply stack) := nofun

theorem Encoding.applyDone (stack : Fin 24) : Encoding.Statement (.applyDone stack) := nofun

theorem Encoding.retireGo (stack : Fin 24) : Encoding.Statement (.retireGo stack) := nofun

theorem Encoding.retireSwitch (stack : Fin 24) : Encoding.Statement (.retireSwitch stack) := nofun

theorem Encoding.peerRetryResend : Encoding.Statement .peerRetryResend := nofun

theorem Encoding.sramUe (place : SramPlace) : Encoding.Statement (.sramUe place) := nofun

theorem Encoding.uvTrial (die : Fin 8) : Encoding.Statement (.uvTrial die) := nofun

theorem Encoding.uvAbort (die : Fin 8) : Encoding.Statement (.uvAbort die) := nofun

theorem Encoding.uvBlacklistExpire (die : Fin 8) (vid : BitVec 8) : Encoding.Statement (.uvBlacklistExpire die vid) := nofun

theorem Encoding.partitionEnable (p : Fin 8) (w : Word) : Encoding.Statement (.partitionEnable p w) := nofun

theorem Encoding.partitionDisable (p : Fin 8) : Encoding.Statement (.partitionDisable p) := nofun

theorem Encoding.pwrshareWrite (p : Fin 8) (w : Word) : Encoding.Statement (.pwrshareWrite p w) := nofun

theorem Encoding.counterFrozenClear (p : Fin 8) (n : Fin 4096) : Encoding.Statement (.counterFrozenClear p n) := nofun

theorem Encoding.registerWrite (p : Fin 8) (r : Reg) (v : Word) : Encoding.Statement (.registerWrite p r v) := nofun

theorem Encoding.controlNodeAccess (p : Fin 8) (va : Word) (size : Fin 4) (wr : Option Word) : Encoding.Statement (.controlNodeAccess p va size wr) := nofun

theorem Encoding.peerAccessInbound (link : Fin 16) (dev : BitVec 16) (src : BitVec 3) (p : Fin 8) (va : Word) (op : PeerOp) : Encoding.Statement (.peerAccessInbound link dev src p va op) := nofun

theorem Encoding.controlInterval : Encoding.Statement .controlInterval := nofun

theorem Encoding.droopTrip (core : Fin 64) : Encoding.Statement (.droopTrip core) := nofun

theorem Encoding.droopWindowEnd (core : Fin 64) : Encoding.Statement (.droopWindowEnd core) := nofun

theorem Encoding.coolantFault : Encoding.Statement .coolantFault := nofun

theorem Encoding.coolantFaultClear : Encoding.Statement .coolantFaultClear := nofun

theorem Encoding.thermalTrip (die : Fin 8) : Encoding.Statement (.thermalTrip die) := nofun

theorem Encoding.powerGood : Encoding.Statement .powerGood := nofun

theorem Encoding.firmwareReload (image : List Byte) : Encoding.Statement (.firmwareReload image) := nofun

theorem Encoding.open (nonce : BitVec 384) (keys : List Byte) (edSig : List Byte) (mlSig : List Byte) : Encoding.Statement (.open nonce keys edSig mlSig) := nofun

theorem Encoding.close : Encoding.Statement .close := nofun

theorem Encoding.lossOfLight : Encoding.Statement .lossOfLight := nofun

theorem Encoding.quote (nonce : BitVec 384) : Encoding.Statement (.quote nonce) := nofun

theorem Encoding.identityQuery : Encoding.Statement .identityQuery := nofun

theorem Encoding.flitCrcError (link : Fin 16) : Encoding.Statement (.flitCrcError link) := nofun

theorem Encoding.linkTrained (link : Fin 16) (dev : BitVec 16) : Encoding.Statement (.linkTrained link dev) := nofun

theorem Encoding.unassignedOpcode (w : Half) : Encoding.Statement (.unassignedOpcode w) := nofun

theorem Encoding.trialPassed (die : Fin 8) : Encoding.Statement (.trialPassed die) := nofun

theorem Encoding.dieRejoin (die : Fin 8) : Encoding.Statement (.dieRejoin die) := nofun

theorem Encoding.powerOff : Encoding.Statement .powerOff := nofun

theorem Encoding.newValuesApply (core : Fin 64) : Encoding.Statement (.newValuesApply core) := nofun

end Sys2Proof.Laws
end

