-- ==== Sys2Proof/Tests/Slice0.lean ====
section
/-! SUPPORT. Tests: worked words and values of the spec, ill-formed instructions, and for each statement's hypotheses a
state and operands that meet them. -/
namespace Sys2Proof.Tests
open Sys2Proof.Machine
set_option Elab.async false

/-! ### Words written out from the spec's encodings -/

/-- 02 R46, R66; 12 R294, R297 to R309: control and masks; prefixes. -/
theorem test_words_control : [0x00000000, 0xF000C000, 0xF0890000, 0xF8000001, 0x04100003, 0x04900003, 0x0D2FFFFC, 0x0B00F000,
      0x08003800, 0x150C0823, 0x1A180800, 0x05000009, 0x01000006, 0x10001000, 0x0C000000, 0x13000000, 0x06000000,
      0x1C001000, 0x1D001000].map decodeWord =
    [some .nop, some (.mod 0 0 1 8 0 0 0), some (.mod 1 9 0 0 0 0 0), some (.ximm 1), some (.brd 1 3), some (.brdn 1 3),
      some (.loop 2 0xFFFFC), some (.ret ⟨false, false, 30⟩), some (.jmpv ⟨false, false, 7⟩), some (.mlog 3 1 2 3),
      some (.many ⟨false, 6⟩ 1), some (.jset 9), some (.bra 6), some (.pushp 2), some .exit, some .popp, some .join,
      some (.mspill ⟨false, false, 2⟩), some (.mfill ⟨false, false, 2⟩ 0)] := by decide +kernel

/-- 05 R117, R152; 12 R294: lane instructions. -/
theorem test_words_lanes : [0x400C2052, 0x200C2050, 0x33041033, 0x731C1000, 0x60143009, 0x70080801, 0x30140001, 0x52181240,
      0x31040014, 0x41053002].map decodeWord =
    [some (.cmp ⟨false, 3⟩ ⟨false, false, 4⟩ ⟨false, false, 5⟩ 2), some (.add ⟨false, 3⟩ ⟨false, false, 4⟩ ⟨false, false, 5⟩),
      some (.lea ⟨false, 1⟩ ⟨false, false, 2⟩ ⟨false, false, 3⟩ 3), some (.redw ⟨false, 7⟩ ⟨false, false, 2⟩ 0),
      some (.cvt ⟨false, 5⟩ ⟨false, false, 6⟩ ⟨false, false, 0⟩ 9), some (.shfl ⟨false, 2⟩ ⟨false, false, 1⟩ ⟨false, false, 0⟩ 1),
      some (.addi ⟨false, 5⟩ 1), some (.fmul ⟨false, 6⟩ ⟨false, false, 2⟩ ⟨false, true, 4⟩), some (.li ⟨false, 1⟩ 0x14),
      some (.cmpm 1 ⟨false, true, 6⟩ ⟨false, false, 0⟩ 2)] := by decide +kernel

/-- 06 R176; 12 R294; 14 R347: matrix, tasks and system. -/
theorem test_words_system : [0x80104102, 0x817C1030, 0xD3242000, 0xE000000A, 0xE1140000, 0xE2189000, 0xE3008870, 0xE4001003,
      0xE400F800, 0xE5000000, 0xE6001000, 0xE7001000].map decodeWord =
    [some (.mdot 4 ⟨false, false, 8⟩ ⟨false, false, 16⟩ 2), some (.mdotp ⟨false, false, 2⟩ ⟨false, false, 3⟩ 0 0),
      some (.take ⟨false, 9⟩ ⟨false, false, 4⟩), some (.setmode 10), some (.getmode ⟨false, 5⟩), some (.csrr ⟨false, 6⟩ 18),
      some (.csrw 17 ⟨false, false, 7⟩), some (.trap ⟨false, false, 2⟩ 3), some (.trap ⟨false, false, 31⟩ 0), some .rett,
      some (.ctxsv ⟨false, false, 2⟩), some (.ctxld ⟨false, false, 2⟩)] := by decide +kernel

/-- 02 R51, R67; 09 R234, R246, R248, R255; 06 R159, R167, R174: words put together from the fields that the rules give. -/
theorem test_words_memory : [0xA00809F2, 0xA10C09F2, 0xB01009F2, 0xB5001041, 0xB80C2080, 0xC0000004, 0xC70030F0, 0xC9140000,
      0xD0003043, 0x82180000, 0x84101000, 0x90000000, 0x921C0000, 0xD2003070].map decodeWord =
    [some (.lds ⟨false, 2⟩ ⟨false, false, 1⟩ ⟨false, false, 31⟩ 2), some (.sts 3 ⟨false, false, 1⟩ ⟨false, false, 31⟩ 2),
      some (.ldg ⟨false, 4⟩ ⟨false, false, 1⟩ ⟨false, false, 31⟩ 2), some (.redg ⟨false, false, 2⟩ ⟨false, false, 4⟩ 1),
      some (.isect 3 4 8), some (.frel 4), some (.barx ⟨false, false, 6⟩ ⟨false, false, 15⟩), some (.time ⟨false, 5⟩),
      some (.qput ⟨false, false, 6⟩ ⟨false, false, 4⟩ 3), some (.mbatch ⟨false, 6⟩), some (.aget ⟨false, 4⟩ 2), some .ppass,
      some (.pstat ⟨false, 7⟩), some (.tarm ⟨false, false, 6⟩ ⟨false, false, 7⟩)] := by decide +kernel

/-- 02 R46, R68: opcodes without an instruction, and words with a field that must be zero set. -/
theorem test_words_rejected : [0x00000001, 0x0F000000, 0x1E000000, 0x3E000000, 0x7A000000, 0x89000000, 0xD7000000, 0xE8000000, 0xF1000000,
      0xFF000000, 0xB0100000 ||| 0x0F000000, 0x06000001, 0x90000001].map decodeWord = List.replicate 13 none := by decide +kernel

/-! ### Well-formed instructions -/

def r1 : Src := ⟨false, false, 1⟩
def bad : Src := ⟨false, true, 8⟩
def d2 : Dst := ⟨false, 2⟩

/-- Each check of `wellFormed` refuses a term: source codes 39 to 47, the last-use bit on register 31 and on a latch;
fields without a value; sources where MOD names none. -/
theorem test_ill_formed : [Instr.add d2 bad r1, .add d2 r1 bad, .mov d2 ⟨true, false, 31⟩, .mov d2 ⟨true, true, 0⟩, .mov d2 ⟨false, true, 15⟩,
      .mod 0 1 0 0 0 0 0, .mod 0 0 0 1 0 0 0, .mod 0 0 0 0 6 0 0, .mod 0 0 0 0 0 3 0, .mod 1 0x28 0 0 0 0 0, .mset 0 0, .mlog 0 1 2 0, .mlog 1 1 2 5,
      .mlog 1 1 2 4, .stom 0 r1, .cmp d2 r1 r1 7, .cmpm 0 r1 r1 0, .cmpm 1 r1 r1 15, .cvt d2 r1 r1 14, .pack d2 r1 r1 14, .unpk d2 r1 15,
      .shfl d2 r1 r1 4, .shfl d2 r1 r1 8, .bfly d2 r1 6, .redw d2 r1 6, .scan d2 r1 14, .mdot 0 r1 r1 5, .mdotp r1 r1 0 5, .azero 31 1,
      .ascl 31 r1 1, .atoms d2 r1 r1 9, .atoms d2 r1 r1 12, .atomg d2 r1 r1 9, .atomg d2 r1 r1 12, .redg r1 r1 12, .frel 6, .facq 6, .ffull 7,
      .barv r1 r1 6, .bars d2 r1 5, .qput r1 ⟨false, true, 0⟩ 0, .qput r1 ⟨false, false, 31⟩ 0, .qput r1 r1 1, .qput r1 r1 14,
      .unassignedOpcode 0].all (fun i => !wellFormed i) = true := by decide +kernel

/-- Well-formed instructions beside them. -/
theorem test_well_formed : [Instr.add d2 r1 r1, .mov d2 ⟨false, true, 6⟩, .mov d2 ⟨true, false, 30⟩, .mod 1 9 1 14 5 2 7, .mlog 1 1 0 4, .cmp d2 r1 r1 6, .cmpm 1 r1 r1 14,
      .cvt d2 r1 r1 13, .shfl d2 r1 r1 7, .scan d2 r1 13, .mdot 31 r1 r1 4, .azero 31 0, .atoms d2 r1 r1 11, .atomg ⟨false, 0⟩ r1 r1 9, .redg r1 r1 9,
      .frel 5, .qput r1 r1 13, .unassignedOpcode 0xFF000000].all wellFormed = true := by decide +kernel

/-! ### States for the tests -/

/-- A row with lanes 0, 1 and 63 in partition 0; xn holds 8 times the lane, x1 scratchpad addresses, x3 global ones, sn a number. -/
def seat0 : Seat := { Seat.blank with
  status := .ready, bind := { lid := 7 }, nblk := 4, m := tab 8 (fun i => if i = 0 then 0x8000000000000003 else BitVec.ofNat 64 (i * 17))
  stack := [{ kind := .base, mask := BitVec.allOnes 64 }]
  x := tab 31 (fun n => tab 64 (fun l => BitVec.ofNat 64 (8 * l + (if n = 1 then 0x80000000 else if n = 3 then 0x1000 else n))))
  s := tab 31 (fun n => BitVec.ofNat 64 (if n = 1 then 0x80000100 else if n = 2 then 0x2000 else n)) }

/-- A page table of two leaves: pages of 1 GiB at 0, plain, and at 1 GiB, uncached, at the start of stack 0. -/
def tables : Memory := [(2 ^ 42, 1), (2 ^ 42 + 2, 1), (2 ^ 42 + 0x10000, 0x0F), (2 ^ 42 + 0x10008, 0x1F)]

/-- A ready module whose partition 0 has die 0, its tables in stack 2. -/
def t0 : State := { State.reset with
  agenda := [], time := 1000
  module := { State.reset.module with phase := .ready, session := true }
  parts := vset State.reset.parts 0 { en := true, dies := 1, tregion := vset (vrep 8 0) 0 (2 ^ 42 + 1) }
  dies := vset State.reset.dies 0 { owner := some 0 }
  hbm := tables
  seats := [(0, seat0)] }

/-- The same with another row on seat 0. -/
def on (f : Seat → Seat) : State := { t0 with seats := [(0, f seat0)] }
/-- A row at handler level. -/
def handler : State := on fun t => { t with hl := true }
/-- A row with an element type in MODE. -/
def typed (ty : Nat) : State := on fun t => { t with mode := BitVec.ofNat 16 ty }
/-- A source: a register, and one in broadcast form. -/
def x (n : Nat) : Src := ⟨false, false, BitVec.ofNat 5 n⟩
def sc (n : Nat) : Src := ⟨false, true, BitVec.ofNat 5 (n + 16)⟩
def dx (n : Nat) : Dst := ⟨false, BitVec.ofNat 5 n⟩

/-! ### The conditions of the statements, evaluated -/

/-- It answers, and the answer satisfies `P`. -/
def okThat {α : Type} (e : Except Stop α) (P : α → Bool) : Bool := match e with
  | .ok a => P a
  | .error _ => false
def okay {α : Type} (e : Except Stop α) : Bool := okThat e fun _ => true

theorem okThat_ok {α : Type} {e : Except Stop α} {P : α → Bool} (h : okThat e P = true) : ∃ a, e = .ok a ∧ P a = true := by
  cases e with
  | ok a => exact ⟨a, rfl, h⟩
  | error _ => cases h

/-- `CtlReady`, evaluated. -/
def ctl (s : State) (srcs : List Src) (ms : List Nat) : Bool :=
  s.now.resident && okay (s.now.check s.cur true false false false (srcs.map fun a => (a, 1)) (masks := ms))

theorem ctl_ready {s : State} {srcs : List Src} {ms : List Nat} (h : ctl s srcs ms = true) : CtlReady s srcs ms := by
  simp only [ctl, Bool.and_eq_true] at h
  obtain ⟨h1, h2⟩ := h
  obtain ⟨_, h2, -⟩ := okThat_ok h2
  exact ⟨h1, h2⟩

/-- `LaneReady` of some entry and state that satisfy `P`, evaluated. -/
def lane (s : State) (o : LaneOp) (P : PortEntry → State → Bool := fun _ _ => true) : Bool :=
  s.now.resident && okay (s.laneCheck s.cur s.now o) &&
    okThat (s.readPorts s.cur s.now (o.srcs s.now)) fun y => y.1.pois &&& s.now.act == 0 && P y.1 y.2

theorem lane_ready {s : State} {o : LaneOp} {P : PortEntry → State → Bool} (h : lane s o P = true) :
    ∃ e r, LaneReady s o e r ∧ P e r = true := by
  simp only [lane, Bool.and_eq_true] at h
  obtain ⟨⟨h1, h2⟩, h3⟩ := h
  obtain ⟨_, h2, -⟩ := okThat_ok h2
  obtain ⟨⟨e, r⟩, h3, h4⟩ := okThat_ok h3
  simp only [Bool.and_eq_true, beq_iff_eq] at h4
  exact ⟨e, r, ⟨h1, h2, h3, h4.1⟩, h4.2⟩

/-- `RegDst`, evaluated. -/
def regDst (s : State) (o : LaneOp) : Bool := o.d.nw || s.now.uniform || o.d.dr.toNat != 31

/-- `CrossReady` of some entry and state, evaluated. -/
def cross (s : State) (o : LaneOp) (rd : LaneIn → Word) : Bool :=
  s.now.resident && !s.now.uniform && okay (s.laneCheck s.cur s.now { o with rd := some (
      if o.b.toList.any Src.isPort && s.now.pximm.isNone then 0 else rd (s.laneIn s.now o s.peek)) }) &&
    okThat (s.readPorts s.cur s.now (o.srcs s.now)) fun y =>
      (!(o.srcs s.now).any Src.isPort || okay (deadCheck s.now false (o.a.toList.map fun a => (a, rd (s.laneIn s.now o y.1.v))))) &&
      y.1.pois &&& (if o.a.toList.any Src.isPort then rd (s.laneIn s.now o y.1.v) ||| s.now.gov else s.now.gov) == 0

/-- `BlockReady`, evaluated. -/
def blocky (s : State) (a b : Src) (sp : Bool) (data : Option (BitVec 5) := none) : Bool :=
  s.now.resident && !s.now.uniform && scalarOk a && immOk s.now b &&
    okay (s.now.check s.cur true false false sp ((immSrcs s.now a b).map fun a => (a, 1))
      (also := data.toList.map fun d => (false, ⟨false, false, d⟩, s.now.gov)) (masks := s.now.guardMask))

/-- `State.global` of some locations and state that satisfy `P`, evaluated. -/
def global (s : State) (as mis : List (Nat × Word)) (n : Nat) (write read : Bool) (op : Nat → Option PeerOp)
    (P : List LaneLoc → State → Bool := fun _ _ => true) : Bool :=
  okThat (s.gcheck s.now.bind.part (s.cur / 256 / 8) (some s.cur) as mis n write read op) fun y => P y.1 y.2

/-- `State.spadOk` of some key, evaluated. -/
def spadOk (s : State) (n align : Nat) (read : Bool) (ea : Int) : Bool :=
  match s.spadDecode (s.cur / 256) s.now ea with
  | .ok k => ea.toNat % align == 0 && !s.fenced.getLsbD (k / 2 ^ 24 / 8) &&
    ((linesOf k n).all fun c => !s.isAbsent c && !(read && s.isPois c)) &&
    (s.sinkLeft s.cur s.now).all fun x => !(decide (x.2 < k + n) && decide (k < x.2 + 8))
  | .error _ => false

/-- Both memories are in their form. -/
def memOk (s : State) : Bool := s.spad.wf && s.hbm.wf
/-- The step answers a next state. -/
def goes (i : Instr) (s : State) : Bool := match exec i s with
  | .next _ => true
  | _ => false
/-- The next state satisfies `P`. -/
def after (i : Instr) (s : State) (P : State → Bool) : Bool := match exec i s with
  | .next u => P u
  | _ => false



/-! ### Witnesses: for each statement with hypotheses, states and operands that meet them

A witness is a list of conditions, all true: each is one clause's hypotheses at a value named there, evaluated on a state
of this file, most often with the instruction's completion in it. -/

def all (l : List Bool) : Bool := l.all id
/-- A uniform slot of scalars. -/
def uni (f : Seat → Seat := fun t => t) : State := on fun t => f { t with bundle := some (tab 4 fun k => if k = 0 then 1 <<< 24 else 0) }
/-- The hypotheses of a statement about a lane instruction, and that it goes on. -/
def laneWit (i : Instr) (s : State) : Bool := match laneOp i s.now with
  | some o => lane s o && regDst s o && goes i s
  | none => false

/-- LaneInstructionsComplete: each of the instructions, in a type that it takes; and the edges of the operands: the last register, register
31, `nw`, a uniform slot, a latch, a broadcast scalar, the lane number, a last use, no lane active. -/
theorem wit_LaneInstructionsComplete : all (
    (([.add, .sub, .mul, .mulh, .min, .max, .and, .or, .xor, .andn, .shl, .shr, .sar, .rot, .bfx, .bfi, .div, .rem, .mad, .sext, .zext, .clamp, .rand, .movs,
        fun d a b => .lea d a b 7, fun d a b => .cmp d a b 6, fun d a b => .sel d a b 7, fun d a b => .cvt d a b 8] :
      List (Dst → Src → Src → Instr)).map fun i => laneWit (i (dx 2) (x 1) (x 3)) (typed 0)) ++
    (([.fadd, .fsub, .fmul, .fma, .fnma, .fmin, .fmax, .fdiv, fun d a b => .qcb d a b 3, fun d a b => .dqcb d a b 3,
        fun d a b => .pack d a b 9] : List (Dst → Src → Src → Instr)).map fun i => laneWit (i (dx 2) (x 1) (x 3)) (typed 8)) ++
    (([.abs, .neg, .clz, .popc, .brev, .mov] : List (Dst → Src → Instr)).map fun i => laneWit (i (dx 2) (x 1)) (typed 7)) ++
    (([.fneg, .fabs, .fsqrt, .fexp2, .flog2, .frsq, .ftanh, .fsigm, .fclass] : List (Dst → Src → Instr)).map fun i =>
      laneWit (i (dx 2) (x 1)) (typed 12)) ++
    (([.addi, .li, .lsi] : List (Dst → BitVec 18 → Instr)).map fun i => laneWit (i (dx 2) 0x3FFFF) (typed 0)) ++
    [laneWit (.add (dx 30) (x 31) ⟨true, false, 6⟩) (typed 3), laneWit (.add ⟨true, 31⟩ (sc 0) (sc 14)) (on fun t => { t with mode := 7, bind := { t.bind with ports := true } }),
      laneWit (.add (dx 31) (x 1) (x 2)) (uni fun t => { t with mode := 0 }), laneWit (.mov (dx 2) ⟨false, true, 6⟩) t0,
      laneWit (.mov (dx 2) ⟨false, true, 3⟩) (on fun t => { t with lat := vset t.lat 3 (.scalar 5) }),
      laneWit (.mov (dx 2) (x 1)) (on fun t => { t with exited := BitVec.allOnes 64 }), laneWit (.mov (dx 2) (x 1)) (on fun t => { t with hl := true }),
      laneWit (.li (dx 2) 0) (on fun t => { t with pximm := some 0xFFFFFF })]) = true := by decide +kernel

/-- IntegerSums: the types of the smallest and the largest elements, and INTSAT. -/
theorem wit_IntegerSumsAndWords_sums : all ((([.add, .sub, .mul, .mulh, .mad, fun d a _ => .abs d a, fun d a _ => .neg d a] :
    List (Dst → Src → Src → Instr)).flatMap fun i => [laneWit (i (dx 2) (x 1) (x 3)) (typed 0), laneWit (i (dx 2) (x 1) (x 3)) (typed 7),
      laneWit (i (dx 2) (x 1) (x 3)) (on fun t => { t with mode := 0x8003 })])) = true := by decide +kernel

/-- IntegerSumsAndWords: the least and the greatest immediates, with an XIMM and without. -/
theorem wit_IntegerSumsAndWords_words : all (
    (([.and, .or, .xor, .andn, fun d a b => .lea d a b 0, fun d a b => .lea d a b 7, fun d a _ => .mov d a] : List (Dst → Src → Src → Instr)).map
      fun i => laneWit (i (dx 2) (x 1) (x 3)) t0) ++
    ([0, 0x1FFFF, 0x20000, 0x3FFFF] : List (BitVec 18)).flatMap fun n => [laneWit (.li (dx 2) n) t0, laneWit (.lsi (dx 2) n) t0,
      laneWit (.addi (dx 2) n) (typed 0), laneWit (.addi (dx 2) n) (on fun t => { t with pximm := some 0xFFFFFF }),
      laneWit (.addi (dx 2) n) (on fun t => { t with mode := 0x8000 })]) = true := by decide +kernel

/-- ShiftsAndBits: in the smallest and the largest elements. -/
theorem wit_ShiftsAndBits : all ((([.shl, .shr, .sar, .rot, .bfx, .bfi, .sext, .zext, fun d a _ => .clz d a, fun d a _ => .popc d a,
    fun d a _ => .brev d a] : List (Dst → Src → Src → Instr)).flatMap fun i => [laneWit (i (dx 2) (x 1) (x 3)) (typed 0),
      laneWit (i (dx 2) (x 1) (x 3)) (typed 7)])) = true := by decide +kernel

/-- Division: by zero, and not. -/
theorem wit_Division : all ((([.div, .rem] : List (Dst → Src → Src → Instr)).flatMap fun i => [laneWit (i (dx 2) (x 1) (x 31)) (typed 0),
      laneWit (i (dx 2) (x 1) (x 3)) (typed 3)])) = true := by decide +kernel

/-- OrderAndChoice: integers, tapered and IEEE elements. -/
theorem wit_OrderAndChoice : all ((([.min, .max, .clamp, .movs, fun d a b => .sel d a b 0, fun d a b => .sel d a b 7] :
    List (Dst → Src → Src → Instr)).flatMap fun i => [laneWit (i (dx 2) (x 1) (x 3)) (typed 0), laneWit (i (dx 2) (x 1) (x 3)) (typed 12)]) ++
    ([0, 3, 6] : List (BitVec 4)).flatMap fun f => [0, 7, 8, 10].map fun ty => laneWit (.cmp (dx 2) (x 1) (x 3) f) (typed ty)) = true := by
  decide +kernel

/-- FloatOperations: each of the four types. -/
theorem wit_FloatOperations : all ((([.fadd, .fsub, .fmul, .fma, .fnma, .fdiv, .fmin, .fmax, fun d a _ => .fsqrt d a, fun d a _ => .fneg d a,
    fun d a _ => .fabs d a, fun d a _ => .fclass d a, fun d a _ => .fexp2 d a, fun d a _ => .flog2 d a, fun d a _ => .frsq d a, fun d a _ => .ftanh d a,
    fun d a _ => .fsigm d a] : List (Dst → Src → Src → Instr)).flatMap fun i =>
    [8, 9, 11, 12].map fun ty => laneWit (i (dx 2) (x 1) (x 3)) (typed ty))) = true := by decide +kernel

/-- The scalar that a source reads. -/
def sv (s : State) (a : Src) : Word := s.scalar s.now a
/-- A mask stack under the base entry. -/
def deep (es : List MaskEntry) (f : Seat → Seat := fun t => t) : State := on fun t => f { t with stack := es ++ t.stack }
def fill (n : Nat) : List MaskEntry := List.replicate n { kind := .pred, mask := BitVec.allOnes 64 }

/-- Branches: registers 0 (zero), 5 and 15; counts of 1 and of others; the extreme offsets; addresses that name a bundle, and not. -/
theorem wit_Branches : all ([ctl t0 [] [], goes (.bra 0x80000) t0, goes (.call 0x7FFFF) t0] ++
    ([0, 5, 15] : List (BitVec 4)).flatMap (fun c => [ctl t0 [cReg c] [], goes (.bz c 0x80000) t0, goes (.bnz c 1) t0, goes (.loop c 0) t0]) ++
    [sv t0 (cReg 0) == 0, sv t0 (cReg 5) != 0, sv (on fun t => t.putS 15 1) (cReg 15) == 1,
      ctl (on fun t => t.putS 15 1) [cReg 15] [], ctl t0 [sc 2] [], sv t0 (sc 2) &&& 15 == 0, goes (.jmp (sc 2)) t0, goes (.callr (sc 2)) t0,
      goes (.ret (x 2)) t0, ctl t0 [x 3] [], sv t0 (x 3) &&& 15 != 0, ctl t0 [sc 14] [], after (.jmp (sc 14)) t0 (fun u => u.now.tcause == 4)]) = true := by
  decide +kernel

/-- PathsPartAndJoin: no lane, every lane and some lanes taken, with 15 and with 16 entries below. -/
theorem wit_PathsPartAndJoin_parts : all ((([(.brd, true), (.brdn, false)] : List ((BitVec 3 → BitVec 20 → Instr) × Bool)).flatMap fun (i, b) =>
      [fill 14, fill 15].flatMap fun es => let s := deep es
        let c := if b then s.now.mr 3 else ~~~s.now.mr 3
        [ctl s [] [0, 3], s.now.path &&& c != 0, s.now.path &&& ~~~c != 0, decide (s.now.stack.length = es.length + 1), goes (i 3 5) s, goes (.jset 5) s]) ++
    [ctl t0 [] [0, 0], t0.now.path &&& t0.now.mr 0 != 0, t0.now.path &&& ~~~t0.now.mr 0 == 0, goes (.brd 0 1) t0, goes (.brdn 0 1) t0,
      ctl t0 [] [0, 7]]) = true := by decide +kernel

def div (m a : Word) : MaskEntry := { kind := .div, mask := m, alt := a, tgt := 0x40 }
def joinE : MaskEntry := { kind := .join, mask := 0xFF, tgt := 0x80 }

/-- PathsPartAndJoin: a DIV entry with live lanes, a JOIN and a BASE entry, each under a DIV entry without; and the unwinding at each. -/
theorem wit_PathsPartAndJoin_joins : all ([deep [div 1 0, div 2 2], deep [div 1 0, joinE], deep [div 1 0]].map (fun s => ctl s [] [0] && goes .join s) ++
    [(deep [div 1 0, div 2 2]).now.live == 0x8000000000000003] ++
    [[div 0 0, div 0 2], [div 0 0, joinE], [div 0 0, { joinE with mask := 0 }], []].map fun es => (deep es).now.stack.any fun e => e.kind == .base) = true := by
  decide +kernel

/-- PredicationAndJumps: with 15 and 16 entries below; a PRED entry on top and another; JMPV to one target and to several, with room and
without, and with bad targets. -/
theorem wit_PredicationAndJumps : all (([fill 14, fill 15].flatMap fun es => [ctl (deep es) [] [0, 3], goes (.pushp 3) (deep es), goes (.pushpn 3) (deep es),
      goes (.pushm 3) (deep es), ctl (deep es) [] [0], goes .invp (deep es), goes .popp (deep es)]) ++
    [t0.now.stack.length == 1, after .invp t0 (fun u => u.now.tcause == 8), after .popp t0 (fun u => u.now.tcause == 8)] ++
    ([on fun t => t.putX 4 (BitVec.allOnes 64) fun _ => 0x40, on fun t => t.putX 4 (BitVec.allOnes 64) fun l => BitVec.ofNat 64 (16 * (l % 2)),
        deep (fill 15) fun t => t.putX 4 (BitVec.allOnes 64) fun l => BitVec.ofNat 64 (16 * (l % 2)),
        deep (fill 15) fun t => t.putX 4 (BitVec.allOnes 64) fun l => BitVec.ofNat 64 (16 * min l 2),
        on fun t => t.putX 4 (BitVec.allOnes 64) fun l => BitVec.ofNat 64 (if l = 63 then 2 ^ 52 else if l = 62 then 8 else 16),
        on fun t => { t with exited := BitVec.allOnes 64 }] : List State).map fun s =>
      s.now.resident && okay (s.now.check s.cur false false false false [(x 4, s.now.path)] (masks := [0])) && goes (.jmpv (x 4)) s) = true := by decide +kernel

def guarded : State := on fun t => { t with mode := 0x0109 }
/-- MaskRegisters: the first and the last mask register, and lane masks for the comparison in types of 8 and of 64 bits. -/
theorem wit_MaskRegisters : all ((([1, 7] : List (BitVec 3)).flatMap fun d => [ctl t0 [] [d.toNat], ctl t0 [] [0, d.toNat], ctl t0 [] (t0.now.guardMask ++ [d.toNat]), ctl t0 [sc 5] [],
      goes (.mset d 3) t0, goes (.mlog d 0 d 3) t0, goes (.mlog d 7 0 4) t0, goes (.stom d (sc 5)) t0, goes (.mcnt (dx 30) d) t0, goes (.mfst (dx 2) d) t0,
      goes (.mtos (dx 2) d) t0, goes (.many (dx 31) d) t0, goes (.mall ⟨true, 3⟩ d) t0]) ++
    [ctl t0 [] [], ctl t0 [] [0], ctl t0 [] (t0.now.guardMask ++ [0]), ctl guarded [] (guarded.now.guardMask ++ [0]), goes (.mset 1 0) guarded] ++
    (([0, 6, 8, 14] : List (BitVec 4)).flatMap fun f => [0, 7, 9, 11].map fun ty =>
      lane (typed ty) { d := ⟨true, 0⟩, a := some (x 1), b := some (x 2), badType := cmpTy (typed ty).now } && !(typed ty).now.uniform &&
        goes (.cmpm 1 (x 1) (x 2) f) (typed ty))) = true := by decide +kernel

def working : State := { t0 with rows := [(0, { RowUnit.empty with mat := [
  { id := 0, seat := 0, kind := .azero, ty := 9, mask := 1, acc := 0, count := 1, steps := 1, done := 0, a := .xregs 0, b := .xregs 0, ngroup := 1
    cb0 := vrep 16 0, cb1 := vrep 16 0, cur := vrep 64 0, pois := 0, batch := 1, flags := 0, undef := 0 }], nextItem := 1 })] }
/-- ExitEndsLanes: no lane acts; some, under a governing mask; all, with matrix work and without. -/
theorem wit_ExitEndsLanes : all ([on fun t => { t with exited := BitVec.allOnes 64 }, guarded, working, t0].map (fun s => ctl s [] s.now.guardMask && goes .exit s) ++
    [(on fun t => { t with exited := BitVec.allOnes 64 }).now.gov == 0, guarded.now.gov != 0, guarded.now.live &&& ~~~guarded.now.gov != 0,
      t0.now.live &&& ~~~t0.now.gov == 0, working.matBusy working.cur, !t0.matBusy t0.cur]) = true := by decide +kernel

/-- A row of a launch on two cores, with a write whose completion is in the future. -/
def rigged (g : Nat) : State := { on (fun t => { t with gwct := some g }) with launches := [(7, some { asLaunch 0 (vrep 8 0) none 0 0 with rigw := 2, righ := 1 })] }
def contributing : State := { t0 with contribs := [{ addr := 0, v := 0, sid := some 0, who := .row 0 7, part := 0, since := 0 }] }

/-- WaitsAndFences: a time that has come and one that has not; releases of each scope that are done and that are not; prefixes with every field
at its least and greatest value. -/
theorem wit_WaitsAndFences : all ([ctl t0 [] [], goes .yield t0, ctl t0 [sc 0] [], goes (.sleept (sc 0)) t0, sv t0 (sc 0) <= t0.time, ctl t0 [sc 1] [],
      t0.time < sv t0 (sc 1), goes (.sleept (sc 1)) t0, goes .nop t0, goes (.ximm 0) t0, goes (.ximm 0xFFFFFF) t0, goes (.mod 0 0 0 0 0 0 0) t0,
      goes (.mod 1 0x7F 1 15 7 3 7) t0, goes (.time (dx 2)) t0, goes (.clkc (dx 30)) t0, goes .ifence t0] ++
    ([0, 1, 2, 3, 4, 5] : List (BitVec 3)).flatMap (fun f => [goes (.frel f) t0, goes (.facq f) t0, goes (.ffull f) t0, t0.released 0 t0.now f.toNat,
      !contributing.released 0 contributing.now f.toNat, ctl contributing [] [], goes (.frel f) contributing]) ++
    [(rigged 996).released 0 (rigged 996).now 4, !(rigged 997).released 0 (rigged 997).now 4, (rigged 996).released 0 (rigged 996).now 3,
      !(rigged 997).released 0 (rigged 997).now 3, (rigged 997).released 0 (rigged 997).now 1]) = true := by decide +kernel

/-- A partition's violation ring with a number of unread records. -/
def aRec : VioRec := { code := 1, mkind := 0, codes := 1, mid := 0, owner := 0, pc := 0, addr := 0, lanes := 0, time := 0, slot := 1, lvl := false }
def ringOf (n : Nat) (s : State) : State := s.setPart 0 { s.part 0 with vring := List.replicate n aRec }

/-- TrapEntry: at user level, with and without a prefix; at handler level, with 63 and with 64 unread records. -/
theorem wit_TrapEntry : all ([t0.now.resident, !t0.now.hl, (t0.raise t0.cur { code := 1, lanes := BitVec.allOnes 64 }).now.hl,
    !(on fun t => { t with pslot := 1, slot := 3 }).now.hl] ++
    [ringOf 63 handler, ringOf 64 handler].flatMap fun s => [s.now.resident, s.now.hl, decide (s.now.bind.part < 8),
      (s.raise s.cur { code := 1 }).now.status == .frozen]) = true := by decide +kernel

/-- TrapsAndReturns: at either level, from slots 1 and 3; RETT to slot 0 and to the last. -/
theorem wit_TrapsAndReturns : all ([ctl handler [] [], handler.now.hl, goes .rett handler,
    goes .rett (on fun t => { t with hl := true, tpc := 0xFFFFFFFFFFFF7 }), ctl t0 [] [], goes (.brk 0) t0, goes (.brk 15) t0, goes (.brk 15) handler,
    ctl t0 [sc 5] [], !t0.now.hl, goes (.trap (sc 5) 15) t0, t0.now.slot == 1, ctl (on fun t => { t with slot := 3 }) [x 31] [],
    goes (.trap (x 31) 0) (on fun t => { t with slot := 3 }), t0.now.pc &&& 15 == 0]) = true := by decide +kernel

/-- PrivilegeAndMode: each privileged form at user level; modes at the edges of their checks. -/
theorem wit_PrivilegeAndMode : all (([(.rett, []), (.mspill (sc 1), [sc 1]), (.mfill (sc 1) 15, [sc 1]), (.ctxsv (sc 1), [sc 1]), (.ctxld (sc 1), [sc 1]),
      (.csrr (dx 2) 0x10, []), (.csrr (dx 2) 0x1C, []), (.csrw 0x10 (sc 1), [sc 1]), (.csrw 0x1C (sc 1), [sc 1])] : List (Instr × List Src)).map
      (fun (i, a) => ctl t0 a [] && !t0.now.hl && after i t0 fun u => u.now.status == .frozen) ++
    [decide (t0.now.bind.part < 8), decide ((t0.part 0).vring.length < 64), ctl t0 [] [], goes (.getmode (dx 2)) t0,
      after (.setmode 0xFF4D) t0 (fun u => u.now.mode == 0xFF4D), after (.setmode 0x0050) t0 (fun u => u.now.tcause == 1),
      after (.setmode 0x004E) t0 (fun u => u.now.tcause == 3), after (.setmode 0x3000) (on fun t => { t with nblk := 3 }) (fun u => u.now.tcause == 1)]) =
    true := by decide +kernel

/-- ControlRegisters: at handler level, a shadow with a lane entry, a scalar one and invalid ones; values with every bit set, and those that MODE
takes. -/
def shadowed : State := on fun t => { t with hl := true, shadow := vset (vset t.shadow 0 (.lane (vrep 64 1))) 3 (.scalar 5), s := vset t.s 5 (BitVec.allOnes 64) }
theorem wit_ControlRegisters : all ([ctl shadowed [] [], shadowed.now.hl, ctl shadowed [sc 5] [], ctl shadowed [sc 9] [], sv shadowed (sc 9) >>> 16 == 0,
      shadowed.now.modeBad ((sv shadowed (sc 9)).setWidth 16) == none] ++
    ([0, 1, 2, 3, 4, 5, 0x10, 0x11, 0x12, 0x13, 0x14, 0x15, 0x16, 0x17, 0x18, 0x19, 0x1C] : List (BitVec 7)).flatMap fun c =>
      [goes (.csrr (dx 2) c) shadowed, goes (.csrw c (sc 9)) shadowed, goes (.csrw c (sc 5)) shadowed]) = true := by decide +kernel

/-- ChecksInOrder: each cause alone, by its code, and none. -/
theorem wit_ChecksInOrder : all ((([(t0.now, 1, true, false, false, [], 1), (t0.now, 0, false, true, false, [], 3), ((typed 14).now, 0, false, false, false, [], 3),
      (t0.now, 0, false, false, false, [(⟨false, true, 3⟩, 1)], 5),
      ({ t0.now with mode := 0x4009, xdead := vset (vrep 31 0) 1 2 }, 0, false, false, false, [(x 1, 2)], 6),
      (t0.now, 0, false, false, true, [], 0x1C), (t0.now, 1, false, false, false, [(⟨false, true, 4⟩, 1)], 0x1C),
      ({ t0.now with xpois := vset (vrep 31 0) 30 2 }, 0, false, false, false, [(x 30, 2)], 0x18)] :
    List (Seat × Nat × Bool × Bool × Bool × List (Src × Word) × Nat)).map fun (t, n, ill, bad, port, srcs, c) =>
      match t.check n false ill bad port srcs with
      | .error (.trap r) => r.code == c
      | _ => false) ++ [okay (t0.now.check 0 false false false false [(x 1, 2)])]) = true := by decide +kernel

/-- SourcesRead: registers 0 and 30 in the last lane, alive; scalars; a latch of each kind. -/
theorem wit_SourcesRead : all ([(vget 0 t0.now.xdead 0).getLsbD 63 == false, (vget 0 t0.now.xdead 30).getLsbD 63 == false, t0.now.sdead.getLsbD 30 == false,
    match vget .invalid shadowed.now.shadow 0 with
      | .lane _ => true
      | _ => false,
    match vget .invalid shadowed.now.shadow 3 with
      | .scalar _ => true
      | _ => false,
    laneWit (.add (dx 0) ⟨true, false, 30⟩ ⟨true, false, 0⟩) (typed 0), laneWit (.mov ⟨true, 0⟩ ⟨true, false, 30⟩) (uni fun t => t)]) = true := by decide +kernel

def ports (f : Seat → Seat := fun t => t) (r : RowUnit → RowUnit := fun r => r) : State :=
  { on (fun t => f { t with bind := { t.bind with ports := true, slen := 2 } }) with rows := [(0, r RowUnit.empty), (1, { RowUnit.empty with nextItem := 1 })] }
def queued (n : Nat) (r : RowUnit) : RowUnit := { r with south := List.replicate n (.reserved 0 none) }
/-- A tail: its port seat's sink in the scratchpad, 512 bytes to an iteration. -/
def tailing (f : Seat → Seat := fun t => t) (n : Nat := 0) : State :=
  ports (fun t => f { t with bind := { t.bind with srow := 1, slen := 2 }
                             tail := { t.tail with on := true, a := 0x80000000, b := 0x200#64 } }) (queued n)
/-- SouthDestination: a head with its FIFO empty, with one place left, and full; behind an exited consumer; and severed.
A tail with its sink on: its FIFO empty, with one place left, and full; the sink off; a sink at no address. -/
theorem wit_SouthDestination : all (([ports, ports (r := queued 7), ports (r := queued 8),
      ports (r := fun r => { queued 8 r with consExited := true }), ports (r := fun r => { r with severedS := true })] :
    List State).map (fun s => lane s { d := dx 31, a := some (x 1) } && !s.now.uniform && !s.now.isTail && goes (.mov (dx 31) (x 1)) s) ++
    ([tailing, tailing (n := 7), tailing (n := 8), tailing fun t => { t with tail := { t.tail with on := false } },
      tailing fun t => { t with tail := { t.tail with a := 0 } }] :
    List State).map (fun s => lane s { d := dx 31, a := some (x 1) } && !s.now.uniform && s.now.isTail && goes (.mov (dx 31) (x 1)) s) ++
    [after (.mov (dx 31) (x 1)) tailing (fun u => u.now.tail.i == 1 && (u.row 0).south.isEmpty && u.spad != t0.spad),
      after (.mov (dx 31) (x 1)) (tailing (n := 7)) (fun u => (u.row 0).south.length == 8), memOk tailing,
      after (.mov (dx 31) (x 1)) (tailing fun t => { t with tail := { t.tail with a := 0 } }) (fun u => u.now.status == .frozen)]) =
    true := by decide +kernel

/-- CrossLaneMoves: SHFL of each kind at the edges of its count; BCAST, XTOS and STOX of a scalar's lane; COMPACT under a mask. -/
theorem wit_CrossLaneMoves : all ((([0, 1, 2, 3, 5, 6, 7] : List (BitVec 4)).map fun f =>
      cross t0 { d := dx 2, a := some (x 1), b := some (sc 6), q := true, elems := false } (fun i => maskOf fun j => t0.now.live.getLsbD j &&
        (List.range 64).any fun l => t0.now.gov.getLsbD l && (shuffleFrom f.toNat (vget 0 i.b l).toNat l).getD l == j) &&
      goes (.shfl (dx 2) (x 1) (sc 6) f) t0) ++
    [laneNo t0.now (sc 6), cross t0 { d := dx 2, a := some (x 1), b := some (sc 6), elems := false, once := true } (fun i => maskOf fun j => j == i.lane),
      goes (.bcast (dx 2) (x 1) (sc 6)) t0, cross guarded { d := dx 30, a := some (x 1) } (fun _ => guarded.now.gov), goes (.compact (dx 30) (x 1)) guarded,
      cross t0 { d := dx 0, a := some (x 1), b := some (sc 6), elems := false, once := true } (fun i => maskOf fun j => j == i.lane),
      goes (.xtos (dx 31) (x 1) (sc 6)) t0, cross t0 { d := dx 2, a := some (x 1), b := some (sc 6), elems := false, once := true, readsD := true }
        (fun i => maskOf fun j => j == i.lane), goes (.stox (dx 2) (x 1) (sc 6)) t0]) = true := by decide +kernel

/-- CrossLaneSums: the least and the greatest of each function, in elements of 8 and of 64 bits, and the float trees. -/
theorem wit_CrossLaneSums : all (([0, 7] : List Nat).flatMap fun ty => let s := typed ty
    [cross s { d := dx 2, a := some (x 1), badType := numTy s.now } (fun _ => s.now.live), isInt s.now.ety, !s.now.intSat,
      cross s { d := dx 2, a := some (x 1), badType := treeTy 0 s.now } (fun _ => s.now.gov), cross s { d := dx 2, a := some (x 1), badType := treeTy 5 s.now } (fun _ => s.now.gov),
      goes (.bfly (dx 2) (x 1) 0) s, goes (.bfly (dx 2) (x 1) 5) s, goes (.redw (dx 2) (x 1) 0) s, goes (.redw (dx 2) (x 1) 5) s,
      goes (.scan (dx 2) (x 1) 0) s, goes (.scan (dx 2) (x 1) 8) s, goes (.scan (dx 2) (x 1) 13) s]) &&
  all (([8, 12] : List Nat).flatMap fun ty => let s := typed ty
    [cross s { d := dx 2, a := some (x 1), badType := treeTy 0 s.now } (fun _ => s.now.gov), goes (.redw (dx 2) (x 1) 0) s, goes (.scan (dx 2) (x 1) 1) s]) = true := by decide +kernel

/-- TransformsAndPairs: scalars 0 and 13; the last pair of registers; integers widened from 8 bits and to 64. -/
theorem wit_TransformsAndPairs : all (([sc 0, sc 13].map fun b => lane t0 { d := dx 2, a := some (x 1), b := some b, badType := floatTy t0.now, rd := some t0.now.live, once := true, second := (Src.bcast b).map (· + 1) }
       (fun e _ => e.pois &&& t0.now.live == 0) && (Src.bcast b).isSome && isFloat t0.now.ety && goes (.had (dx 2) (x 1) b) t0 && goes (.hadinv (dx 2) (x 1) b) t0) ++
    [lane (typed 1) { d := dx 29, a := some (x 1), badType := packTy 1 0 }, goes (.unpk (dx 29) (x 1) 0) (typed 1),
      lane (typed 7) { d := dx 0, a := some (x 1), badType := packTy 7 6 }, goes (.unpk (dx 0) (x 1) 6) (typed 7)]) = true := by decide +kernel

/-- The lanes' scratchpad addresses of `o` can be accessed. -/
def spads (s : State) (o : LaneOp) (n scale : Nat) (read : Bool) : Bool :=
  let i := s.laneIn s.now o (vrep 64 0)
  i.lanes.all fun l => spadOk s n n read (i.spadAddr scale l)
/-- The lanes' global addresses of `o` can be accessed. -/
def globals (s : State) (o : LaneOp) (n : Nat) (write read : Bool)
    (op : LaneIn → List (Nat × Word) → Nat → Option PeerOp := fun _ _ => loadOp n) : Bool :=
  let i := s.laneIn s.now o (vrep 64 0)
  let as := i.lanes.map fun l => (l, i.globalAddr l)
  global s as (as.filter fun x => decide (x.2.toNat % n ≠ 0)) n write read (op i as)
/-- What the stores of a data register ask. -/
def stores (s : State) (n : Nat) (d : BitVec 5) (_ : LaneIn) (as : List (Nat × Word)) : Nat → Option PeerOp :=
  storeOps n as fun l => vget 0 (s.dataVal s.now d) l
/-- A row whose MOD names an element type. -/
def ete (ty : Nat) : State := on fun t => { t with pmod := some (BitVec.ofNat 24 (0x8000 + ty * 0x800)) }
/-- `Seat.takesF`, evaluated. -/
def takes (s : State) (load : Bool) (f : BitVec 4) : Bool :=
  if s.now.modw.getLsbD 15 then f.toNat % 8 == 0 && s.now.ety != 13 else !f.getLsbD 2 || (load && f.toNat % 4 != 3)
/-- An address names a scratchpad byte. -/
def key (s : State) (ea : Int) : Bool := match s.spadDecode (s.cur / 256) s.now ea with
  | .ok _ => true
  | .error _ => false
/-- The lanes' lines of scratchpad 0 absent, or poisoned. -/
def gone : State := { t0 with absent := [(0, true)] }
def poisoned : State := { t0 with spois := [(3, true)] }

/-- ScratchpadAccesses: bytes to eight bytes, signed and not, scaled; an element type; PRES of absent, poisoned and other lines. -/
theorem wit_ScratchpadAccesses_loads : all ((([0, 3, 4, 6, 8, 14] : List (BitVec 4)).map fun f => takes t0 true f && lane t0 (memOp (dx 2) (x 1) (x 31)) &&
      spads t0 (memOp (dx 2) (x 1) (x 31)) (t0.now.size f) 1 true && goes (.lds (dx 2) (x 1) (x 31) f) t0) ++
    [takes (ete 3) true 8 && spads (ete 3) (memOp (dx 2) (x 1) (x 31)) 8 8 true && goes (.lds (dx 2) (x 1) (x 31) 8) (ete 3),
      laneWit (.mov (dx 2) (x 1)) t0] ++
    [gone, poisoned].map fun s => lane s (memOp (dx 30) (x 1) (x 31)) && (List.range 64).all (fun l =>
      key s (0x80000000 + 8 * l)) && goes (.pres (dx 30) (x 1) (x 31)) s) = true := by decide +kernel

/-- ScratchpadAccesses: each size; a data register and register 31; ABSENT of one line and of sixteen. -/
theorem wit_ScratchpadAccesses_stores : all ([memOk t0, memOk poisoned] ++ ([0, 1, 2, 3, 8, 11] : List (BitVec 4)).map (fun f => takes t0 false f &&
      lane poisoned (stOp 2 (x 1) (x 31)) && spads poisoned (stOp 2 (x 1) (x 31)) (t0.now.size f) 1 false && goes (.sts 2 (x 1) (x 31) f) poisoned) ++
    [lane t0 (stOp 31 (x 1) (x 31)), goes (.sts 31 (x 1) (x 31) 3) t0, Sparse.wf false poisoned.spois] ++ ([0, 15] : List (BitVec 4)).map fun n => lane t0 (putOp (sc 1) (x 31)) &&
      (List.range (n.toNat + 1)).all (fun j => key t0 (0x80000100 + 128 * j)) && (sv t0 (sc 1)).toNat % 128 == 0 &&
      goes (.absent (sc 1) (x 31) n) t0) = true := by decide +kernel

/-- BlockAccesses: at an aligned address of each memory, from a scalar, with and without the bypass of the caches. -/
theorem wit_BlockAccesses : all ([t0.blockAddr (sc 1) (x 31) &&& 127 == 0, blocky t0 (sc 1) (x 31) false, (List.range 64).all fun l =>
        spadOk t0 8 8 true (t0.blockLane (sc 1) (x 31) l), memOk t0, blocky t0 (sc 1) (x 31) false (some 30), goes (.ldsb (dx 2) (sc 1) (x 31)) t0,
      goes (.stsb 30 (sc 1) (x 31)) t0, t0.blockAddr (sc 2) (x 31) &&& 127 == 0, blocky t0 (sc 2) (x 31) false, blocky t0 (sc 2) (x 31) false (some 30)] ++
    (let as := ((List.range 64).filter t0.now.gov.getLsbD).map fun l => (l, t0.blockAddr (sc 2) (x 31) + BitVec.ofNat 64 (8 * l))
     [global t0 as [] 8 false true (loadOp 8), global t0 as [] 8 true false (storeOps 8 as fun l => vget 0 (t0.dataVal t0.now 30) l)]) ++
    [goes (.ldgb (dx 2) (sc 2) (x 31) 0) t0, goes (.ldgb (dx 2) (sc 2) (x 31) 1) t0, goes (.stgb 30 (sc 2) (x 31)) t0]) = true := by decide +kernel

/-- ScratchpadAtomics: each function, in 32 and 64 bits; CASS. -/
theorem wit_ScratchpadAtomics : all ((([(0, 2), (1, 7), (2, 3), (3, 12), (4, 6), (5, 2), (6, 7), (7, 9), (8, 9), (10, 9), (11, 9)] :
      List (BitVec 4 × Nat)).map fun (f, ty) => let s := typed ty
      let o : LaneOp := { d := dx 2, a := some (x 1), b := some (x 4), badType := !atomTy f.toNat s.now.ety }
      lane s o && regDst s o && spads s { o with b := some (x 31) } (tyBits s.now.ety / 8) 1 true && goes (.atoms (dx 2) (x 1) (x 4) f) s) ++
    [lane (typed 3) { d := dx 2, a := some (x 1), b := some (x 4), readsD := true, badType := !atomTy 7 3 }, goes (.cass (dx 2) (x 1) (x 4)) (typed 3),
      memOk (typed 3)]) = true := by decide +kernel

/-- A row whose tail sink has a store to make. -/
def sinking : State := { on (fun t => { t with bind := { t.bind with ports := true } }) with
  rows := [(0, { RowUnit.empty with south := [.filled { v := vrep 64 0, act := 1, ready := 0, sink := some [(0, 0)] }] })] }
/-- ScratchpadStops: lane 63's address outside the slice; misaligned; an absent line; a store of the row's sink; a poisoned line. -/
theorem wit_ScratchpadStops : all ([
    !key t0 0x1000,
    key t0 0x80000001, gone.isAbsent 0, poisoned.isPois 3, t0.fenced == 0, gone.fenced == 0, !poisoned.isAbsent 3,
    after (.lds (dx 2) (sc 2) (x 31) 0) t0 (fun u => u.now.status == .frozen),
    after (.lds (dx 2) (sc 1) (sc 1) 0) t0 (fun u => u.now.status == .frozen),
    after (.lds (dx 2) (x 1) (sc 3) 2) t0 (fun u => u.now.tcause == 0x12),
    after (.lds (dx 2) (x 1) (x 31) 3) gone (fun u => u.now.status == .parked (.lines [0])),
    sinking.sinkLeft 0 sinking.now == [(0, 0)], after (.lds (dx 2) (x 1) (x 31) 3) sinking (fun u => u.stalled && u.now.status == .ready),
    after (.lds (dx 2) (x 1) (x 31) 3) poisoned (fun u => u.now.tcause == 0x18)]) = true := by decide +kernel

/-- A partition with a grant of a peer, on a link that is up, and the peer's answers. -/
def peered : State :=
  let s := on fun t => t.putX 3 (BitVec.allOnes 64) fun l => 0x8000000000000000 + BitVec.ofNat 64 (8 * l)
  let u := s.setPart 0 { s.part 0 with span := 1, ogrant := vset (vrep 128 0) 0 0xC000000500070001 }
  { u with module := { u.module with links := vset u.module.links 0 { up := true } }, peerReplies := [.data 1, .data 2, .data 3, .data 4] }
/-- GlobalLoads: bytes to eight bytes, signed and not, cached and not; of a peer; PREFG of a page that is cached. -/
theorem wit_GlobalLoads : all ((([0, 3, 4, 6, 8, 14] : List (BitVec 4)).map fun f => takes t0 true f && lane t0 (memOp (dx 2) (x 3) (x 31)) &&
      globals t0 (memOp (dx 2) (x 3) (x 31)) (t0.now.size f) false true && goes (.ldg (dx 2) (x 3) (x 31) f) t0) ++
    [lane peered (memOp (dx 2) (x 3) (x 31)), globals peered (memOp (dx 2) (x 3) (x 31)) 8 false true,
      after (.ldg (dx 2) (x 3) (x 31) 3) peered (fun u => u.now.xr 2 63 == 3 && u.peerReplies == [.data 4] && u.spanOut.length == 3),
      decide (t0.cur < 16384), regDst t0 (memOp (dx 2) (x 3) (x 31)), lane t0 (putOp (x 3) (x 31)), goes (.prefg (x 3) (x 31)) t0, (t0.part 0).leaseLen != 0,
      match t0.xlate 0 0 0x1000 .read with
        | .mem pa false => !t0.held pa
        | _ => false]) = true := by decide +kernel

/-- GlobalStores: each size; a data register and register 31; at the page's two ends. -/
theorem wit_GlobalStores : all ([memOk t0, Sparse.wf false t0.hpois] ++ ([0, 1, 2, 3] : List (BitVec 2)).flatMap fun f => ([30, 31] : List (BitVec 5)).map fun d =>
      let n := t0.now.size (f.setWidth 4)
      takes t0 false (f.setWidth 4) && lane t0 (stOp d (x 3) (x 31)) && globals t0 (stOp d (x 3) (x 31)) n true false (stores t0 n d) &&
        goes (.stg d (x 3) (x 31) f) t0) =
    true := by decide +kernel

/-- The lanes' words can be updated. -/
def atomable (s : State) (o : LaneOp) (cas : Bool) (f : Nat) : Bool :=
  let n := tyBits s.now.ety / 8
  let i := s.laneIn s.now o (vrep 64 0)
  let as := i.lanes.map fun l => (l, vget 0 i.a l)
  global s as (as.filter fun x => decide (x.2.toNat % n ≠ 0)) n true true (i.atomOps cas s.now.ety f as)
/-- GlobalAtomics: each function, in 32 and 64 bits; CASG; a contribution. -/
theorem wit_GlobalAtomics : all ((([(0, 2), (1, 7), (2, 3), (3, 12), (4, 6), (5, 2), (6, 7), (7, 9), (8, 9), (10, 9), (11, 9), (9, 9)] :
      List (BitVec 4 × Nat)).map fun (f, ty) => let s := typed ty
      let o : LaneOp := { d := dx 0, a := some (x 3), b := some (x 4), badType := !atomTy f.toNat s.now.ety }
      lane s o && regDst s o && memOk s && atomable s o false f.toNat && goes (.atomg (dx 0) (x 3) (x 4) f) s &&
        goes (.redg (x 3) (x 4) f) s) ++
    [lane (typed 3) { d := dx 2, a := some (x 3), b := some (x 4), readsD := true, badType := !atomTy 7 3 },
      atomable (typed 3) { d := dx 2, a := some (x 3), b := some (x 4), readsD := true, badType := !atomTy 7 3 } true 7, goes (.casg (dx 2) (x 3) (x 4)) (typed 3)]) =
    true := by decide +kernel

/-- Two lists of three elements each in every lane. -/
def lists (n : Nat) : State := on fun t => [(20, 0x1000), (21, n), (22, 0x1040), (23, 3), (24, 0)].foldl (fun t (r, v) =>
  t.putX r (BitVec.allOnes 64) fun _ => BitVec.ofNat 64 v) t
/-- IsectRounds: lists with elements and without. -/
theorem wit_IsectRounds : all ([0, 3].map (fun n => let s := lists n
      s.now.resident && okay (s.now.check s.cur false false false false ([20, 21, 22, 23, 24].map fun r => (x r, s.now.gov))) &&
        goes (.isect 24 20 22) s) ++
    [global (lists 3) (((List.range 64).filter (lists 3).now.gov.getLsbD).flatMap fun l => [0x1000, 0x1040].flatMap fun a =>
      (List.range 4).map fun g => (l, a + BitVec.ofNat 64 (8 * g))) [] 8 false true (loadOp 8), (lists 3).now.xr 21 63 == 3, (lists 0).now.xr 21 63 == 0]) = true := by decide +kernel

/-- Numbers put in memory, each at an address with a size. -/
def poke (s : State) (ws : List (Nat × Nat × Nat)) : State := s.puts none ws
/-- A scalar register with a value. -/
def scal (n : Nat) (v : Word) (s : State) : State := s.setSeat 0 (s.now.putS n v)
/-- The state that an instruction leaves. -/
def next (i : Instr) (s : State) : State := match exec i s with
  | .next u => u
  | _ => s

/-- Barriers: BARI at the least and the greatest counts; BARX that overflows; BARV that completes and not, and that waits for its fence; BARW
of a generation passed and not; each part that BARS reads. -/
theorem wit_Barriers : all ([memOk t0, scalarOk (sc 1), spadOk t0 32 32 true (sv t0 (sc 1)).toNat] ++
    ([1, 0xFFFFFFFF0000FFFF] : List Word).flatMap (fun v => let s := scal 6 v t0
      [ctl s [sc 1, sc 6] [], scalarOk (sc 6), goes (.bari (sc 1) (sc 6)) s, (s.immVal s.now (sc 6)).extractLsb' 16 16 == 0]) ++
    ([0, 0xFFFFFFFF] : List Word).flatMap (fun v => let s := scal 6 v (next (.bari (sc 1) (sc 7)) (scal 7 0x200000002 t0))
      [ctl s (immSrcs s.now (sc 1) (sc 6)) [], immOk s.now (sc 6), goes (.barx (sc 1) (sc 6)) s, goes (.barv (sc 1) (sc 6) 0) s,
        s.released s.cur s.now 5, goes (.barv (sc 1) (sc 6) 5) s, goes (.barw (sc 1) (sc 6)) s, memOk s, (s.bar 0x100).penda == 2]) ++
    [decide (0 < (BitVec.ofNat 32 (t0.bar 0x100).gen - (0xFFFFFFFF : Half)).toInt), !contributing.released 0 contributing.now 0,
      goes (.barv (sc 1) (x 31) 0) contributing, ctl contributing (immSrcs contributing.now (sc 1) (x 31)) [], ctl t0 [sc 1] [],
      goes (.bars (dx 2) (sc 1) 0) t0, goes (.bars (dx 2) (sc 1) 3) t0, goes (.bars (dx 31) (sc 1) 4) t0]) = true := by decide +kernel

/-- A counter of partition 0. -/
def counting (n : Nat) (c : Counter) (s : State) : State := s.setPart 0 { s.part 0 with counters := [(n, c)] }

/-- CountersAndShares: counter 4095, unarmed, at 2, and at 1 with a task before it and frozen; TARM of an armed one, a count of 1 and of none; TAKE
of a share of a range and of an empty one. -/
theorem wit_CountersAndShares : all ((([{}, { armed := true, count := 2 }, { armed := true, count := 1, pend := [64] }, { armed := true, count := 1, frozen := true }] :
      List Counter).flatMap fun c => let s := scal 6 4095 (counting 4095 c t0)
      [ctl s [sc 6] [], decide ((sv s (sc 6)).toNat < 4096), s.counter 0 4095 == c, goes (.tdec (sc 6)) s]) ++
    ((([({}, 0x10FFF), ({ armed := true, count := 1 }, 0xFFFFFF0FFF), ({ pend := [64] }, 0xFFF)] : List (Counter × Word)).flatMap fun (c, v) =>
      let s := scal 7 0x40 (scal 6 v (counting 4095 c t0))
      [ctl s [sc 6, sc 7] [], s.released s.cur s.now 4, sv s (sc 6) >>> 40 == 0, (sv s (sc 6)).extractLsb' 12 4 == 0, s.scalar s.now (sc 7) 1 &&& 63 == 0,
        goes (.tarm (sc 6) (sc 7)) s])) ++
    [ctl t0 [sc 1] [], sv t0 (sc 1) >>> 32 == 0, spadOk t0 16 16 true (sv t0 (sc 1)).toNat, goes (.take (dx 2) (sc 1)) t0,
      goes (.take (dx 31) (sc 1)) { t0 with spad := [(0x104, 9), (0x108, 4)] }]) = true := by decide +kernel

/-- A queue whose header and ring stand in one page of memory: its kind, engine and indices. -/
def header (kind engine widx ridx : Nat) : List (Nat × Nat × Nat) :=
  [(0x3000, 8, 0x3040), (0x3008, 1, 2), (0x3009, 1, kind), (0x300A, 1, engine), (0x3010, 8, widx), (0x3018, 8, widx), (0x3020, 8, ridx)]
def withQueue (kind engine widx ridx : Nat) (ws : List (Nat × Nat × Nat) := []) : State := next (.queueRegister 0 0x3000) (poke t0 (header kind engine widx ridx ++ ws))
def theQueue (s : State) : Queue := (s.part 0).queues.headD { hdr := 0, pa := 0, base := 0, log2n := 0, pages := [], kind := 0, engine := 0 }

/-- Submissions: a ring with a place left, a full one, and a slot whose turn has not come; SPAWN of no pair, of pairs with room, and with a bad entry in the
last lane. -/
theorem wit_Submissions : all (([(3, 0, 3), (4, 0, 4), (2, 0, 3)] : List (Nat × Nat × Nat)).flatMap (fun (w, r, c) => let s := scal 6 0x3000 (poke (withQueue 0 0 w r) [(0x3010, 8, c)])
      [memOk s, s.now.resident, s.now.qput == none, ctl s [sc 6] [], okay (poisCheck s.now false [(x 2, s.now.live &&& 0xFF)]),
        okay (deadCheck s.now false [(x 2, s.now.live &&& 0xFF)]), s.released s.cur s.now 5,
        match s.qputQueue s.cur s.now (sv s (sc 6)) with
          | .ok (q, s1) => q == theQueue s && s1.widx q == w && s1.claim q == c && s1.ridx q == r && decide (q.slotPa c + 64 ≤ q.pa ∨ q.pa + 64 ≤ q.slotPa c)
          | .error _ => false,
        goes (.qput (sc 6) (x 2) 0) s, goes (.qput (sc 6) (x 2) 13) s]) ++
    [on fun t => { t with exited := BitVec.allOnes 64 }, t0, on fun t => t.putX 2 1 fun _ => 0x10, on fun t => t.putX 2 (BitVec.allOnes 64) fun l => if l = 63 then 1 else 0x10].map fun s =>
      okay (s.now.check s.cur false false false false [(x 2, s.now.gov), (x 4, s.now.gov)]) && goes (.spawn (x 2) (x 4)) s) = true := by decide +kernel

/-- ContextRecords: mask stacks of one entry, of a record of one BASE entry, and of an ill-formed one of 16. -/
theorem wit_ContextRecords_stacks : all ([memOk handler, ctl handler [sc 2] [], handler.now.hl, (sv handler (sc 2)).toNat % 4096 == 0,
      global handler (granules 0x2000 4) [] 8 true false (fun j => some (.store 3 ((handler.now.stack.reverse.flatMap fun e => [e.mask, e.alt, e.tgt, BitVec.ofNat 64 e.kind.code]).getD j 0) false)), goes (.mspill (sc 2)) handler,
      global handler (granules 0x2000 4) [] 8 false true (loadOp 8) fun ls _ => ls.all fun y => match y.2.2 with
        | .mem pa _ => (handler.cached 0 pa).isNone && (List.range 8).all fun j => handler.hbyte (pa + j) == 0
        | .peer _ => false,
      global handler (granules 0x2000 64) [] 8 false true (loadOp 8) fun ls _ => ls.length == 64, goes (.mfill (sc 2) 0) handler,
      after (.mfill (sc 2) 15) handler fun u => u.now.status == .frozen]) = true := by decide +kernel
/-- A row at handler level, with bytes in memory below its page tables. -/
def loading (ws : Memory) : State := { handler with hbm := ws ++ tables }
/-- An image of a seat without live registers. -/
def image : Memory := [(0x200A, 1), (0x2019, 4), (0x2034, 1)]

theorem loading_xlate (ws : Memory) (hw : ws = [] ∨ ws = image) (k : AccKind) (a : Nat) (ha : a < 2 ^ 30) :
    (loading ws).xlate 0 0 (BitVec.ofNat 64 a) k = .mem a false := by
  have h1 : (BitVec.ofNat 64 a).toNat = a := by simp [BitVec.toNat_ofNat]; omega
  have h2 : (BitVec.ofNat 64 a).getLsbD 63 = false := by
    rw [BitVec.getLsbD, h1, Nat.testBit_lt_two_pow (by omega)]
  have h3 : (BitVec.ofNat 64 a).extractLsb' 52 11 = 0 := by
    apply BitVec.eq_of_toNat_eq; rw [BitVec.extractLsb'_toNat, h1, Nat.shiftRight_eq_div_pow]; simp; omega
  have i3 : vaIndex a 3 = 0 := by simp [vaIndex]; omega
  have i2 : vaIndex a 2 = 0 := by simp [vaIndex]; omega
  have hp : ∀ pa, (loading ws).secPois pa = false := fun pa => rfl
  have hu : ∀ pa, (loading ws).secUE pa = false := fun pa => rfl
  have hwalk : (loading ws).walk 0 0 a = .leaf 0x0F 2 := by
    unfold State.walk
    rw [show ((loading ws).part 0).region 0 = some (2 ^ 42, 2 ^ 26) by rcases hw with rfl | rfl <;> decide +kernel]
    simp only
    have e3 : (loading ws).hread (2 ^ 42 + 0 + 8 * 0) 8 = 1 + 65536 := by rcases hw with rfl | rfl <;> decide +kernel
    have e2 : (loading ws).hread (2 ^ 42 + 65536 + 8 * 0) 8 = 15 := by rcases hw with rfl | rfl <;> decide +kernel
    unfold State.walkFrom
    simp only [i3, e3, show (BitVec.ofNat 64 (1 + 65536)).getLsbD 0 = true by decide,
      show (BitVec.ofNat 64 (1 + 65536)).getLsbD 1 = false by decide]
    unfold State.walkFrom
    simp only [i2, show pteAddr (BitVec.ofNat 64 (1 + 65536)) = 65536 by decide, e2, show (15#64).getLsbD 0 = true by decide,
      show (15#64).getLsbD 1 = true by decide]
    simp [hp, hu, show (loading ws).held 4398046511104 = false by rcases hw with rfl | rfl <;> decide +kernel,
      show (loading ws).held 4398046576640 = false by rcases hw with rfl | rfl <;> decide +kernel]
  have hs : paStack a = 0 := by simp [paStack]; omega
  have hp : pteAddr 0x0F + a % pageSize 2 = a := by
    rw [show pteAddr 0x0F = 0 by decide, show pageSize 2 = 2 ^ 30 by decide, Nat.mod_eq_of_lt ha, Nat.zero_add]
  have hl : paLocal a = a := by simp [paLocal]; omega
  have hb : (loading ws).backed a = true := by
    have hc : ((loading ws).stack 0).capacity = 90 * 10 ^ 9 := by rcases hw with rfl | rfl <;> decide +kernel
    simp only [State.backed, hs, hl, hc, Bool.and_eq_true, decide_eq_true_eq]; omega
  unfold State.xlate
  rw [show vaBad (BitVec.ofNat 64 a) = false by rw [vaBad, h2, h3]; rfl, h2, h1, hwalk]
  simp only [State.leafCheck, hp, hb, hs]
  rw [show a / pageSize 2 * pageSize 2 = 0 by rw [show pageSize 2 = 2 ^ 30 by decide, Nat.div_eq_of_lt ha, Nat.zero_mul]]
  have hi : (loading ws).inRegion 0 (pageSize 2) = false := by rcases hw with rfl | rfl <;> decide +kernel
  have hd : ((loading ws).part 0).dies.getLsbD (stackDie 0) = true := by rcases hw with rfl | rfl <;> decide +kernel
  simp only [hi, hd]
  cases k <;> simp

theorem takeReplies_mem (f : Nat × Word → Nat) (as : List (Nat × Word)) (rs : List PeerReply) :
    takeReplies (as.map fun a => (a.1, a.2, .mem (f a) false)) rs = some (as.map fun a => (a.1, a.2, .mem (f a) false, .data 0), rs) := by
  induction as with
  | nil => rfl
  | cons a as ih => simp [takeReplies, ih]

theorem frames_mem (s : State) (p : Nat) (op : Nat → Option PeerOp) (f : Nat × Word → Nat) (as : List (Nat × Word)) (g : PeerReply → Bool) :
    s.frames p op (as.map fun a => (a.1, a.2, .mem (f a) false, .data 0)) g = [] := by
  simp only [State.frames, List.filterMap_eq_nil_iff]
  intro y hy
  obtain ⟨y, k⟩ := y
  obtain ⟨a, -, rfl⟩ := List.mem_map.1 (List.fst_mem_of_mem_zipIdx hy)
  rfl

/-- Where the granules of the image at 0x2000 are. -/
def locs : List LaneLoc := (granules 0x2000 8192).map fun a => (a.1, a.2, .mem a.2.toNat false)

/-- The granules of an image of `loading ws` can be accessed. -/
theorem loading_global (ws : Memory) (hw : ws = [] ∨ ws = image) (w r : Bool) (op : Nat → Option PeerOp) :
    (loading ws).global (granules 0x2000 8192) [] 8 w r op locs (loading ws) := by
  have hx : (granules 0x2000 8192).map (fun a => (a.1, a.2, (loading ws).xlate 0 0 a.2 (if w then .write else .read))) =
      (granules 0x2000 8192).map fun a => (a.1, a.2, .mem a.2.toNat false) := by
    apply List.map_congr_left
    intro a ha
    obtain ⟨i, hi, rfl⟩ := List.mem_map.1 ha
    have hi := List.mem_range.1 hi
    have : (0x2000 : Word) + BitVec.ofNat 64 (8 * i) = BitVec.ofNat 64 (0x2000 + 8 * i) := by
      apply BitVec.eq_of_toNat_eq; simp [BitVec.toNat_add]
    simp only [this, loading_xlate ws hw _ (0x2000 + 8 * i) (by omega), BitVec.toNat_ofNat, Nat.mod_eq_of_lt (show 0x2000 + 8 * i < 2 ^ 64 by omega)]
  have e1 : (loading ws).cur / 256 / 8 = 0 := by rcases hw with rfl | rfl <;> decide +kernel
  have e2 : (loading ws).now.bind.part = 0 := by rcases hw with rfl | rfl <;> decide +kernel
  have e3 : (loading ws).peerReplies = [] := rfl
  have hf : (loading ws).fenced = 0 := rfl
  have hheld : ∀ pa, (loading ws).held pa = false := by
    intro pa
    have hk : ∀ k, ((loading ws).stack k).hBusy = false ∧ ((loading ws).stack k).retBusy = false := by
      intro k
      show (vget {} (vrep 24 ({} : Stack)) k).hBusy = false ∧ (vget {} (vrep 24 ({} : Stack)) k).retBusy = false
      rw [vget_vrep]; split <;> exact ⟨rfl, rfl⟩
    simp [State.held, (hk _).1, (hk _).2]
  have hp : ∀ pa, (loading ws).secPois pa = false := fun pa => rfl
  have hu : ∀ pa, (loading ws).secUE pa = false := fun pa => rfl
  have hc : ∀ c n pa, (loading ws).behindFaddx c pa n = false := fun _ _ _ => rfl
  have b1 : ∀ n, (Xlate.mem n false == .wait) = false := fun _ => rfl
  have b2 : ∀ n, (Xlate.mem n false == .peer) = false := fun _ => rfl
  have b3 : ∀ n, (Xlate.mem n false == .absent) = false := fun _ => rfl
  unfold State.global State.gcheck
  rw [e1, e2]
  simp only [hx, e3, frames_mem, takeReplies_mem, List.any_map, List.filter_map, List.map_map, List.filterMap_map, Function.comp_def, failing, vioOf,
    State.fencedAt, hp, hu, hc, hf]
  unfold locs
  generalize granules 0x2000 8192 = as
  have n1 : ∀ l : List Nat, l.any (loading ws).held = false := fun l => by simp [List.any_eq_false, hheld]
  have n2 : ∀ l : List Nat, (l.any fun _ => false) = false := fun l => by simp
  have n3 : List.find? (fun _ => false) as = none := by simp
  have n5 : ∀ g : Nat × Word × Xlate → Option Nat, (∀ a : Nat × Word, g (a.1, a.2, .mem a.2.toNat false) = none) →
      List.findSome? g (as.map fun a => (a.1, a.2, Xlate.mem a.2.toNat false)) = none := fun g h => by
    rw [List.findSome?_map]; simp [Function.comp_def, h]
  rw [n5 _ fun _ => rfl]
  simp [b1, b2, b3, failTrap, vioFreezeWith, under, bind, Except.bind, n1, n2, n3, pure, Except.pure]
  cases r <;> rfl

/-- What the image at 0x2000 reads as. -/
def reads (ws : Memory) : ImgRead := { rd := fun off n => if off / 8 < 8192 then (loading ws).hread (0x2000 + off) n else 0, pois := fun _ => false }
theorem locs_at (off : Nat) : locAt locs off = if off / 8 < 8192 then .mem (0x2000 + off / 8 * 8) false else .peer (.data 0) := by
  simp only [locAt, locs, granules, List.map_map, List.getD_eq_getElem?_getD, List.getElem?_map]
  split
  · rename_i hlt
    rw [List.getElem?_range hlt]
    simp [BitVec.toNat_add]; omega
  · rename_i hge
    rw [List.getElem?_eq_none (by simpa using hge)]; rfl

theorem loading_reads (ws : Memory) : (loading ws).imgRead locs = reads ws := by
  simp only [State.imgRead, reads, locs_at, ImgRead.mk.injEq, and_true]
  funext off n
  by_cases h : off / 8 < 8192
  · simp only [h, if_true]; congr 1; omega
  · simp [h]

theorem loading_clean (ws : Memory) (used : List Nat) : (loading ws).imagePois locs used = .ok () := by
  have hp : ∀ pa, (loading ws).secPois pa = false := fun pa => rfl
  have hu : ∀ pa, (loading ws).secUE pa = false := fun pa => rfl
  have h : ∀ o, (locAt locs o == .peer .poison) = false := by
    intro o; rw [locs_at]; split <;> rfl
  have f1 : ∀ l : List (Nat × Word), l.find? (fun _ => false) = none := fun l => by simp
  have f2 : ∀ l : List (Nat × Word), l.filter (fun _ => false) = [] := fun l => by simp
  have f3 : used.filter (fun _ => false) = [] := by simp
  simp only [State.imagePois, hp, hu, h, f1, f2, f3, failTrap, List.map_nil, List.append_nil]
  rfl

/-- ContextRecords: an image saved; one refused, its version being 0; and one loaded. -/
theorem wit_ContextRecords_images : (∀ fs, (loading []).global (granules 0x2000 8192) [] 8 true false (imageOp fs) locs (loading [])) ∧
    (∀ ws, ws = [] ∨ ws = image → (loading ws).global (granules 0x2000 8192) [] 8 false false (loadOp 8) locs (loading ws) ∧
      (loading ws).imagePois locs (((loading ws).imgRead locs).used (loading ws).now.nblk) = .ok ()) ∧
    all ([ctl (loading []) [sc 2] [], ctl (loading image) [sc 2] [], (sv (loading []) (sc 2)) == 0x2000, (sv (loading image) (sc 2)) == 0x2000, (loading []).now.hl,
      memOk (loading []), !(loading []).matBusy 0, { loading [] with rows := working.rows }.matBusy 0]) = true ∧
    (loading []).now.imageBad ((loading []).imgRead locs) = true ∧ (loading image).now.imageBad ((loading image).imgRead locs) = false := by
  refine ⟨fun _ => loading_global [] (.inl rfl) true false _, fun ws h => ⟨loading_global ws h false false _, loading_clean ws _⟩, by decide +kernel, ?_, ?_⟩ <;>
    rw [loading_reads] <;> decide +kernel

/-- A row with ports, at its string's head, with entries at its north. -/
def entry (n : Nat) : PortEntry := { v := vrep 64 (BitVec.ofNat 64 n), act := BitVec.allOnes 64, ready := 0 }
def fed (s : State) : State := s.setRow 0 { s.row 0 with north := [entry 1, entry 2, entry 3, entry 4], feed := some 0 }
def matTy (ty : Nat) : State := ports fun t => { t with mode := BitVec.ofNat 16 ty }
/-- The operand groups of a matrix slot can be read. -/
def groups (s : State) (a b : Src) (k : Nat) (sp : Bool := false) : Bool :=
  let t := s.now
  let g := groupSize t.ety (2 ^ k)
  (t.ety == 8 || t.ety == 10 || t.ety == 11 || t.ety == 13) && !groupIllegal a g && !groupIllegal b g && !(a.isPort && b.isPort) &&
    okThat (s.groupPorts 0 t a g) (fun (ea, s1) => okThat (s1.groupPorts 0 t b g) fun (eb, _) => (ea ++ eb).all fun e => e.pois &&& t.gov == 0) &&
    okay (t.check 0 false false false sp ((groupSrcs a g ++ groupSrcs b g).map fun y => (y, t.gov)))

def anItem : MatItem := { id := 0, seat := 0, kind := .azero, ty := 9, mask := 1, acc := 0, count := 1, steps := 1, done := 0, a := .xregs 0, b := .xregs 0
                          ngroup := 1, cb0 := vrep 16 0, cb1 := vrep 16 0, cur := vrep 64 0, pois := 0, batch := 1, flags := 0, undef := 0 }
def items (n : Nat) (s : State) : State := s.setRow 0 { s.row 0 with mat := List.replicate n anItem }

/-- MatrixQueue: with seven items queued and with eight; accumulators 0 and 31, and all 16 from 16 on; each operand type, of 1 and of 16 steps, from registers, a scalar, and the
port; MDOTP of both forms. -/
theorem wit_MatrixQueue : all ([((items 7 t0).row 0).queued.length == 7, ((items 8 t0).row 0).queued.length == 8, goes (.azero 16 15) (items 7 t0),
      goes (.azero 31 0) (items 8 t0), okay (t0.now.check 0 false false false false []), okay (t0.now.check 0 false false false false [(x 5, t0.now.gov)]),
      okay (t0.readPorts 0 t0.now [x 5]), goes (.aput 30 (x 5)) t0, goes (.ascl 16 (x 5) 15) t0, goes (.ascl 31 (x 5) 0) t0,
      goes (.aput 30 (x 5)) (items 8 t0), goes (.ascl 31 (x 5) 0) (items 8 t0), goes (.mdot 31 (x 1) (x 2) 0) (items 8 (matTy 8)), goes (.mdotp (x 1) (x 2) 0 2) (items 8 (matTy 10))] ++
    [8, 10, 11, 13].flatMap (fun ty => [groups (matTy ty) (x 1) (x 2) 0, goes (.mdot 31 (x 1) (x 2) 0) (matTy ty)]) ++
    [groups (matTy 10) (x 0) (x 15) 4, goes (.mdot 0 (x 0) (x 15) 4) (matTy 10), groups (matTy 10) (sc 0) (x 16) 0, goes (.mdot 0 (sc 0) (x 16) 0) (matTy 10),
      groups (fed (matTy 10)) ⟨false, true, 4⟩ (x 16) 0, goes (.mdot 0 ⟨false, true, 4⟩ (x 16) 0) (fed (matTy 10)), groups (fed (matTy 10)) (x 1) (x 2) 2 true,
      goes (.mdotp (x 1) (x 2) 1 2) (fed (matTy 10)), goes (.mdotp (x 1) (x 2) 0 2) (fed (matTy 10)), okay ((fed (matTy 10)).readNorth 0 (matTy 10).now true),
      !(matTy 10).now.isTail, !((matTy 10).row 0).consExited, !((matTy 10).row 0).severedS]) = true := by decide +kernel

def table64 : State := { t0 with spad := [(0x161, 0x7F), (0x17F, 0x80)] }
/-- BatchesAndAccumulators: MWAIT for batch 0, for every batch, and for one that is queued; accumulators 0 and 30; a codebook. -/
theorem wit_BatchesAndAccumulators : all ([ctl t0 [] [], goes (.mbatch (dx 2)) t0, goes (.mbatch ⟨true, 2⟩) t0] ++
    [sc 0, x 31, ⟨false, true, 2⟩].flatMap (fun a => [t0, working].flatMap fun s0 => let s := s0.setSeat 0 { s0.now with lat := vset s0.now.lat 2 (.scalar 5) }
      [ctl s [a] [], Sparse.wf RowUnit.empty s.rows, goes (.mwait a) s]) ++
    [after (.mwait (x 31)) t0 (fun u => u.now.slot == 2), okay (t0.now.check 0 false false false false []), goes (.aget (dx 2) 0) t0, goes (.aget ⟨true, 0⟩ 30) t0,
      goes (.aget (dx 2) 5) working, ctl table64 [sc 5] [], ctl (scal 5 0x140 table64) [sc 5] [], spadOk (scal 5 0x80000140 table64) 64 64 true 0x80000140,
      goes (.ldcb 3 (sc 5)) (scal 5 0x80000140 table64)]) = true := by decide +kernel

def tailed : State := on fun t => { t with bind := { t.bind with ports := true }, s := vset (vset t.s 6 0x100) 7 0x1000000000008 }
/-- PortsAndUnassigned: an entry that can be read; PSTAT with none and with four; TAILCFG of a tail, and not; words of both kinds. -/
theorem wit_PortsAndUnassigned : all ([okay ((fed (matTy 9)).now.check 0 false false false true []), okay ((fed (matTy 9)).readNorth 0 (fed (matTy 9)).now true),
      goes .pdrop (fed (matTy 9)), goes .ppass (fed (matTy 9)), okay (t0.now.check 0 true false false false []), okay ((matTy 9).now.check 0 true false false true []),
      (fed (matTy 9)).readable 0 (fed (matTy 9)).now == 4, (matTy 9).readable 0 (matTy 9).now == 0, goes (.pstat (dx 2)) (fed (matTy 9)), goes (.pstat (dx 2)) (matTy 9),
      ctl tailed [sc 6, sc 7] [], tailed.now.isTail, sv tailed (sc 6) >>> 32 == 0, tailed.scalar tailed.now (sc 7) 1 >>> 49 == 0, goes (.tailcfg (sc 6) (sc 7)) tailed,
      ctl t0 [sc 6, sc 7] [], after (.tailcfg (sc 6) (sc 7)) t0 (fun u => u.now.tcause == 0x1C), goes (.unassignedOpcode 0xFF000000) t0,
      goes (.unassignedOpcode 0xF0000001) t0]) = true := by decide +kernel

/-- A machine in which seat 0 is parked. -/
def parked (w : Park) (f : State → State := fun s => s) : State := f (on fun t => { t with status := .parked w })

def crossing (n : Nat) : State := { t0 with rows := [(63, { RowUnit.empty with south := [.filled (entry 1)] }), (512, { RowUnit.empty with north := List.replicate n (entry 2) })] }
def storing (f : State → State := fun s => s) : State := f { tailed with rows := [(0, { RowUnit.empty with south := [.filled { entry 1 with sink := some [(0, 0x100), (63, 0x108)] }] })] }
def waiting (n : Nat) (since : Nat) : State := { t0 with
  time := 200000, accums := (List.range n).map fun k => (0x1000 + 4 * ((k + 1) % 8) + 2 ^ 21 * ((k + 1) / 8), some {})
  contribs := [{ addr := 0x1000, v := 0x3F800000, sid := some 0, who := .row 0 7, part := 0, since := since }] }
/-- SeatsAndPorts: a seat skipped 16 times; each kind of park, met and not; the last row of a die with room below and without; a tail's store, present and
absent; a contribution with room and without, 100 µs old and younger. -/
theorem wit_SeatsAndPorts : all ([(on fun t => { t with skip := 16 }).now.status == .ready, goes (.forcedIssue 0) (on fun t => { t with skip := 16 }),
      ((parked (.lines [5, 6])).isAbsent 5 == false), goes (.seatWake 0) (parked (.lines [5, 6])), (parked (.lines [0]) fun s => { s with absent := gone.absent }).isAbsent 0,
      goes (.seatWake 0) (parked (.lines [0]) fun s => { s with absent := gone.absent }), goes (.seatWake 0) (parked (.barrier 0x100 0xFFFFFFFF)),
      goes (.seatWake 0) (parked (.barrier 0x100 0)), !(parked (.barrier 0x100 0)).isPois 2, goes (.seatWake 0) (parked (.batch 1)),
      goes (.seatWake 0) (parked (.batch 1) fun s => { s with rows := working.rows }), working.matBusy 0, goes (.seatWake 0) (parked (.yield 0)),
      goes (.seatWake 0) (parked (.yield 0) fun s => s.setCore 0 { s.core 0 with clkc := 1 }), goes (.sleeptWake 0) (parked (.sleep 1000)),
      goes (.sleeptWake 0) (parked (.sleep 1001)), goes (.seatWake 0) (parked (.sleep 1001))] ++
    [3, 4].flatMap (fun w => let s := (withQueue 0 0 w 0).setSeat 0 { t0.now with status := .parked (.ring 0x3000), qput := some w }
      [s.queue 0 0x3000 == some (theQueue s), s.ridx (theQueue s) == 0, goes (.seatWake 0) s]) ++
    [15, 16].flatMap (fun n => [Sparse.wf RowUnit.empty (crossing n).rows, ((crossing n).row 512).north.length == n, goes (.portCrossingMove 63) (crossing n)]) ++
    [storing, storing fun s => { s with absent := [(2, true)] }].flatMap (fun s => [memOk s, Sparse.wf RowUnit.empty s.rows, (s.seat 0).isTail, goes (.tailSinkStore 0) s]) ++
    [(31, 100000), (32, 100001)].flatMap (fun (n, t) => let s := waiting n t
      [(s.accum 0x1000).isNone, s.unitRoom 0x1000 == decide (n < 32), goes (.faddxContribution 0) s, goes (.faddxWaitReport 0) s])) = true := by decide +kernel

def stepping (kind : MatKind) (steps done count : Nat) : State := (ports).setRow 0 { RowUnit.empty with
  mat := [{ id := 0, seat := 0, kind := kind, ty := 10, mask := 3, acc := 0, count := count, steps := steps, done := done, a := .xregs 1, b := .xregs 4, ngroup := 2
            cb0 := vrep 16 0, cb1 := vrep 16 0, cur := vrep 64 0, pois := 0, batch := 1, flags := 0, undef := 0 }]
  south := if kind = .mdotp then [.reserved 0 none] else [] }
/-- MatrixSteps: the first of two steps and the last, of MDOT and of MDOTP; the one step of the others. -/
theorem wit_MatrixSteps : all ((([(.mdot, 2, 0, 1), (.mdot, 2, 1, 1), (.mdotp, 2, 0, 0), (.mdotp, 2, 1, 0), (.azero, 1, 0, 32), (.aput, 1, 0, 2), (.ascl, 1, 0, 16)] :
      List (MatKind × Nat × Nat × Nat)).map fun (k, n, d, c) => let s := stepping k n d c
      (s.seat 0).resident && ((s.row 0).mat.all fun i => decide (i.done < i.steps)) && !(s.seat 0).isTail && goes (.matrixStep 0) s)) = true := by decide +kernel

/-- The first queue of partition 0 with a packet, words by offset, in its first slot. -/
def offering (kind : Nat) (ws : List (Nat × Nat)) (s : State := ports fun t => { t with bind := { t.bind with slen := 1 } }) : State :=
  next (.queueRegister 0 0x3000) (poke s (header kind 0 1 0 ++ ws.map fun w => (0x3040 + w.1, 8, w.2)))

/-- QueueUpkeep: a header that can be captured, registered, halted; an outside submission in range and out of it; a frozen counter. -/
theorem wit_QueueUpkeep : all ((let s := poke t0 (header 0 0 1 0)
    [memOk s, (s.capture 0 0x3000).isSome, (s.queue 0 0x3000).isNone, goes (.queueRegister 0 0x3000) s, (s.capture 0 0x3010).isNone]) ++
    (let s := withQueue 0x80 0 1 0
     let q := theQueue s
     [memOk s, s.queue 0 0x3000 == some q, q.ext, !(theQueue (withQueue 0 0 1 0)).ext, goes (.queueHaltClear 0 0x3000) (poke s [(0x300C, 4, 0x203)]),
      goes (.extQueueSubmit 0 0x3000 (vrep 8 5) 4) s, goes (.extQueueSubmit 0 0x3000 (vrep 8 5) 5) s, !s.halted q,
      decide (q.slotPa (s.widx q) + 64 ≤ q.pa ∨ q.pa + 64 ≤ q.slotPa (s.widx q))]) ++
    (let s := counting 4095 { frozen := true, pend := [64] } t0
     [(s.counter 0 4095).frozen, !(s.counter 0 0).frozen, Sparse.wf {} (s.part 0).counters, goes (.counterFrozenClear 0 4095) s,
      goes (.counterFrozenClear 0 0) s])) = true := by decide +kernel

/-- A copy packet: its kind and FLAGS, LEN, source, destination, ROWS, targets and index list. -/
def copyOf (kind len src dst rows : Nat) (rel land idx : Nat := 0) : List (Nat × Nat) :=
  [(0, kind + len * 2 ^ 32), (8, src), (0x10, dst), (0x18, rows), (0x28, rel), (0x30, land), (0x38, idx)]
def aPacket (s : State) : Packet := (s.packet 0).getD { part := 0, hdr := 0, slot := 0, pkt := vrep 8 0, core := none }
def packets : List (Instr × Nat × List (Nat × Nat)) :=
  [(.copy 0 0x3000, 1, copyOf 0x201 64 0x1000 0x80000000 1), (.feed 0 0x3000, 2, copyOf 0x002 512 0x1000 0x700000000 1),
    (.fill 0 0x3000, 3, copyOf 0x203 64 0x55 0x80000000 1), (.gather 0 0x3000, 4, copyOf 0x204 64 0x1000 0x80000000 1 0 0 0x1800)]

def clean (u : State) (n : Nat) (y : Side) : Bool := !y.isPeer && match y with
  | .spad _ => true
  | _ => (y.bytes n).all fun a => !u.secUE a
/-- Both sides of a packet's next row can be accessed, its index read where it has one. -/
def rowOk (u : State) (k : Packet) (P : Option Side → Side → Bool) : Bool :=
  match u.idxSide k with
  | .ok y => let idx := match y with
      | some z => if clean u 4 z then (u.sideBytes 4 z).foldr (fun b v => b.toNat + 256 * v) 0 else 0
      | none => 0
    match u.rowSrc k idx, u.rowDst k with
    | .ok src, .ok dst => P src dst
    | _, _ => false
  | _ => false

/-- CopyEngines, acceptance and rows: each kind, with a length that the checks refuse, and without; the row that it then moves. -/
theorem wit_CopyEngines : all (packets.flatMap fun (i, kind, ws) => let s := offering 1 ws
    let q := theQueue s
    let bad := offering 1 (ws ++ [(0, kind)])
    let u := next i s
    [memOk s, Sparse.wf none s.packets, s.queue 0 0x3000 == some q, q.sort == 1, (s.moving 0 0x3000).isNone, q.core == some 0, s.fenced == 0,
      match s.offered q with
        | some k => pktKind k == kind && (lowest (s.copyCodes 0 q k)).isNone && decide (s.targetsCheck q k = .ok ()) && (kind != 2 || s.feedHead 0 0 k == some 0)
        | none => false,
      match bad.offered (theQueue bad) with
        | some k => pktKind k == kind && (lowest (bad.copyCodes 0 (theQueue bad) k)).isSome
        | none => false,
      goes i s, goes i bad, (u.packet 0).isSome] ++ if kind = 2 then [] else
    [match u.moving 0 0x3000 with
        | some (n, k) => n == 0 && k == aPacket u && !k.fault && !k.frozen && !u.rowsHeld k && memOk u
        | none => false,
      rowOk u (aPacket u) fun src dst => src.all (fun y => !y.isPeer && clean u (pktLen (aPacket u).pkt) y) && !dst.isPeer, goes i u]) = true := by decide +kernel

/-- CopyEngines, the row of an engine of no core: to a peer that answers; at a page that is not present; and at none of the partition's. -/
theorem wit_CopyEngines_rows : all (let row := fun dst : Word => peered.setPacket 0 (some
      { part := 0, hdr := 0x3000, slot := 0, core := none, pkt := tab 8 fun n => ([0x2000000001, 0x1000, dst, 1] : List Word).getD n 0 })
    let p := row 0x8000000000000000
    [rowOk p (aPacket p) fun src dst => src.all (clean p 32) && dst.isPeer, !p.rowsHeld (aPacket p),
      match (row 0xF00000000000).rowDst (aPacket (row 0xF00000000000)), (row 0x10000000000000).rowDst (aPacket (row 0x10000000000000)) with
        | .fault a, .vio c _ _ => a == 0xF00000000000 && c == 0x44
        | _, _ => false]) = true := by decide +kernel

/-- A packet that has moved its rows. -/
def moved (rel land : Nat) (s : State := ports fun t => { t with bind := { t.bind with slen := 1 } }) : State :=
  next (.copy 0 0x3000) (next (.copy 0 0x3000) (offering 1 (copyOf 0x201 64 0x1000 0x80000000 1 rel land) s))

/-- CopyEngines, entries and targets: a FEED's entry; no target, a counter and a barrier; the last of both; a fault that is met, and one that stands. -/
theorem wit_CopyEngines_ends : all ((let u := next (.feed 0 0x3000) (offering 1 (copyOf 0x002 512 0x1000 0x700000000 1))
      [(u.row 0).feed == some 0, (aPacket u).row == 0, decide ((aPacket u).row < pktRows (aPacket u).pkt), (u.row 0).north.isEmpty, (match u.rowSrc (aPacket u) 0 with
        | .ok (some y) => clean u (pktLen (aPacket u).pkt) y
        | _ => false), !u.rowsHeld (aPacket u), goes (.feedEntryPush 0) u]) ++
    [(0, 0), (2 ^ 63 + 5, 2 ^ 63 + 4095), (2 ^ 62 + 0x80000100, 2 ^ 62 + 0x80000100)].flatMap (fun (rel, land) =>
      let u := moved rel land (next (.bari (sc 1) (sc 7)) (scal 7 0x100000000001 t0))
      [(u.packet 0).isSome, (aPacket u).readAll, !(aPacket u).released, !(aPacket u).landed, u.landable 0 (aPacket u), (aPacket u).head.isNone, (u.bar 0x100).pendb == 0x1000,
        pktBytes (aPacket u).pkt == 64, !u.isPois 2, goes (.release 0) u, goes (.landed 0) u, (aPacket (next (.landed 0) u)).landed,
        goes (.release 0) (next (.landed 0) u), (next (.release 0) (next (.landed 0) u)).packet 0 == none, goes (.landed 0) (next (.release 0) u)]) ++
    [0x1000, 0xF00000000000].flatMap (fun src => let s := t0.setPacket 5 (some { part := 0, hdr := 0x3000, slot := 0, core := some 0, fault := true
                                                                                 pkt := tab 8 fun n => ([0x4000000201, src, 0x80000000, 1] : List Word).getD n 0 })
      [match s.packet 5 with
        | some k => k.fault && (match s.rowState k with
          | .ok _ => src == 0x1000
          | .fault _ => src != 0x1000
          | _ => false)
        | none => false, goes (.copyFaultResume 5) s])) = true := by decide +kernel

/-- A girth packet of one element at `y`, `x`, `m` and `v`, with DONE. -/
def girthOf (cmd : Nat) : List (Nat × Nat) := [(0, cmd + 2 ^ 32), (8, 0x1000)] ++
  (if cmd = 0x10 ∨ cmd = 0x12 ∨ cmd = 0x13 then [(0x10, 0x1040)] else []) ++ (if cmd = 0x12 ∨ cmd = 0x13 then [(0x18, 0x1080)] else [])
def girthInstr (src : GirthSrc) : List (Nat × Instr) := [(0x10, .axpy 0 src), (0x11, .scale 0 src), (0x12, .momentum 0 src), (0x13, .adamw 0 src),
  (0x14, .girthZero 0 src), (0x15, .xclose 0 src)]

/-- GirthCommands: each from a queue and from a task, accepted, refused, waiting and done. -/
theorem wit_GirthCommands : all ((girthInstr (.queue 0x3000)).flatMap (fun (cmd, i) => let s := offering 2 (girthOf cmd)
      let q := theQueue s
      let bad := offering 2 (girthOf cmd ++ [(0, cmd)])
      [memOk s, q.sort == 2, s.queue 0 0x3000 == some q, q.run.isNone, match s.offered { q with stalled := false } with
          | some k => pktKind k == cmd && decide (s.girthCheck 0 q.stack (s.stackOk 0 q) k = .ok ()) && (s.elemPas 0 k 0).all fun a => !s.secUE a && !s.secPois a
          | none => false,
        match bad.offered (theQueue bad) with
          | some k => pktKind k == cmd && (match bad.girthCheck 0 0 (bad.stackOk 0 (theQueue bad)) k with
            | .code c => decide (c < 256)
            | _ => false)
          | none => false,
        !(s.stack q.stack).hBusy, goes i s, goes i bad, (theQueue (next i s)).run.isSome, goes i (next i s), (theQueue (next i { next i s with time := 2000 })).run.isNone]) ++
    (girthInstr (.task 0)).flatMap (fun (cmd, i) => let k : Vector Word 8 := tab 8 fun n => BitVec.ofNat 64 (((girthOf cmd).find? (fun w => w.1 == 8 * n)).getD (0, 0)).2
      let s := t0.setPart 0 { t0.part 0 with tasks := [{ stack := 0, counter := 0, task := 64, pkt := k }] }
      [pktKind k == cmd, decide (s.girthCheck 0 0 true k = .ok ()), !(s.stack 0).hBusy, goes i s, goes i (next i s), goes i { next i s with time := 2000 }])) =
    true := by decide +kernel

/-- A launch packet with FLAGS, of one row of 64 lanes on one core, by R264's offsets. -/
def launchOf (flags bridle : Nat) : List (Nat × Nat) :=
  [(0, 0x20 + flags * 2 ^ 8 + 2 ^ 24 + 64 * 2 ^ 32 + 0xE * 2 ^ 40 + 2 ^ 48), (8, 1 + 2 ^ 32 + 2 ^ 40), (0x10, 0x40), (0x28, bridle), (0x30, 9)]
def aLaunch : Launch := asLaunch 0 (tab 8 fun n => BitVec.ofNat 64 (((launchOf 0 0).find? (fun w => w.1 == 8 * n)).getD (0, 0)).2) none 0 0
def launched (ls : List Launch) (s : State := t0) : State := { s with launches := ls.map fun l => (launchKey l.part l.lid, some l) }

/-- LaunchesRun, acceptance: a packet taken from a queue, one that the checks refuse, none; with acceptance stopped by a page; the page given. -/
theorem wit_LaunchesRun_acceptance : all ([0, 0x4000].flatMap fun b => let s := offering 0 (launchOf 0 b) t0
    let q := theQueue s
    let bad := offering 0 (launchOf 32 b) t0
    let stopped := s.setQueue 0 { q with stalled := true }
    [memOk s, !(s.part 0).acceptStalled, match s.nextLaunch 0 with
      | some (j, q', .packet k) => j == 0 && q' == q && (match s.accept 0 k (some q.hdr) 0 with
        | .ok l => l.lid == 9
        | _ => false)
      | _ => false,
      decide (s.ridx q + 1 < 2 ^ 64), goes (.launchAccept 0) s, (t0.nextLaunch 0).isNone, goes (.launchAccept 0) t0, match bad.nextLaunch 0 with
      | some (_, q', .packet k) => (match bad.accept 0 k (some q'.hdr) 0 with
        | .code c => c == 2
        | _ => false)
      | _ => false,
      goes (.launchAccept 0) bad, (stopped.part 0).acceptStalled, goes (.launchAccept 0) stopped, (s.part 0).counters == [],
      (stopped.part 0).queues.find? (fun q => q.sort == 0 && q.stalled) == some { q with stalled := true }, goes (.bridleFaultResume 0) stopped]) = true := by decide +kernel

/-- LaunchesRun, pages: a bridle table on a page that is not present, and at no address of the partition's, when its launch is accepted and when it is placed. -/
theorem wit_LaunchesRun_pages : all (([(0xF00000000000, false), (0x10000000000000, true)] : List (Nat × Bool)).flatMap fun (b, freezes) => let s := offering 0 (launchOf 0 b) t0
    let l := { aLaunch with bridle := BitVec.ofNat 64 b }
    let u := launched [l]
    let met := fun (v : Verdict Unit) => match v with
      | .fault a => !freezes && a == BitVec.ofNat 64 b
      | .vio c _ _ => freezes && c == 0x44
      | _ => false
    [match s.nextLaunch 0 with
      | some (_, q, .packet k) => met ((s.accept 0 k (some q.hdr) 0).map fun _ => ()) && s.queue 0 q.hdr == some q
      | _ => false, goes (.launchAccept 0) s, u.firstWaiting 0 == some l, match u.nextPlaces l with
        | some (rig, xs) => met (u.bridleGate l (l.placeWrites rig xs)) && !u.placesFenced xs l.slen && { u with fenced := 1 }.placesFenced xs l.slen
        | none => false, goes (.launchPlace 0) u, goes (.launchPlace 0) { u with fenced := 1 }]) = true := by decide +kernel

def binned (x : SpawnBin) : State := (launched [{ aLaunch with lid := 7, nstr := 0, placed := true, roles := [0] }]).setBin 0 3 x
def exited (ls : List Launch) : State := launched ls (on fun t => { t with status := .exited })
/-- LaunchesRun, placement: with a bridle table and without; a pinned string whose seat is taken; a spawn bin's timer, early and due, and its pending row; an exited
seat of a launch that goes on, and of one that is done. -/
theorem wit_LaunchesRun_rows : all ([0, 0x4000].flatMap (fun b => let l := { aLaunch with bridle := BitVec.ofNat 64 b }
      let s := launched [l]
      [s.firstWaiting 0 == some l, !l.bfrozen, match s.nextPlaces l with
        | some (rig, xs) => (l.placeWrites rig xs == [] || decide (s.bridleGate l (l.placeWrites rig xs) = .ok ())) && decide ((xs.flatMap fun y => (List.range l.slen).map fun k =>
            (stringRows y.core y.head l.slen).getD k 0 * 4 + y.seat).Nodup) && xs.length == 1 && !s.placesFenced xs l.slen
        | none => false,
        goes (.launchPlace 0) s]) ++
    (let l := { aLaunch with pin := true, placed := true, roles := [0], pinned := [0x80000000] }
     [(launched [l]).firstWaiting 0 == some l, ((launched [l]).nextPlaces l).isNone, goes (.launchPlace 0) (launched [l])]) ++
    [({ launch := 7, entry := 0x40, args := [5], fire := 1000 } : SpawnBin), { launch := 7, args := [5], fire := 1001 }, {}].map (fun y => (binned y).bin 0 3 == y && goes (.spawnBinTimer 0 3) (binned y)) ++
    (let s := binned { pending := some (7, 0x40, List.replicate 64 1) }
     [(Sparse.get none s.launches 7).isSome, (s.fitPending 0 1).isSome, !(s.part 0).heldWhole 7, !s.fenced.getLsbD 0, goes (.pendingRowPlace 0 3) s]) ++
    (let l := { aLaunch with lid := 7, nextString := 1, queue := some 0x3000 }
     let q := withQueue 0 0 1 1
     let s := { exited [l] with parts := q.parts, hbm := q.hbm }
     [(exited []).drained 0, Sparse.wf Seat.blank (exited []).seats, Sparse.wf none s.launches, goes (.seatRelease 0) (exited []), goes (.seatRelease 0) t0, memOk s,
       !l.waiting, !l.done.getLsbD 31, (s.freeSeat 0).rowsGone 7, s.queue 0 0x3000 == some (theQueue s), goes (.seatRelease 0) s])) = true := by decide +kernel

/-- A supervisor's arguments. -/
def told (a b c : Word) (s : State := t0) : State := s.setPart 0 { s.part 0 with suparg := vset (vset (vset (vrep 3 0) 0 a) 1 b) 2 c }

def mute (s : State) : State := { s with module := { s.module with session := false } }
/-- FrozenMasters: each kind of master, frozen and not; a queue aborted, halted, and not; a launch killed, one at its last write, and none; no session. -/
theorem wit_FrozenMasters : all ([!(mute t0).commanded, t0.commanded, goes (.kill 0) (mute t0), goes (.kill 0) (told 7 0 0 (launched [{ aLaunch with lid := 7, closing := 1 }])), goes (.resume 0) (told 0 0 0 (on fun t => { t with status := .frozen })), goes (.resume 0) (told 0 0 0), midSid 0 == 0, memOk t0] ++
    [1, 2, 5].map (fun k => goes (.resume 0) (told (k <<< 56 ||| 0x3000) 0 0 (withQueue 0 0 1 0))) ++ [(withQueue 0 0 1 0).queue 0 0x3000 == some (theQueue (withQueue 0 0 1 0)),
      goes (.resume 0) (told (3 <<< 56) 0 0), goes (.resume 0) (told (4 <<< 56 ||| 4095) 0 0), goes (.resume 0) (told (4 <<< 56 ||| 4095) 0 0 (counting 4095 { frozen := true } t0))] ++
    (let s := told 0x3000 0 0 (withQueue 0 0 1 0)
     let q := theQueue s
     let f := s.setQueue 0 { q with frozen := true }
     let h := poke s [(0x300C, 4, 1)]
     [!q.frozen, f.queue 0 0x3000 == some { q with frozen := true }, f.launches == [], f.packets == [], decide (s.doneIdx q + 1 < 2 ^ 64), goes (.abort 0) s, goes (.abort 0) f,
       h.halted q, decide (h.ridx q < h.widx q), goes (.skip 0) h, !s.halted q, goes (.skip 0) s]) ++
    (let s := told 7 0 0 (launched [{ aLaunch with lid := 7 }])
     [(Sparse.get none (told 7 0 0).launches 7).isNone, goes (.kill 0) (told 7 0 0), Sparse.get none s.launches 7 == some { aLaunch with lid := 7 }, Sparse.wf Seat.blank s.seats,
       Sparse.wf none s.launches, goes (.kill 0) s])) = true := by decide +kernel

def units (ls : List Launch) (area : Word) (s : State := t0) (lid : Word := 7) (str : Word := 0xFFFFFFFF) : State := told lid str area (launched ls s)
def seven : Launch := { aLaunch with lid := 7, acc := 4, roles := [0], nextString := 1 }
def preempting (x : Preempt) (s : State := units [seven] 0x10000) : State := s.setPart 0 { s.part 0 with pre := some x }
def pre0 : Preempt := { lid := 7, str := 0xFFFFFFFF, area := 0x10000, t0 := 1000 }
def saved0 : SavedUnit := { lid := 7, str := 0xFFFFFFFF, area := 0x10000, tstop := 0, pkts := [], rows := [{ bind := { lid := 7 }, seat := seat0, sid := 0, ablk := 0, nblk := 4, exited := 0, mflags := [], startClk := none, gone := false, unit := .empty }] }
def record : Memory := [(0x1000A, 1), (0x10019, 4), (0x10034, 1), (0x20000, 7), (0x20008, 0xFF), (0x20009, 0xFF), (0x2000A, 0xFF), (0x2000B, 0xFF), (0x2000C, 1)]
def holding (x : SavedUnit) (area : Word := 0x10000) (seats : List (Nat × Seat) := []) : State := let s := { units [seven] area with seats := seats, hbm := record ++ tables }
  s.setPart 0 { s.part 0 with saved := [x] }
def needed (w : Status) : State := preempting pre0 (units [seven] 0x10000 { t0 with seats := [0, 4].map fun n => (n, { seat0 with
  status := if n = 0 then w else .ready, bundle := some (tab 4 fun _ => 0x90000000), bind := { lid := 7, srow := n / 4, slen := 2, ports := true } }) })
/-- Preemption: no session; PREEMPT and RESTORE while one waits; PREEMPT refused for each reason, and accepted; a seat that stops, one that a neighbour needs, and one that cannot stop yet; the deadline; the save; RESTORE refused, waiting,
and made. -/
theorem wit_Preemption : all ([!(mute t0).commanded, (preempting pre0).commanded, after (.restore 0) (t0.setPart 0 { t0.part 0 with restoring := some (7, 0, 0) }) fun u => (u.part 0).supReason == 6,
      goes (.preempt 0) (mute t0)] ++ [(preempting pre0, 6), (told 8 0 0, 1), (units [{ seven with lid := 8 }] 0 t0 8, 1), (units [{ seven with cls := 2 }] 0 t0 7 0, 2), (units [seven] 1, 4),
      (units [seven] 0x10000, 0)].map (fun ((s, r) : State × BitVec 8) => after (.preempt 0) s fun u => (u.part 0).supReason == r && (u.part 0).supRefused == (r != 0)) ++
    [(units [seven] 0x10000).unitSeats 0 7 0xFFFFFFFF != [], decide ((units [seven] 0x10000).checkPages 0 0x10000 65600 .write = .ok ()), (preempting pre0).now.inUnit 0 7 0xFFFFFFFF,
      (preempting pre0).now.atSwitch, !(preempting pre0).wanted ((preempting pre0).unitSeats 0 7 0xFFFFFFFF) (preempting pre0).now, goes (.preemptSeatStop 0) (preempting pre0)] ++
    (let s := preempting pre0 (units [seven] 0x10000 (on fun t => { t with status := .parked (.yield 0) }))
     [s.now.atSwitch, !s.wanted (s.unitSeats 0 7 0xFFFFFFFF) s.now, goes (.preemptSeatStop 0) s]) ++
    [Status.stopped none, .stopped (some (.yield 0))].map (fun w => (needed w).wanted ((needed w).unitSeats 0 7 0xFFFFFFFF) (needed w).now && goes (.preemptSeatStop 0) (needed w)) ++
    [(preempting pre0 (units [seven] 0x10000 (on fun t => { t with slot := 2 }))).now.atSwitch == false, goes (.preemptSeatStop 0) (preempting pre0 (units [seven] 0x10000 (on fun t => { t with slot := 2 }))),
      goes (.preemptDeadline 0) (preempting pre0), goes (.preemptDeadline 0) { preempting pre0 with time := 201000 }, goes (.preemptDrainEnd 0) (preempting pre0), Sparse.wf Seat.blank t0.seats] ++
    (let s := preempting { pre0 with t1 := some 1000 }
     [memOk s, s.boundPackets 0 7 0xFFFFFFFF == [], s.settled (s.unitSeats 0 7 0xFFFFFFFF), goes (.preemptDrainEnd 0) s, goes (.preemptDeadline 0) { s with time := 201000 }]) ++
    [goes (.restore 0) (preempting pre0), goes (.restore 0) (units [seven] 0x10000), goes (.restore 0) (holding saved0 0x20000), (holding saved0).recordOk 0 saved0,
      ((holding saved0).fitUnit seven saved0 saved0.groups (holding saved0).taken).isSome, goes (.restore 0) (holding saved0), !(holding { saved0 with tstop := 1 }).recordOk 0 { saved0 with tstop := 1 },
      goes (.restore 0) (holding { saved0 with tstop := 1 })]) = true := by decide +kernel

/-- Partition 0 with a table update's registers. -/
def updating (va pte : Word) (ctl : Half := 0) : State := t0.setPart 0 { t0.part 0 with tuva := va, tupte := pte, tuctl := ctl }
def onStack (f : Stack → Stack) : State := t0.setStack 0 (f (t0.stack 0))
/-- TablesAndStacks: each update good, bad and while busy, of one entry and of 512; a stack free, busy, with a command or an accumulator open; no session; a contribution that is owed; a retirement made, refused and none. -/
theorem wit_TablesAndStacks : all ((([(1, .tuSet 0 0 2, 0x40000000, 0x1F), (2, .tuClear 0 511 2, 0, 0), (3, .tuSetrange 0 1 2, 0x40000000, 0x1F)] :
      List (Nat × Instr × Word × Word)).flatMap fun (op, i, va, pte) => let cl : BitVec 10 × BitVec 2 := if op = 1 then (0, 2) else if op = 2 then (511, 2) else (1, 2)
      [(((updating va pte).tuCheck 0 op cl.1.toNat cl.2.toNat).1 == 0), goes i (updating va pte), ((updating va pte 0x02000000).part 0).tuctl.getLsbD 25, goes i (updating va pte 0x02000000),
        op == 2 || (((updating va (pte ||| 0x10000000000000)).tuCheck 0 op cl.1.toNat cl.2.toNat).1 == 1), goes i (updating va (pte ||| 0x10000000000000))]) ++
    [memOk t0, goes (.tuComplete 0) t0, goes (.apply 0) (onStack fun u => { u with hBusy := true }), goes (.apply 0) (onStack fun u => { u with retBusy := true }), goes (.apply 0) (waiting 1 0),
      !(t0.stack 0).hBusy, !(t0.stack 0).retBusy, !t0.girthBusy 0, t0.accums == [], goes (.apply 0) t0, goes (.applyDone 0) t0, goes (.applyDone 0) (onStack fun u => { u with hBusy := true }),
      (t0.stack 0).par, goes (.retireGo 0) t0, goes (.retireGo 0) (onStack fun u => { u with par := false }), goes (.retireSwitch 0) t0,
      goes (.retireSwitch 0) (onStack fun u => { u with retBusy := true, pch := 0xFF }), goes .peerRetryResend { t0 with peerReplies := [.data 1, .retry] },
      goes (.tuSet 0 0 2) (mute t0), goes (.apply 0) (mute t0), goes (.retireGo 0) (mute t0), goes (.retireGo 0) (onStack fun u => { u with parW := false }), t0.ownsStack 0 0,
      goes (.registerWrite 0 (.retctl 0) 0x700) t0, contributing.contribs.any (fun c => c.part == 0 && c.sid == some 0), contributing.now.status == .ready, goes (.tuComplete 0) contributing]) = true := by decide +kernel

/-- Die 0 with a change. -/
def onDie (f : Die → Die) : State := t0.setDie 0 (f (t0.die 0))
def hot (n : Nat) (f : Die → Die := fun u => u) : State := onDie fun u => f { u with junction := vset u.junction 7 (BitVec.ofNat 16 (n * 64)) }
/-- DieRecovery: a reset that begins, and one in progress; a trip at 120 °C and none below; a reset forced at 100 µs, by the supervisor and by the trip; a rejoin below 90 °C and none at it; an error in
each kind of place, in a trial and not; trials. -/
theorem wit_DieRecovery : all ([(t0.die 0).reset.isNone, (told 0 0 0).die 0 == t0.die 0, ((told 0 0 0).part 0).dies.getLsbD 0, goes (.dieFault 0) t0, goes (.diereset 0) (told 0 0 0), goes (.diereset 0) (told 1 0 0),
      !((told 1 0 0).part 0).dies.getLsbD 1, goes (.dieFault 0) (onDie fun u => { u with reset := some (0, false) }), decide (((hot 120).die 0).hottest.toInt ≥ 120 * 64), goes (.thermalTrip 0) (hot 120),
      decide (((hot 119).die 0).hottest.toInt < 120 * 64), goes (.thermalTrip 0) (hot 119), Sparse.wf Seat.blank t0.seats] ++
    [false, true].flatMap (fun th => let s := { onDie fun u => { u with reset := some (1000, th), tripped := th } with time := 101000, fenced := 1 }
      [(s.die 0).reset == some (1000, th), decide (1000 + 100000 ≤ s.time.toNat), goes (.dieResetForce 0) s]) ++
    [decide (((hot 89).die 0).hottest.toInt < 90 * 64), goes (.dieRejoin 0) (hot 89 fun u => { u with reset := some (0, true), resetDone := true }), decide (((hot 90).die 0).hottest.toInt = 90 * 64),
      goes (.dieRejoin 0) (hot 90 fun u => { u with reset := some (0, true), resetDone := true })] ++
    ([.spad 7 98303, .x 0 30 63, .s 0 0, .m 0 7, .cb 0 3, .acc 0 127 63, .latch 0 3 0, .south 0 7 0, .north 511 15 63, .cache 0] : List SramPlace).flatMap (fun y =>
      [placeDie y == 0, goes (.sramUe y) t0, goes (.sramUe y) (onDie fun u => { u with trial := true })]) ++
    [!(t0.die 0).trial, (t0.die 0).safeVid != 0, goes (.uvTrial 0) t0, goes (.uvTrial 0) (onDie fun u => { u with black := [(0x5D, 1001)] }), goes (.uvTrial 0) (onDie fun u => { u with black := [(0x5D, 1000)] }),
      goes (.trialPassed 0) t0, goes (.uvAbort 0) t0, goes (.trialPassed 0) (onDie fun u => { u with trial := true, trialVid := 0x5D }), goes (.uvAbort 0) (onDie fun u => { u with trial := true, trialVid := 0x5D }),
      goes (.uvBlacklistExpire 0 0x5D) t0, !(mute t0).commanded, goes (.diereset 0) (mute (told 0 0 0)), t0.commanded, (t0.part 0).en] ++
    (let u := next (.sramUe (.south 0 3 7)) (storing fun s => s.setRow 0 { s.row 0 with south := List.replicate 4 (.filled (entry 1)) })
     [(u.row 0).south.map (fun (y : PortSlot) => match y with
        | .filled e => e.pois
        | _ => 1) == [0, 0, 0, 128], (t0.row 0).south.isEmpty, ((next (.sramUe (.north 0 1 2)) (fed t0)).row 0).north[1]?.map (fun e => e.pois) == some 4])) = true := by decide +kernel

/-- Core 0 with a change. -/
def onCore (f : CoreUnit → CoreUnit) : State := t0.setCore 0 (f (t0.core 0))
/-- PowerControl: an interval's end and another time, with power and without; new values due, early, and while stretched; a lower rail with the last of them; a shortfall at the threshold and below, with the monitor on and off; a coolant fault and its end. -/
theorem wit_PowerControl : all ([{ t0 with time := 100000 }, { (onDie fun u => { u with first := false, charges := 10 ^ 12, tmax := 106 * 64 }) with time := 200000 }].map (fun s =>
      s.time.toNat % 100000 == 0 && s.time != 0 && decide (s.module.phase = .ready) && goes .controlInterval s) ++
    [t0.time.toNat % 100000 != 0, goes .controlInterval t0, goes .controlInterval State.reset, goes (.newValuesApply 0) (onCore fun u => { u with next := some (1000, 3900, 336) }),
      goes (.newValuesApply 0) (onCore fun u => { u with next := some (1001, 3900, 336) }), goes (.newValuesApply 0) (onCore fun u => { u with next := some (1000, 3900, 336), stretchUntil := 7 }),
      ((next (.newValuesApply 0) ((onCore fun u => { u with next := some (1000, 3900, 336) }).setDie 0 { t0.die 0 with vidNext := some 70 })).die 0).vid == 70,
      (t0.core 0).droopEn, (t0.core 0).droopTh == 6, t0.clocked 0] ++ [29, 30].map (fun n => goes (.droopTrip 0) (onCore fun u => { u with shortfall := n })) ++
    [(next (.droopTrip 0) (onCore fun u => { u with shortfall := 30 })).core 0 != (next (.droopTrip 0) (onCore fun u => { u with shortfall := 29 })).core 0, goes (.droopTrip 0) (onCore fun u => { u with droopEn := false }), goes (.droopWindowEnd 0) t0] ++
    [none, some (10 ^ 10 - 10 ^ 9), some (10 ^ 10)].flatMap fun o => let s := { t0 with time := BitVec.ofNat 64 (10 ^ 10), module := { t0.module with hotSince := o, okSince := o.map fun _ => 0 } }
      [goes .coolantFault s, goes .coolantFaultClear s]) = true := by decide +kernel

/-- Partition 0 with links 0 and 15, on which one device may read and write. -/
def linked (up : Bool := true) : State := { t0.setPart 0 { t0.part 0 with span := 0x8001, igrant := vset (vrep 128 0) 127 0xC00000050007FFFF } with
  module := { t0.module with links := vset t0.module.links 15 { up := up } } }
/-- PartitionsAndPeers: without a session, and with; a partition formed, refused and left; one that is busy; the control node's accesses to memory, to a page not present and to a fenced die; a peer's on a link that is not
UP, on one that it does not own, without a grant and with; reserved bits; no session. The module's power limit is an implementation's (log 7): only a share of 0 is shown to be within it. -/
theorem wit_PartitionsAndPeers : all ([!({ t0 with module := { t0.module with session := false } } : State).commanded, t0.commanded, memOk t0, (t0.part 0).en, goes (.partitionEnable 0 1) t0,
      goes (.partitionEnable 1 0x101) t0, t0.enableBad 1 0x101, t0.enableBad 1 0, !({ t0 with parts := vset t0.parts 1 { tregion := vset (vrep 8 0) 1 (2 ^ 43 + 1) } } : State).enableBad 1 0x10002, !t0.partBusy 0,
      goes (.partitionDisable 0) t0, (launched [aLaunch]).partBusy 0, goes (.partitionDisable 0) (launched [aLaunch]), goes (.pwrshareWrite 0 0) t0] ++
    ([(0x1000, 0), (0x1FF8, 3)] : List (Word × Fin 4)).flatMap (fun (va, z) => [match t0.xlate 0 0 va .read, t0.xlate 0 0 va .write with
        | .mem pa _, .mem pb _ => !t0.held pa && pa == pb && !t0.secUE pa && !t0.secPois pa
        | _, _ => false, t0.walker 0 == 0, goes (.controlNodeAccess 0 va z none) t0, goes (.controlNodeAccess 0 va z (some 5)) t0, goes (.controlNodeAccess 0 va z none) { t0 with fenced := 1 }]) ++
    [decide (t0.xlate 0 0 0x80000000 .read = .absent), goes (.controlNodeAccess 0 0x80000000 3 none) t0, goes (.registerWrite 0 .leasecfg 128) t0, goes (.registerWrite 0 .leasecfg 129) t0, goes (.registerWrite 0 .supstat 6) t0,
      goes (.registerWrite 0 (.suparg 2) 6) t0, goes (.registerWrite 0 (.pwrctl 0) 6) t0, !(vget {} (linked false).module.links 15).up, goes (.peerAccessInbound 15 7 5 0 0x1000 (.load 3)) (linked false),
      (vget {} linked.module.links 15).up, !(linked.part 1).span.getLsbD 15, goes (.peerAccessInbound 15 7 5 1 0x1000 (.load 3)) linked, (linked.part 0).span.getLsbD 15,
      !(linked.part 0).admits 15 8 5 false, goes (.peerAccessInbound 15 8 5 0 0x1000 (.load 3)) linked, (linked.part 0).admits 15 7 5 true, goes (.peerAccessInbound 15 7 5 0 0x1000 (.load 3)) linked,
      goes (.peerAccessInbound 15 7 5 0 0x1000 (.store 3 9 true)) linked, goes (.peerAccessInbound 15 7 5 0 0x80000000 (.load 3)) linked,
      ([.atomic 9 9 0x3F800000, .atomic 0 2 5, .cas 2 0 5] : List PeerOp).all fun op => goes (.peerAccessInbound 15 7 5 0 0x1000 op) linked,
      goes (.registerWrite 0 .leasecfg 5) (mute t0), goes (.controlNodeAccess 0 0x1000 3 none) (mute t0), goes (.controlNodeAccess 0 0x1001 3 none) t0,
      goes (.registerWrite 0 .partcfg 0x30000000001) t0, goes (.registerWrite 0 .partcfg 2) t0, goes (.registerWrite 1 .partcfg 2) t0, goes (.pwrshareWrite 0 0) (mute t0)]) = true := by decide +kernel

def linkOf (l : Link) : State := { t0 with module := { t0.module with links := vset t0.module.links 15 l } }
def inPhase (ph : Phase) (m : Module := State.reset.module) : State := { State.reset with agenda := [], module := { m with phase := ph } }
/-- RootAndLinks: each phase and session; a reading of each kind, by the port and by a supervisor; links up and down, with 999 and 1000 resends in the millisecond. What the owner's and
the maker's keys are is an implementation's (log 7), so neither an image nor an owner's signature can be shown accepted. -/
theorem wit_RootAndLinks : all ([goes .powerGood t0, goes .identityQuery t0, goes .powerGood State.reset, goes .identityQuery State.reset, goes .powerOff t0, goes .lossOfLight t0, t0.module.session, goes .close t0,
      !State.reset.module.session, goes .close State.reset, goes (.quote 5) State.reset, goes (.quote 5) t0, goes .powerGood (inPhase .testing), goes (.linkTrained 15 7) t0, goes (.linkTrained 15 7) State.reset, !(t0.module.links.toList.any fun l => l.up),
      goes (.flitCrcError 15) t0, State.reset.module.phase == .starting, (inPhase .testing).module.phase == .testing, (inPhase .grounded).module.phase == .grounded, goes .identityQuery (inPhase .testing),
      goes .powerGood (inPhase .grounded)] ++
    [999, 1000].map (fun n => goes (.flitCrcError 15) (linkOf { up := true, inMs := n })) ++
    [t0, mute t0, inPhase .starting].flatMap fun s => [true, false].flatMap fun n => ([.dieRecord 0, .dieRecord 1, .moduleRecord, .selftest, .linkstat 15, .speed 0, .speed 63, .certificates] : List Readable).map fun what =>
      match step { s with agenda := [.env (if n then .supRead 0 what else .portRead 0 what)] } with
        | .next _ => true
        | _ => false) = true := by decide +kernel

/-- A machine that is about to issue seat 0's slot, from memory that holds a bundle of NOPs at 0, or in hand. -/
def issuing (f : Seat → Seat := fun t => t) : State := { on f with agenda := [.issue 0], hbm := (3, 0xB0) :: tables }
def dark : State := { State.reset with agenda := [], module := { State.reset.module with phase := .off } }
def nops : Vector Half 4 := tab 4 fun k => if k = 0 then 0xB0000000 else 0
def stepped (s : State) : Bool := match step s with
  | .next _ => true
  | _ => false
/-- StepRunsSlot, NothingStops and StepKeepsMemory: a seat not ready; a bundle in hand, with a word and with one that is none; one fetched; an event; a line in the instruction cache; a core's clock with enough gathered, with too little, and
stretched; nothing to do, with power and without. -/
theorem wit_StepRunsSlot : all ([stepped (issuing fun t => { t with status := .parked (.yield 0) }), stepped (issuing fun t => { t with bundle := some nops }),
      stepped (issuing fun t => { t with bundle := some (vset nops 1 0xFF000000) }), stepped issuing, issuing.bundleAt 0 == nops, (bundleBad nops).isNone, decide (issuing.xlate 0 0 0 .fetch = .mem 0 false),
      !issuing.now.brkb, decodeWord (vget 0 nops 1) == some .nop, Sparse.get none (issuing.core 0).icache 0 == none, stepped { t0 with agenda := [.event .controlInterval] }, stepped t0, stepped dark,
      stepped { (issuing.setCore 0 { issuing.core 0 with icache := [(0, some (tab 32 fun k => if k = 1 then 0x05000000 else 0))] }) with agenda := [.issue 0] }, t0.clocked 0] ++
    [(999, 0), (1000, 0), (1999, 9), (2000, 9)].map (fun ((n, st) : Nat × Nat) => stepped { (onCore fun u => { u with phase := n, stretchUntil := st }) with agenda := [.clock 0] }) ++ [ dark.module.phase == .off, memOk issuing, memOk (next .nop issuing)]) = true := by decide +kernel

/-- DecodeEncode and WordsAreUnique: a word of each of the first and the last opcodes, and of the widest fields. -/
theorem wit_DecodeEncode : all (([.nop, .mod 1 0x7F 1 15 7 3 7, .ximm 0xFFFFFF, .ctxld (sc 14), .li ⟨true, 31⟩ 0x3FFFF, .csrw 0x7F (x 31)] : List Instr).map fun i =>
    match encode i with
      | some w => decodeWord w == some i
      | none => false) = true := by decide +kernel

/-! ### Worked values of the spec -/

/-- x2 of lane 0, and FSTAT, after an instruction on two scalars under a type and MODE's other bits. -/
def valueOf (i : Dst → Src → Src → Instr) (ty mode : Nat) (a b : Word) : Option (Word × BitVec 6) :=
  match exec (i (dx 2) (sc 5) (sc 6)) (on fun t => ((({ t with mode := BitVec.ofNat 16 (ty + mode) }).putS 5 a).putS 6 b).putX 2 1 fun _ => 0) with
  | .next u => some (u.now.xr 2 0, u.now.fstat)
  | _ => none
/-- The first element, of a width. -/
def elementOf (w : Nat) (i : Dst → Src → Src → Instr) (ty mode : Nat) (a b : Word) : Option Nat := (valueOf i ty mode a b).map fun v => v.1.toNat % 2 ^ w

/-- 05, examples of R122 to R126: wrapping, and under INTSAT. -/
theorem test_integer_examples : ([elementOf 8 .add 0 0 100 50, elementOf 8 .sub 4 0 10 20, elementOf 16 .mul 1 0 300 300, elementOf 8 (fun d a _ => .neg d a) 0 0 0x80 0,
      elementOf 16 (fun d a _ => .neg d a) 5 0 5 0, elementOf 8 .mulh 0 0 0x80 0x80] == [0x96, 0xF6, 0x5F90, 0x80, 0xFFFB, 0x40].map some) = true ∧
    ([elementOf 8 .add 0 0x8000 100 50, elementOf 8 .sub 4 0x8000 10 20, elementOf 16 .mul 1 0x8000 300 300, elementOf 8 (fun d a _ => .neg d a) 0 0x8000 0x80 0,
      elementOf 16 (fun d a _ => .neg d a) 5 0x8000 5 0, elementOf 8 .mulh 0 0x8000 0x80 0x80] == [0x7F, 0, 0x7FFF, 0x7F, 0, 0x40].map some) = true := by
  constructor <;> decide +kernel

/-- 05, examples of R129: both elements of an I32 operand; DZ is FSTAT bit 1 (04 R102). -/
theorem test_division_examples : ([valueOf .div 2 0 0x1FFFFFFF9 0x100000002, valueOf .rem 2 0 0x1FFFFFFF9 0x100000002, valueOf .div 2 0 0x100000005 0x100000000,
      valueOf .rem 2 0 0x100000005 0x100000000, valueOf .div 2 0 0x180000000 0x1FFFFFFFF, valueOf .div 2 0x8000 0x180000000 0x1FFFFFFFF] ==
    [(0x1FFFFFFFD, 0), (0xFFFFFFFF, 0), (0x1FFFFFFFF, 2), (5, 2), (0x180000000, 0), (0x17FFFFFFF, 0)].map some) = true := by decide +kernel

/-- 05, examples of R130: of an F32 and a quiet NaN, and of −0 and +0; NV is FSTAT bit 0. -/
theorem test_compare_examples : (([2, 0, 6] : List (BitVec 4)).map (fun f => elementOf 32 (fun d a b => .cmp d a b f) 9 0 0x3F800000 0x7FC00000) == [0, 0, 0xFFFFFFFF].map some) = true ∧
    (([2, 0, 6] : List (BitVec 4)).map (fun f => elementOf 32 (fun d a b => .cmp d a b f) 9 0 0x80000000 0) == [0, 0xFFFFFFFF, 0].map some) = true ∧
    (valueOf (fun d a b => .cmp d a b 2) 9 0 0x3F800000 0x7FC00000).map (fun v => v.2.getLsbD 0) = some true := by refine ⟨?_, ?_, ?_⟩ <;> decide +kernel

/-- 05 R126's constants. -/
theorem test_constants : after (.lsi (dx 2) 0x1234) (next (.li (dx 2) 3) t0) (fun u => u.now.xr 2 63 == 0xC1234) = true ∧
    after (.lsi (dx 2) 0xDEF0) (next (.ximm 0x9E26AF) (next (.li (dx 2) 0x08D15) (next (.ximm 1) t0))) (fun u => u.now.xr 2 0 == 0x123456789ABCDEF0) = true := by
  constructor <;> decide +kernel

/-- 03, F32 into TAP8 by CVT, with SATINF clear and set. -/
theorem test_convert_examples : ([0xBFC00000, 0x3DCCCCCD, 0x45000000, 0x453B8000, 0x459C4000, 0x3A000000, 0x3727C5AC, 1, 0x80000000, 0x7F800000, 0x7F800001].map
      (fun a => elementOf 8 (fun d a b => .cvt d a b 9) 10 0 a 0) == [0xB8, 0x15, 0x7E, 0x7F, 0x7F, 0x02, 0x01, 0x01, 0, 0x80, 0x80].map some) = true ∧
    (([0x7F800000, 0xFF800000].map fun a => elementOf 8 (fun d a b => .cvt d a b 9) 10 0x80 a 0) == [0x7F, 0x81].map some) = true := by constructor <;> decide +kernel

/-- 05 R138's examples. -/
theorem test_class_examples : ([elementOf 16 (fun d a _ => .fclass d a) 11 0 0x7FFF 0, elementOf 32 (fun d a _ => .fclass d a) 9 0 1 0, elementOf 16 (fun d a _ => .fclass d a) 8 0 0x7F81 0] ==
    [0x0840, 0x20, 0x100].map some) = true := by decide +kernel

/-- 04, after R106: a step of MDOT on BF16 in two cases. -/
theorem test_matrix_step : mstep 8 (vrep 16 0) (vrep 16 0) 0 0x3F000000 0xCB803F803F804B80 0x3F803F803F803F80 = (0x40200000, 0) ∧
    (mstep 8 (vrep 16 0) (vrep 16 0) 0 0x3F800000 0x30803380 0x30803F80).1 = 0x3F800001 := by constructor <;> decide +kernel

/-- 04, after R111: the transform of x0 = 1 and of x0 = x1 = 1 with seed and index base 0. -/
theorem test_transform : ((List.range 2).map fun n => after (.had (dx 3) (x 2) (sc 0)) (on fun t => ((t.putS 0 0).putS 1 0).putX 2 (BitVec.allOnes 64) fun l => if l ≤ n then 0x3F800000 else 0)
    fun u => [0, 1].map (fun l => (u.now.xr 3 l).toNat % 2 ^ 32) == if n = 0 then [0xBE000000, 0xBE000000] else [0, 0xBE800000]) = [true, true] := by decide +kernel

def traced (es : List MaskEntry) (out : Word) : State := on fun t => { t with
  m := vset t.m 0 0xF, exited := out, stack := es ++ [{ kind := .join, mask := 0xF, tgt := 0xA0 }, { kind := .base, mask := 0xF }] }
/-- 12, the worked program: lane 0 ends under a PRED entry (step 7); the entry goes (step 8); JOIN runs lanes 2 and 3 (step 9), and pops DIV and JOIN (step 12). -/
theorem test_masks : after .exit (traced [{ kind := .pred, mask := 1 }, { kind := .div, mask := 3, alt := 0xC, tgt := 0x30 }] 0)
      (fun u => u.now.live == 0xE && u.now.path == 0 && u.now.stack.length == 4) = true ∧
    after .popp (traced [{ kind := .pred, mask := 1 }, { kind := .div, mask := 3, alt := 0xC, tgt := 0x30 }] 1) (fun u => u.now.path == 2 && u.now.stack.length == 3) = true ∧
    after .join (traced [{ kind := .div, mask := 3, alt := 0xC, tgt := 0x30 }] 1) (fun u => u.now.path == 0xC && u.now.pc == 0x30) = true ∧
    after .join (traced [{ kind := .div, mask := 0xC }] 1) (fun u => u.now.path == 0xE && u.now.stack.length == 1) = true := by refine ⟨?_, ?_, ?_, ?_⟩ <;> decide +kernel

/-- 14 R340, R343, R350: BRK at user level, and RETT back to it. -/
theorem test_trap_and_return : after (.brk 5) (on fun t => { t with pc := 0x40, slot := 2, tvec := 0x800 }) (fun u => u.now.hl && u.now.pc == 0x800 && u.now.tpc == 0x42 && u.now.tcause == 9) = true ∧
    after .rett (next (.brk 5) (on fun t => { t with pc := 0x40, slot := 2, tvec := 0x800 })) (fun u => !u.now.hl && u.now.pc == 0x40 && u.now.slot == 2 && u.now.mode == 9) = true := by
  constructor <;> decide +kernel

/-- 07 R190, 09 R237: a store of eight bytes and a load of its upper four, sign-extended. -/
theorem test_store_and_load : after (.ldg (dx 5) (x 3) (sc 4) 6) (next (.stg 1 (x 3) (x 31) 3) (on fun t => t.putX 1 (BitVec.allOnes 64) fun _ => 0x8000000155667788))
    (fun u => u.now.xr 5 63 == 0xFFFFFFFF80000001) = true := by decide +kernel

/-- Bytes from their hexadecimal number, the first the highest. -/
def hex (n v : Nat) : List Byte := (bytesOf v n).reverse
/-- FIPS 180-4's digest of "abc", and RFC 8032's first test of Ed25519: its signature is made and verifies, and one changed bit does not. -/
theorem test_sha384 : (sha2 sha384Iv [0x61, 0x62, 0x63]).take 48 =
    hex 48 0xcb00753f45a35e8bb5a03d699ac65007272c32ab0eded1631a8b605a43ff5bed8086072ba1e7cc2358baeca134c825a7 := by decide +kernel
def edKey : List Byte := hex 32 0xd75a980182b10ab7d54bfed3c964073a0ee172f3daa62325af021a68f707511a
def edSig : List Byte := hex 64 0xe5564300c360ac729086e2cc806e828a84877f1eb8e5d974d873e065224901555fb8821590a33bacc61e39701cf9b46bd25bf5f0595bbe24655141438e7a100b
theorem test_ed25519 : edVerify edKey [] edSig = true := by decide +kernel
theorem test_ed25519_changed : edVerify edKey [1] edSig = false := by decide +kernel
theorem test_ed25519_signs : edSign (hex 32 0x9d61b19deffd5a60ba844af492ec2cc44449c5697b326919703bac031cae7f60) [] = edSig := by decide +kernel

/-- A level 1 table at offset 0x20000 and a level 0 table at 0x30000, below entry 2 of level 2: its pages 0 to 9, an entry
that is no leaf among them. -/
def paged (ws : List (Nat × Nat × Nat) := []) : State :=
  let t := 2 ^ 42
  poke t0 ([(t + 0x10010, 8, 0x20001), (t + 0x20000, 8, 0x30001)] ++
    ([0x1003, 1, 24 * 2 ^ 41 + 3, 5 * 2 ^ 41 + 3, t + 3, 0x100B, 0x1007, 0x5013, 0, 90 * 10 ^ 9 / 4096 * 4096 + 4096 + 3] : List Nat).zipIdx.map
      (fun e => (t + 0x30000 + 8 * e.2, 8, e.1)) ++ ws)

/-- Translations: each form and grant of R188 and R337; entries not present at levels 3, 2 and 0; a leaf of level 2 and those of level 0, each check
of R189 in turn; the region's last level that is held, has an error, is poisoned. -/
theorem wit_Translations :
    let s := (paged).setPart 0 { (paged).part 0 with ogrant := vset (vset (vrep 128 0) 1 (2 ^ 63)) 127 (3 * 2 ^ 62) }
    let at' := fun n => BitVec.ofNat 64 (0x80000000 + 0x1000 * n + 8)
    (([(2 ^ 52, .read), (2 ^ 62, .fetch), (2 ^ 63 + 2 ^ 52, .fetch), (2 ^ 63, .fetch), (2 ^ 63, .read), (2 ^ 63 + 2 ^ 56, .write), (2 ^ 63 + 2 ^ 56, .read),
        (2 ^ 63 + 127 * 2 ^ 56, .write), (2 ^ 39, .read), (3 * 2 ^ 30, .read), (at' 1, .read), (at' 8, .write), (0x3FFFFFFF, .fetch), (at' 2, .read),
        (at' 9, .read), (at' 3, .read), (at' 4, .write), (at' 5, .write), (at' 5, .fetch), (at' 6, .fetch), (at' 6, .write), (at' 7, .read)] :
          List (Word × AccKind)).map fun (va, k) => s.xlate 0 0 va k) =
      [.vio 0x44, .vio 0x44, .vio 0x44, .vio 0x41, .vio 0x44, .vio 0x44, .peer, .peer, .absent, .absent, .absent, .absent, .mem 0x3FFFFFFF false, .vio 0x46,
        .vio 0x46, .vio 0x44, .vio 0x46, .vio 0x40, .mem 0x1008 false, .vio 0x41, .mem 0x1008 false, .mem 0x5008 true] ∧
    (({ s with parts := vset s.parts 0 { s.part 0 with tregion := vrep 8 0 } } : State).xlate 0 0 0 .read = .absent) ∧
    (s.setStack 2 { s.stack 2 with hBusy := true }).xlate 0 0 0 .read = .wait ∧
    ({ s with hue := [(s.rawOf (2 ^ 42 + 0x30000), true)] } : State).xlate 0 0 (at' 0) .read = .lost (2 ^ 42 + 0x30000) ∧
    ({ s with hpois := [(paSector (2 ^ 42 + 0x10010), true)] } : State).xlate 0 0 (at' 0) .read = .poison := by decide +kernel

/-- A row whose lanes hold an address in x3. -/
def addressed (a : Word) : State := { paged with seats := [(0, seat0.putX 3 (BitVec.allOnes 64) fun _ => a)] }
/-- How a check stops: 0 not at all, else the code of its trap or violation, its lanes and address; 1 where it waits. -/
def stopOf {α : Type} (e : Except Stop α) : Nat × Word × Word :=
  let rec out : Stop → Nat × Word × Word
    | .trap t => (t.code, t.lanes, t.addr)
    | .freeze v => (v.code, v.lanes, v.addr)
    | .stall => (1, 0, 0)
    | .park _ _ => (2, 0, 0)
    | .after _ e => out e
  match e with
  | .ok _ => (0, 0, 0)
  | .error e => out e

/-- GlobalStops: an error and a hold on a walk; a violation in lane 2 beside a page not present in lane 0 and another in lane 3; a peer with no link; misaligned lanes
before a fenced die, that before a page not present, that before a held home; an own contribution; an error; poison; none. A peer's answers. Loads and stores that stop. -/
theorem wit_GlobalStops :
    let s := paged
    let at' := fun n => BitVec.ofNat 64 (0x80000000 + 0x1000 * n + 8)
    let mem : List (Nat × Word) := [(0, 0x1000), (3, 0x1008)]
    let go := fun (s : State) (as mis : List (Nat × Word)) (w r : Bool) => stopOf (s.gcheck 0 0 (some 0) as mis 8 w r (loadOp 8))
    let busy := s.setStack 0 { s.stack 0 with hBusy := true }
    let peer : List (Nat × Word) := [(5, 0x8000000000000000)]
    let told := fun (rs : List PeerReply) => { peered with peerReplies := rs }
    [go { s with hue := [(s.rawOf (2 ^ 42 + 0x30000), true)] } [(0, 0x1000), (1, at' 0)] [] false true, go (s.setStack 2 { s.stack 2 with hBusy := true }) mem [] false true,
      go s [(0, at' 8), (2, at' 5), (3, at' 3)] [(0, at' 8)] true false, go s [(0, at' 8)] [(7, 3)] true false,
      go { s with fenced := 1 } [(0, at' 8), (1, 0x1000)] [] true false, go busy [(0, at' 8), (1, 0x1000)] [] true false, go busy mem [] false true,
      go { s with contribs := [{ addr := 0x100C, v := 0, sid := some 0, who := .row 0 0, part := 0, since := 0, nc := false }] } mem [] true false,
      go { s with hue := [(s.rawOf 0x1000, true)] } mem [] false true, go { s with hpois := [(0x1000 / 32, true)] } mem [] false true, go s mem [] true false] =
      [(1, 0, 0), (1, 0, 0), (0x40, 0xD, at' 5), (0x12, 0x80, 3), (0x1A, 2, 0x1000), (0x10, 1, at' 8), (1, 0, 0), (1, 0, 0), (1, 0, 0), (0x18, 9, 0x1000), (0, 0, 0)] ∧
    [go (told []) peer [] false true, go (told [.retry]) peer [] false true, go (told [.violation 0x46]) peer [] false true, go (told [.refused]) peer [] false true,
      go (told [.pageFault]) peer [] false true, go (told [.fenced 3]) peer [] false true, go (told [.poison]) peer [] false true, go (told [.data 7]) peer [] false true,
      go { told [.data 7] with module := t0.module } peer [] false true] =
      [(1, 0, 0), (1, 0, 0), (0x46, 32, 0x8000000000000000), (0x44, 32, 0x8000000000000000), (0x10, 32, 0x8000000000000000), (0x1A, 32, 0x8000000000000000),
        (0x18, 32, 0x8000000000000000), (0, 0, 0), (1, 0, 0)] ∧
    all ([lane (addressed 0x80008008) (memOp (dx 2) (x 3) (x 31)), takes t0 true 3] ++ [(.ldg (dx 2) (x 3) (x 31) 3), .stg 2 (x 3) (x 31) 3].map fun i =>
      after i (addressed 0x80008008) fun u => u.now.hl && u.now.tcause == 0x10) = true := by decide +kernel

/-- A row about to run an instruction at slot 1, older by some clocks. -/
def about (i : Instr) (age : Nat := 0) : Seat := { seat0 with stamp := 100 - age, bundle := some (tab 4 fun _ => (encode i).getD 0) }
def held (s : State) : Nat → State := fun n => { s with cores := vset s.cores 0 { s.core 0 with budget := n, clkc := 100 } }
def acts (s : State) : List Act := match step { s with agenda := [.select 0] } with
  | .next u => u.agenda
  | _ => []
/-- Selection: a slot that issues in class V, one in class S, one that stalls for its row's write, and one that meets an error on its way; of two rows of a
partition with one class the older, both where their classes differ; a budget that is too small; a seat skipped sixteen times that is forced,
and two of one physical row. -/
theorem wit_Selection :
    let add := Instr.add (dx 2) (x 3) (x 4)
    let s := fun xs : List (Nat × Seat) => held { t0 with seats := xs } 384
    let load := Instr.ldg (dx 5) (x 3) (sc 4) 3
    let lost := fun u : State => { u with hue := [(u.rawOf (2 ^ 42 + 0x10000), true)] }
    all [okThat ((encode add).elim (trapC 0) fun w => Except.ok (decodeWord w)) (· == some add), (s [(0, about add)]).look 0 4 == .issue .v 3 false,
      (s [(0, about (.bra 6))]).look 0 4 == .issue .s 0 false, after (.frel 5) (s [(0, { about (.frel 5) with gwct := some 2000 })]) (fun u => u.stalled && u.now == { about (.frel 5) with gwct := some 2000 }),
      (lost (s [(0, about load)])).look 0 4 == .free] = true ∧
    [acts (s [(0, about add), (32, about add 1)]), acts (s [(0, about add), (32, about (.bra 6) 1)]), acts (s [(0, about add), (4, about add)]),
      acts (held (s [(0, about add)]) 2), acts (held (s [(0, { about add with skip := 16 })]) 2), acts (s [(0, about add 0), (1, about (.bra 6))])] =
      [[.issue 32], [.issue 0, .issue 32], [.issue 0, .issue 4], [], [.event (.forcedIssue 0)], [.issue 0]] := by decide +kernel

/-! ### Further edges of the statements -/

/-- A row whose tail has eight bytes to store at a key of its core. -/
def sunk (k : Nat) : State := { sinking with rows := [(0, { RowUnit.empty with south := [.filled { v := vrep 64 0, act := 1, ready := 0, sink := some [(0, k)] }] })] }
/-- ScratchpadAccesses and BatchesAndAccumulators: ABSENT of sixteen lines behind a store to the first and to the last of them, and beside one; LDCB behind a store to
the first and the last bytes that it reads, and beside one; a store of a row whose core holds a sector, with the sector. -/
theorem wit_ScratchpadAccesses_queued : all ([(0, true), (15 * 128 + 120, true), (16 * 128, false)].map (fun (k, w) =>
      after (.absent (sc 5) (x 31) 15) (scal 5 0x80000000 (sunk k)) fun u => u.stalled == w && u.isAbsent 15 != w) ++
    [(0x118, false), (0x120, true), (0x138, true), (0x140, false)].map fun (k, w) => after (.ldcb 3 (sc 5)) (scal 5 0x80000100 (sunk k)) fun u => u.stalled == w) = true := by decide +kernel

def warm : State := next (.ldg (dx 5) (x 3) (x 31) 3) t0
/-- GlobalStores, GlobalAtomics and BlockAccesses: the stores of a row whose core holds some of the sectors; the core's own sectors follow, and no others. -/
theorem wit_GlobalStores_cached : all ([(warm.cached 0 0x1000).isSome, (warm.cached 0 0x1200).isNone, Sparse.wf none (warm.core 0).lcache, (warm.cached 1 0x1000).isNone] ++
    [after (.stg 2 (x 3) (x 31) 0) warm fun u => (u.cached 0 0x1008).any (fun e => vget 0 e.data 8 == 0x0A) && (u.cached 0 0x1200).isNone && (u.core 1).lcache.isEmpty,
      after (.atomg (dx 2) (x 3) (x 31) 0) (warm.setSeat 0 { warm.now with mode := 2 }) fun u => (u.core 1).lcache.isEmpty && (u.cached 0 0x1000).isSome]) = true := by decide +kernel

/-- PortsAndUnassigned: NDONE of a head whose producer has ended, with its entries and without; of one that has not. -/
theorem wit_PortsAndUnassigned_ndone : ([(true, []), (true, [entry 1]), (false, [])].map fun (e, n) =>
      after (.pstat (dx 2)) ((matTy 9).setRow 0 { (matTy 9).row 0 with prodExited := e, north := n }) fun u => (u.now.sr 2).getLsbD 12) = [true, false, false] := by decide +kernel

/-- A contribution of a peer, and of a row, that waits. -/
def awaited (who : Master) (sid : Option Nat) : State := { t0 with contribs := [{ addr := 0x1000, v := 0x3F800000, sid := sid, who := who, part := 0, since := 0 }] }
/-- SeatsAndPorts: a contribution of a peer whose span master is frozen, and not; of a frozen seat. -/
theorem wit_SeatsAndPorts_masters : all (let s := awaited (.peer 15 7 5 0x1000) none
    let f := s.setPart 0 { s.part 0 with spanFrozen := [(15, 7)] }
    let z := awaited (.row 0 0) (some 0)
    let zf := z.setSeat 0 { z.now with status := .frozen }
    [s, f, z, zf].all (fun s => (s.accum 0x1000).isNone && s.unitRoom 0x1000) ::
    [after (.faddxContribution 0) s (fun u => u.contribs.isEmpty && u.acks.length == 1), f.contribs.any f.contribFrozen, after (.faddxContribution 0) f (fun u => u.contribs.length == 1),
      after (.faddxContribution 0) z (fun u => u.contribs.isEmpty && u.acks.isEmpty && u.now.gwct.isSome && (u.core 0).gwct.isSome), zf.contribs.any zf.contribFrozen,
      after (.faddxContribution 0) zf (fun u => u.contribs.length == 1)]) = true := by decide +kernel

/-- MatrixSteps: a step with an undefined lane; the last step of a tail's MDOTP, to lines present and absent. -/
theorem wit_MatrixSteps_more : all ((let s := stepping .mdot 2 0 1
      let t := s.setRow 0 { s.row 0 with mat := (s.row 0).mat.map fun i => { i with undef := 1 } }
      [s, t].map fun s => goes (.matrixStep 0) s && goes (.matrixStep 0) (next (.matrixStep 0) s)) ++
    [storing, storing fun s => { s with absent := [(2, true)] }].map fun s0 =>
      let s := { s0.setSeat 0 { s0.now with mode := 10 } with rows := [(0, { RowUnit.empty with mat := ((stepping .mdotp 1 0 0).row 0).mat, south := [.reserved 0 (some [(0, 0x100), (63, 0x108)])] })] }
      (s.seat 0).isTail && after (.matrixStep 0) s fun u => (u.row 0).south.length == if s0.absent.isEmpty then 0 else 1) = true := by decide +kernel

/-- A row that has claimed a slot of a ring and waited. -/
def claimed (n w r c : Nat) : State := let s := scal 6 0x3000 (poke (withQueue 0 0 w r) [(0x3010, 8, c)])
  s.setSeat 0 { s.now with qput := some n }
/-- Submissions: a slot claimed before, with a place, with none, and out of turn; a fence that has not come; a header that is held; a slot on a fenced die, claimed
now and before. -/
theorem wit_Submissions_waits : all ([after (.qput (sc 6) (x 2) 0) (claimed 3 3 0 4) fun u => u.widx (theQueue u) == 4 && u.claim (theQueue u) == 4 && u.now.qput == none && u.now.slot == 2,
      after (.qput (sc 6) (x 2) 0) (claimed 4 4 0 5) fun u => u.now.status == .parked (.ring 0x3000) && u.claim (theQueue u) == 5 && u.now.qput == some 4,
      after (.qput (sc 6) (x 2) 0) (claimed 3 2 0 4) fun u => u.stalled && u.claim (theQueue u) == 4 && u.now.qput == some 3] ++
    (let s := claimed 3 3 0 4
     let fresh := s.setSeat 0 { s.now with qput := none }
     let owing := { s with contribs := contributing.contribs }
     [!owing.released 0 owing.now 0, after (.qput (sc 6) (x 2) 8) owing (fun u => u.stalled), after (.qput (sc 6) (x 2) 0) (s.setStack 0 { s.stack 0 with hBusy := true }) (fun u => u.stalled),
       { fresh with fenced := 1 }.hdrFenced (theQueue s), after (.qput (sc 6) (x 2) 0) { fresh with fenced := 1 } (fun u => u.stalled || u.now.hl)])) = true := by decide +kernel

/-- A queue whose ring is in the stack of another die of its partition. -/
def abroad (kind engine widx : Nat) (ws : List (Nat × Nat × Nat) := []) : State := let s := paged ([(2 ^ 42 + 0x30050, 8, 3 * 2 ^ 41 + 0x5003)] ++ header kind engine widx 0 ++ [(0x3000, 8, 0x8000A000)] ++ ws)
  next (.queueRegister 0 0x3000) (s.setPart 0 { s.part 0 with dies := 3 })
/-- A slot on a fenced die: QPUT traps before it claims it and waits after that; a launch queue and an engine's halt; a submission from outside is refused. -/
theorem wit_Submissions_fenced : all (let s := scal 6 0x3000 (abroad 0 0 1)
    let f := { s with fenced := 2 }
    let q := theQueue f
    let c := { (abroad 1 0 1) with fenced := 2 }
    let e := { (abroad 0x80 0 1) with fenced := 2 }
    [f.queue 0 0x3000 == some q, !f.hdrHeld q, f.slotFenced q 1, f.claim q == 1, after (.qput (sc 6) (x 2) 0) f fun u => u.now.hl && u.now.tcause == 0x1A,
      after (.qput (sc 6) (x 2) 0) (f.setSeat 0 { f.now with qput := some 1 }) fun u => u.stalled && u.now.qput == some 1,
      (match f.nextLaunch 0 with
        | some (_, _, .code k) => k == 0x0C
        | _ => false), after (.launchAccept 0) f fun u => u.status q == 0x0C01, c.offer (theQueue c) == .code 0x0C, after (.copy 0 0x3000) c fun u => u.status (theQueue c) == 0x0C01,
      after (.extQueueSubmit 0 0x3000 (vrep 8 5) 2) e fun u => u.module.out.length == 1 && u.widx q == 1]) = true := by decide +kernel

/-- A packet's words. -/
def pk (ws : List (Nat × Nat)) : Vector Word 8 := tab 8 fun n => BitVec.ofNat 64 ((ws.find? (fun w => w.1 == 8 * n)).getD (0, 0)).2
/-- CopyEngines: each code of 09 R263's table by a packet that fails its check alone, and the lowest of two (R263). -/
theorem wit_CopyEngines_codes : (let s := withQueue 1 0 0 0
    ([copyOf 0x201 64 0x1000 0x80000000 1, copyOf 0x205 64 0x1000 0x80000000 1, copyOf 0x601 64 0x1000 0x80000000 1, copyOf 0x201 60 0x1000 0x80000000 1, copyOf 0x001 64 0x1000 0x2000 1,
      copyOf 0x201 0 0x1000 0x80000000 1, copyOf 0x201 64 0x1000 0x80000000 (2 ^ 26), copyOf 0x002 512 0x1000 0x700000001 1, copyOf 0x601 60 0x1000 0x80000000 1,
      copyOf 0x201 64 0x1000 0x80000000 1 (3 * 2 ^ 62), copyOf 0x201 64 0x1000 0x80000000 1 (2 ^ 62 + 0x80000010)] : List (List (Nat × Nat))).map fun ws => lowest (s.copyCodes 0 (theQueue s) (pk ws))) =
    [none, some 1, some 2, some 3, some 4, some 5, some 5, some 6, some 2, some 2, some 3] ∧
    (let s := withQueue 1 8 0 0
     lowest (s.copyCodes 0 (theQueue s) (pk (copyOf 0x201 64 0x1000 0x80000000 1)))) = some 8 := by decide +kernel

/-- GirthCommands: each code of 09 R263's table that the packet alone gives, and the lowest of two. -/
theorem wit_GirthCommands_codes : ([girthOf 0x10, (0, 0x0F + 2 ^ 32) :: girthOf 0x10, (0, 0x110 + 2 ^ 32) :: girthOf 0x10, (8, 0x1002) :: girthOf 0x10, (0, 0x10) :: girthOf 0x10, (0x10, 0x1000) :: girthOf 0x10,
      (8, 2 ^ 63 + 0x1000) :: girthOf 0x10, [(0, 0x110), (8, 0x1002)]].map fun ws => lowest (girthCodes (pk ws) true)) =
    [none, some 1, some 2, some 3, some 5, some 7, some 8, some 2] ∧ lowest (girthCodes (pk (girthOf 0x10)) false) = some 8 := by decide +kernel

/-- LaunchesRun: each code of 10 R265's table by a packet that fails its check, and the lowest of two. -/
theorem wit_LaunchesRun_codes : (([launchOf 0 0, (0, 0x21 + 2 ^ 24 + 64 * 2 ^ 32 + 0xE * 2 ^ 40 + 2 ^ 48) :: launchOf 0 0, launchOf 3 0, (0x10, 0x41) :: launchOf 0 0, (0, 0x20 + 2 ^ 24 + 0xE * 2 ^ 40 + 2 ^ 48) :: launchOf 0 0,
      launchOf 4 0, (8, 1 + 12 * 2 ^ 32 + 2 ^ 40) :: launchOf 0 0, (0, 0x520 + 2 ^ 24 + 64 * 2 ^ 32 + 2 ^ 40 + 2 ^ 55) :: launchOf 0 0, [(0, 0x620 + 2 ^ 24 + 64 * 2 ^ 32 + 2 ^ 40 + 2 ^ 54), (8, 2 + 2 ^ 32 + 2 ^ 40), (0x30, 9)],
      launchOf 5 0, (0x30, 7) :: launchOf 0 0, launchOf 8 0, (0x10, 0x41) :: launchOf 8 0] : List (List (Nat × Nat))).map fun ws =>
        let s := launched [{ aLaunch with lid := 7 }]
        lowest (s.launchCodes (pk ws) (asLaunch 0 (pk ws) none 0 0))) =
    [none, some 1, some 2, some 3, some 5, some 0x10, some 0x11, some 0x12, some 0x13, some 0x14, some 0x15, some 0x16, some 3] := by decide +kernel

/-- Whether an instruction leaves these parts of the state as they were. -/
def idle (i : Instr) (s : State) : Bool := after i s fun u => u.parts == s.parts && (u.seats.map fun e => (e.1, e.2.status, e.2.pc)) == (s.seats.map fun e => (e.1, e.2.status, e.2.pc)) && u.hbm == s.hbm && u.launches == s.launches && u.packets == s.packets && u.module.out == s.module.out
/-- It answers the control port once more, and leaves the rest. -/
def answers (i : Instr) (s : State) : Bool := after i s fun u => u.parts == s.parts && (u.seats.map fun e => (e.1, e.2.status, e.2.pc)) == (s.seats.map fun e => (e.1, e.2.status, e.2.pc)) && u.hbm == s.hbm && u.module.out.length == s.module.out.length + 1
def heldBy (k : Nat) (s : State) : State := s.setStack k { s.stack k with hBusy := true }
def off (s : State) : State := s.setPart 0 { s.part 0 with en := false }

/-- QueueUpkeep: no session; a partition that is off; a header whose stack is busy, and on a fenced die; a slot that is held; a counter frozen at a task. -/
theorem wit_QueueUpkeep_refusals : all (let s := withQueue 0x80 0 1 0
    let all4 := [Instr.queueRegister 0 0x3000, .queueHaltClear 0 0x3000, .extQueueSubmit 0 0x3000 (vrep 8 5) 4, .counterFrozenClear 0 5]
    all4.map (fun i => answers i (mute s)) ++
    [idle (.queueRegister 0 0x3000) (off s), idle (.extQueueSubmit 0 0x3000 (vrep 8 5) 4) (off s), !(heldBy 0 s).hdrOpen 0 0x3000, !{ s with fenced := 1 }.hdrOpen 0 0x3000, s.hdrOpen 0 0x3000,
      !s.walksWait 0 0x3000, idle (.queueRegister 0 0x3000) (heldBy 0 (poke t0 (header 0 0 1 0))), (heldBy 0 s).hdrHeld (theQueue s), idle (.queueHaltClear 0 0x3000) (heldBy 0 s),
      idle (.extQueueSubmit 0 0x3000 (vrep 8 5) 4) (heldBy 0 s), answers (.extQueueSubmit 0 0x3000 (vrep 8 5) 4) { s with fenced := 1 },
      let c : Counter := { frozen := true, atTask := true, pend := [64] }
      after (.counterFrozenClear 0 5) (counting 5 c t0) fun u => u.counter 0 5 == {}]) = true := by decide +kernel

/-- CopyEngines, acceptance: a poisoned slot; a target outside the partition's scratchpads; a core whose die is fenced; a head that is bound. -/
theorem wit_CopyEngines_refused : all (let q := fun s => theQueue s
    let p := { (offering 1 (copyOf 0x201 64 0x1000 0x80000000 1)) with hpois := [(0x3040 / 32, true)] }
    let v := offering 1 (copyOf 0x201 64 0x1000 0x80000000 1 (2 ^ 62 + 0xBFFFFFE0))
    let c := { (abroad 1 8 1) with fenced := 2 }
    let far := { (next (.queueRegister 0 0x3000) (poke (t0.setPart 0 { t0.part 0 with dies := 3 }) (header 1 8 1 0 ++
      (copyOf 0x201 64 0x1000 0x80000000 1).map fun w => (0x3040 + w.1, 8, w.2)))) with fenced := 2 }
    let b := let s := offering 1 (copyOf 0x002 512 0x1000 0x700000000 1)
      s.setRow 0 { s.row 0 with feed := some 9 }
    [p.offer (q p) == .code 1, after (.copy 0 0x3000) p fun u => u.status (q p) == 0x0101,
      (match v.offered (q v) with
        | some k => (lowest (v.copyCodes 0 (q v) k)).isNone && (match v.targetsCheck (q v) k with
          | .vio _ _ _ => true
          | _ => false)
        | none => false), after (.copy 0 0x3000) v fun u => (q u).frozen && (u.part 0).vring.length == 1 && u.ridx (q u) == 0,
      c.offer (q c) == .code 0x0C, (q far).core == some 8, (match far.offered (q far) with
        | some k => (lowest (far.copyCodes 0 (q far) k)).isNone && far.fenced.getLsbD 1
        | none => false), idle (.copy 0 0x3000) far, (q b).core == some 0, (match b.offered (q b) with
        | some k => (lowest (b.copyCodes 0 (q b) k)).isNone && b.feedHead 0 0 k == some 0
        | none => false), idle (.feed 0 0x3000) b]) = true := by decide +kernel

/-- A copy packet that has been accepted, whose rows read from an address. -/
def reading (src : Nat) (s : State := ports fun t => { t with bind := { t.bind with slen := 1 } }) : State := next (.copy 0 0x3000) (offering 1 (copyOf 0x201 64 src 0x80000000 1) s)
/-- CopyEngines, rows and targets: a page not present; a violation, which takes RIDX back; a write completion time that its targets wait for; a fault that stands while the queue is
halted, and one that is over since its page is gone. -/
theorem wit_CopyEngines_stops : all (let f := reading 0xF00000000000
    let v := reading 0x10000000000000
    let late := (reading 0x1000).setPacket 0 (some { aPacket (reading 0x1000) with acq := some 5000, row := 1 })
    let u := next (.copy 0 0x3000) f
    let w := u.setPacket 0 (some { aPacket u with pkt := vset (aPacket u).pkt 1 0x10000000000000 })
    [f.moving 0 0x3000 == some (0, aPacket f), !f.rowsHeld (aPacket f), after (.copy 0 0x3000) f fun u => (aPacket u).fault && (aPacket u).told == some 0xF00000000000 && (u.part 0).reports.length == 1,
      v.ridx (theQueue v) == 1, after (.copy 0 0x3000) v fun u => (aPacket u).frozen && (theQueue u).frozen && u.ridx (theQueue u) == 0 && (theQueue u).back == some 1,
      (aPacket late).readAll, idle (.release 0) late, idle (.landed 0) late, !late.packetHeld (aPacket late), idle (.copyFaultResume 0) (poke u [(0x300C, 4, 1)]),
      after (.copyFaultResume 0) (heldBy 2 u) fun r => !(aPacket r).fault, after (.copyFaultResume 0) w fun r => !(aPacket r).fault]) = true := by decide +kernel

/-- GirthCommands: a page not present, a violation, a page in another stack, a busy stack, a fenced one, and the queue's own header held; the same of a task. -/
theorem wit_GirthCommands_stops : all (let q := fun y => offering 2 [(0, 0x14 + 2 ^ 32), (8, y)]
    let t := fun y => t0.setPart 0 { t0.part 0 with tasks := [{ stack := 0, counter := 0, task := 64, pkt := pk [(0, 0x14 + 2 ^ 32), (8, y)] }] }
    let i := Instr.girthZero 0 (.queue 0x3000)
    let k := Instr.girthZero 0 (.task 0)
    [after i (q 0xF00000000000) fun u => (theQueue u).stalled && (u.part 0).reports.length == 1, after i (q 0x10000000000000) fun u => (theQueue u).frozen && (u.part 0).vring.length == 1,
      idle i (heldBy 2 (q 0x1000)), idle i (heldBy 0 (q 0x1000)),
      after k (t 0xF00000000000) fun u => (u.part 0).tasks.length == 1 && (u.part 0).reports.length == 1, after k (t 0x10000000000000) fun u => (u.part 0).tasks.isEmpty && (u.counter 0 0).atTask && (u.part 0).vring.length == 1,
      idle k (heldBy 2 (t 0x1000)), after k (t 0x1002) fun u => (u.part 0).tasks.isEmpty && (u.counter 0 0).err,
      after i (next i (q 0x1000)) fun u => (theQueue u).run.isSome, idle i (heldBy 0 { (next i (q 0x1000)) with time := 2000 })]) = true := by decide +kernel

/-- LaunchesRun: a queue whose header is held, and one behind an empty one; a packet that fails a code, by R265; acceptance retried while it waits, meets the page's absence again, or has nothing; a
bridle table that waits. -/
theorem wit_LaunchesRun_waits : all (let s := offering 0 (launchOf 0 0x4000) t0
    let bad := offering 0 (launchOf 3 0xF00000000000) t0
    let stalled := fun s => s.setQueue 0 { theQueue s with stalled := true }
    let gone := offering 0 (launchOf 0 0xF00000000000) t0
    let none' := withQueue 0 0 0 0
    let u := launched [{ aLaunch with bridle := 0x4000 }]
    [(heldBy 0 s).nextLaunch 0 == some (0, theQueue s, .wait), idle (.launchAccept 0) (heldBy 0 s), after (.launchAccept 0) bad fun u => u.status (theQueue u) == 0x0201 && (u.part 0).rot == 1,
      (heldBy 0 s).offer (theQueue s).unstall == .wait, idle (.bridleFaultResume 0) (heldBy 0 (stalled s)), none'.offer (theQueue none').unstall == .none, idle (.bridleFaultResume 0) (stalled none'),
      after (.bridleFaultResume 0) (stalled gone) fun u => (u.part 0).reports.length == 1 && (theQueue u).told == some 0xF00000000000,
      (heldBy 2 u).firstWaiting 0 == u.firstWaiting 0, idle (.launchPlace 0) (heldBy 2 u)]) = true := by decide +kernel

/-- A launch of the queue at 0x3000 that a bridle write has frozen, its queue with it, and whether the packet at RIDX is frozen too. -/
def frozenLaunch (atAccept : Bool) (n : Nat := 1) : State := let s := withQueue 0 0 1 0
  { (s.setQueue 0 { theQueue s with frozen := true, atAccept := atAccept }) with
    launches := (List.range n).map fun i => (launchKey 0 (BitVec.ofNat 64 (7 + i)), some { aLaunch with lid := BitVec.ofNat 64 (7 + i), queue := some 0x3000, bfrozen := true, closing := 1 }) }
/-- FrozenMasters: a header that is held; ABORT of a queue that a launch has frozen, with the packet at RIDX frozen too and without; KILL of that launch, with and without another one, and with
the packet. -/
theorem wit_FrozenMasters_launches : all (let q := theQueue (frozenLaunch true)
    let f := fun a : Bool => told 0x3000 0 0 (frozenLaunch a)
    let h := heldBy 0 (told 0x3000 0 0 (poke (withQueue 0 0 1 0) [(0x300C, 4, 1)]))
    let k := fun s => next (.kill 0) (told 7 0 0 s)
    [idle (.abort 0) (heldBy 0 (f true)), idle (.skip 0) h, h.hdrHeld (theQueue h), idle (.resume 0) (heldBy 0 (told (5 <<< 56 ||| 0x3000) 0 0 (frozenLaunch true))), idle (.abort 0) (f false),
      after (.abort 0) (f true) fun u => (theQueue u).frozen && !(theQueue u).atAccept && u.ridx q == 1 && u.doneIdx q == 1 && u.status q == 0x0B01,
      (Sparse.get none (k (frozenLaunch false)).launches 7).isNone, !(theQueue (k (frozenLaunch false))).frozen, (theQueue (k (frozenLaunch false 2))).frozen, (theQueue (k (frozenLaunch true))).frozen,
      after (.resume 0) (told (5 <<< 56 ||| 0x3000) 0 0 (frozenLaunch true)) fun u => !(theQueue u).frozen && !(theQueue u).atAccept && u.launches.all fun e => e.2.all fun l => !l.bfrozen]) = true := by decide +kernel

/-- Preemption: a seat parked in slot 1 on an instruction of any class; the drain's end of a launch that is frozen; a RESTORE behind an earlier launch that is not yet placed whole, and of a launch
that is frozen. -/
theorem wit_Preemption_waits : all (let w := preempting pre0 (units [seven] 0x10000 (on fun t => { t with status := .parked (.lines [5]) }))
    let d := preempting { pre0 with t1 := some 1000 } (units [{ seven with bfrozen := true }] 0x10000)
    let h := fun (ls : List Launch) => let s := { (holding saved0) with launches := ls.map fun l => (launchKey l.part l.lid, some l) }
      ((s.firstWaiting 0).map fun w => w.lid, goes (.restore 0) s)
    [w.now.atSwitch, after (.preemptSeatStop 0) w fun u => u.now.status == .stopped (some (.lines [5])), after (.preemptDrainEnd 0) d fun u => (u.part 0).pre.isSome && (u.part 0).saved.isEmpty,
      h [{ seven with order := 5, placed := true }] == (none, true), h [{ aLaunch with lid := 3, order := 4 }, { seven with order := 5, placed := true }] == (some 3, true),
      h [{ seven with order := 5, placed := true, bfrozen := true }] == (none, true)]) = true := by decide +kernel

/-- TablesAndStacks: a partition that is off; a busy hash change, a parity that is written off, and a group that has retired already. DieRecovery: a contribution that crosses a die in reset, to it
and from it. -/
theorem wit_TablesAndStacks_more : all ([idle (.tuSet 0 0 2) (off (updating 0x40000000 0x1F)), after (.retireGo 0) (onStack fun u => { u with hBusy := true }) (fun u => (u.stack 0).retErr),
      after (.retireGo 0) (onStack fun u => { u with parW := false }) (fun u => (u.stack 0).retErr), after (.retireGo 0) t0 (fun u => (u.stack 0).retBusy && !(u.stack 0).retErr),
      after (.retireGo 0) (onStack fun u => { u with retgrp := vset u.retgrp 0 0x80 }) (fun u => (u.stack 0).retErr), after (.registerWrite 0 (.retctl 0) 0x708) (onStack fun u => { u with retErr := true }) fun u =>
        !(u.stack 0).retErr && (u.stack 0).pch == 7] ++
    [(Master.row 0 0, 99999, true), (.row 5000 0, 99999, true), (.row 0 0, 100000, false)].map fun (w, t, waits) =>
      let s := { (onDie fun u => { u with reset := some (0, false) }) with time := BitVec.ofNat 64 t, fenced := 1, contribs := (awaited w (some 0)).contribs }
      after (.dieResetForce 0) s fun u => (u.fenced == 1) == waits) = true := by decide +kernel

/-- PowerControl: new values of one of two cores that have them, and of the last. PartitionsAndPeers: CONFIG written with EN set and clear, in a partition that is on and one that is off;
a poisoned store of a peer, an atomic of poisoned bytes, a grant that is frozen, and a busy stack. RootAndLinks: a quote, which takes four numbers for its signature. -/
theorem wit_PowerControl_rail : all (let s := (onCore fun u => { u with next := some (1000, 3900, 336) }).setDie 0 { t0.die 0 with vidNext := some 70, vid := 90 }
      let two := s.setCore 7 { s.core 7 with next := some (1000, 3900, 336) }
      [after (.newValuesApply 0) s fun u => (u.die 0).vid == 70 && (u.die 0).vidNext.isNone, after (.newValuesApply 0) two fun u => (u.die 0).vid == 90 && (u.die 0).vidNext == some 70]) = true := by decide +kernel
theorem wit_PartitionsAndPeers_more : all (let cfg := fun (p : Fin 8) (v : Word) (s : State) => next (.registerWrite p .partcfg v) s
    let e := t0.setPart 0 { t0.part 0 with err := true }
    let peer := fun (op : PeerOp) (s : State) => next (.peerAccessInbound 15 7 5 0 0x1000 op) s
    [(cfg 0 (2 ^ 40 + 1) t0).parts == (next (.partitionEnable 0 (2 ^ 40 + 1)) t0).parts, !((cfg 0 1 t0).part 0).en, !((cfg 0 (2 ^ 41 + 1) e).part 0).err, ((cfg 0 1 e).part 0).err, ((cfg 1 (2 ^ 40 + 0x10002) { t0 with parts := vset t0.parts 1 { tregion := vset (vrep 8 0) 1 (2 ^ 43 + 1) } }).part 1).en,
      ((cfg 1 2 t0).part 1).dies == 2 && !((cfg 1 2 t0).part 1).en, !((next (.partitionEnable 0 (2 ^ 41 + 2 ^ 40 + 1)) e).part 0).err,
      (peer (.store 3 9 true) linked).secPois 0x1000, !(peer (.store 3 9 false) linked).secPois 0x1000, (peer (.atomic 0 2 5) { linked with hpois := [(0x1000 / 32, true)] }).spanIn.length == 1,
      idle (.peerAccessInbound 15 7 5 0 0x1000 (.load 3)) (heldBy 0 linked),
      idle (.peerAccessInbound 15 7 5 0 0x1000 (.load 3)) (linked.setPart 0 { linked.part 0 with spanFrozen := [(15, 7)] })]) = true := by decide +kernel
theorem wit_RootAndLinks_quote : (next (.quote 5) t0).freeCtr = t0.freeCtr + 4 ∧ (next (.quote 5) t0).module.out.length = t0.module.out.length + 1 ∧ (next (.quote 5) (mute t0)).freeCtr = t0.freeCtr := by decide +kernel

end Sys2Proof.Tests
end

/-! Every step keeps the canonical form of both memories (00 R6; 07 R184, R190). -/
namespace Sys2Proof.Machine

/-- Every kind of act keeps it: a slot and an event may stop the machine, the others always answer a next state. -/
theorem memOk_act (s : State) (a : Act) (hM : MemOk s) : Goes MemOk (s.act a) := by
  cases a with
  | issue sid => exact memOk_runSlot s sid hM
  | event i => exact memOk_exec i s hM
  | clock core => exact goes_next (memOk_clockBegin s core hM)
  | prepare sid => exact memOk_prepare s sid hM
  | gauge core => exact goes_next (memOk_gauge s core hM)
  | select core => exact goes_next (memOk_select s core hM)
  | env e => exact goes_next (memOk_input s e hM)

/-- A step is a tick of TIME or the first act of the agenda, and the agenda is no part of memory (log 2). -/
theorem memOk_step (s : State) (hM : MemOk s) : Goes MemOk (step s) := by
  unfold step
  split
  case h_1 => exact goes_next (memOk_tick s hM)
  case h_2 a rest _ => exact memOk_act { s with agenda := rest } a (memOk_rec.mpr hM)

/-- Settles O59: the one-step form of the invariant, from what each act keeps. -/
theorem stepKeepsMemory : Obligations.StepKeepsMemory := fun s t hM hstep => memOk_step s hM t hstep

end Sys2Proof.Machine

/-! The machine at power-good (01 R42): each part of it as the accessors read it, and the values the spec gives. -/
namespace Sys2Proof.Machine

/-- A vector of equal elements reads as that element also past its end, where the element is the default. -/
theorem vget_vrep_default {α : Type} (n i : Nat) (d : α) : vget d (vrep n d) i = d := by
  rw [vget_vrep, ite_self]

/-! ### The parts of the machine at power-good -/

@[simp] theorem State.reset_seat (k : Nat) : State.reset.seat k = Seat.blank := rfl

@[simp] theorem State.reset_isAbsent (line : Nat) : State.reset.isAbsent line = false := rfl

@[simp] theorem State.reset_isPois (line : Nat) : State.reset.isPois line = false := rfl

@[simp] theorem State.reset_part (p : Nat) : State.reset.part p = {} := vget_vrep_default 8 p _

@[simp] theorem State.reset_stack (k : Nat) : State.reset.stack k = {} := vget_vrep_default 24 k _

@[simp] theorem State.reset_die (d : Nat) : State.reset.die d = {} := vget_vrep_default 8 d _

@[simp] theorem State.reset_core (c : Nat) : State.reset.core c = CoreUnit.reset := vget_vrep_default 64 c _

/-- 12 R311: the counters of a partition are all zero. -/
@[simp] theorem State.reset_counter (p n : Nat) : State.reset.counter p n = {} := by
  rw [State.counter, State.reset_part]
  rfl

/-- 10 R275: the spawn bins of a core hold no pair. -/
@[simp] theorem State.reset_bin (c b : Nat) : State.reset.bin c b = {} := by
  rw [State.bin, State.reset_core]
  exact vget_vrep_default 16 b _

@[simp] theorem State.reset_link (n : Nat) : vget ({} : Link) State.reset.module.links n = {} := vget_vrep_default 16 n _

/-- 00 R6; 07 R184, R190: both memories list no byte, so they read as zeros in the canonical form. -/
theorem memOk_reset : MemOk State.reset := ⟨rfl, rfl⟩

/-! ### What each kind of unit holds -/

/-- 13 R326: no die of a partition has a table region. -/
theorem Part.initial_tregion (d : Nat) : vget 0 ({} : Part).tregion d = 0 := vget_vrep_default 8 d 0

/-- 13 R337: no grant of a partition is in force, outbound or inbound. -/
theorem Part.initial_grants (n : Nat) : vget 0 ({} : Part).ogrant n = 0 ∧ vget 0 ({} : Part).igrant n = 0 :=
  ⟨vget_vrep_default 128 n 0, vget_vrep_default 128 n 0⟩

/-- 07 R196: mask k of a stack selects its own address bit alone, 13 + k, as written and in force. -/
theorem Stack.initial_hmask {i : Nat} (hi : i < 8) :
    vget 0 ({} : Stack).hmask i = 1#28 <<< i ∧ vget 0 ({} : Stack).hmaskW i = 1#28 <<< i :=
  ⟨vget_tab_lt hi 0 _, vget_tab_lt hi 0 _⟩

/-- Settles O60: each part of the machine at power-good is its unit's initial value, which holds what the spec gives. -/
theorem resetValues : Obligations.ResetValues := by
  refine ⟨memOk_reset, rfl, rfl, rfl, rfl, rfl, rfl, rfl, rfl, rfl, State.reset_seat, fun _ => rfl,
    fun l => ⟨State.reset_isAbsent l, State.reset_isPois l⟩, ?partRegisters, ?stackMasks, ?dieLevels, ?coreSettings,
    fun n _ => State.reset_link n⟩
  case partRegisters =>
    intro p _
    rw [State.reset_part]
    exact ⟨rfl, rfl, rfl, rfl, rfl, rfl, rfl, rfl, rfl, rfl, rfl, rfl, rfl, rfl, fun d _ => Part.initial_tregion d,
      fun n _ => Part.initial_grants n, State.reset_counter p⟩
  case stackMasks =>
    intro k _
    rw [State.reset_stack]
    exact ⟨rfl, rfl, rfl, rfl, rfl, rfl, rfl, fun _ hi => Stack.initial_hmask hi⟩
  case dieLevels =>
    intro d _
    rw [State.reset_die]
    exact ⟨rfl, rfl, rfl, rfl, rfl, rfl, rfl⟩
  case coreSettings =>
    intro c _
    rw [State.reset_core]
    exact ⟨rfl, rfl, rfl, rfl, rfl, rfl, fun b _ => State.reset_bin c b⟩

end Sys2Proof.Machine

/-! The words of the instructions (02 R51, R67, R68): each decodes to its instruction, and is the only one that does. -/
namespace Sys2Proof

/-- Settles O54: instruction by instruction, and a step of the module has no word. -/
theorem decodeEncode : Obligations.DecodeEncode := by
  intro i
  cases i with
  | nop => exact Laws.Encoding.nop
  | mod q s e t r z k => exact Laws.Encoding.mod q s e t r z k
  | ximm i => exact Laws.Encoding.ximm i
  | bra o => exact Laws.Encoding.bra o
  | bz c o => exact Laws.Encoding.bz c o
  | bnz c o => exact Laws.Encoding.bnz c o
  | brd m o => exact Laws.Encoding.brd m o
  | brdn m o => exact Laws.Encoding.brdn m o
  | jset o => exact Laws.Encoding.jset o
  | join => exact Laws.Encoding.join
  | jmp a => exact Laws.Encoding.jmp a
  | jmpv a => exact Laws.Encoding.jmpv a
  | call o => exact Laws.Encoding.call o
  | callr a => exact Laws.Encoding.callr a
  | ret a => exact Laws.Encoding.ret a
  | exit => exact Laws.Encoding.exit
  | loop c o => exact Laws.Encoding.loop c o
  | brk k => exact Laws.Encoding.brk k
  | pushp a => exact Laws.Encoding.pushp a
  | pushpn a => exact Laws.Encoding.pushpn a
  | pushm a => exact Laws.Encoding.pushm a
  | invp => exact Laws.Encoding.invp
  | popp => exact Laws.Encoding.popp
  | mset d k => exact Laws.Encoding.mset d k
  | mlog d a b f => exact Laws.Encoding.mlog d a b f
  | mcnt d a => exact Laws.Encoding.mcnt d a
  | mfst d a => exact Laws.Encoding.mfst d a
  | mtos d a => exact Laws.Encoding.mtos d a
  | stom d a => exact Laws.Encoding.stom d a
  | many d a => exact Laws.Encoding.many d a
  | mall d a => exact Laws.Encoding.mall d a
  | mspill a => exact Laws.Encoding.mspill a
  | mfill a n => exact Laws.Encoding.mfill a n
  | add d a b => exact Laws.Encoding.add d a b
  | sub d a b => exact Laws.Encoding.sub d a b
  | mul d a b => exact Laws.Encoding.mul d a b
  | mulh d a b => exact Laws.Encoding.mulh d a b
  | min d a b => exact Laws.Encoding.min d a b
  | max d a b => exact Laws.Encoding.max d a b
  | abs d a => exact Laws.Encoding.abs d a
  | neg d a => exact Laws.Encoding.neg d a
  | and d a b => exact Laws.Encoding.and d a b
  | or d a b => exact Laws.Encoding.or d a b
  | xor d a b => exact Laws.Encoding.xor d a b
  | andn d a b => exact Laws.Encoding.andn d a b
  | shl d a b => exact Laws.Encoding.shl d a b
  | shr d a b => exact Laws.Encoding.shr d a b
  | sar d a b => exact Laws.Encoding.sar d a b
  | rot d a b => exact Laws.Encoding.rot d a b
  | addi d i => exact Laws.Encoding.addi d i
  | li d i => exact Laws.Encoding.li d i
  | lsi d i => exact Laws.Encoding.lsi d i
  | lea d a b k => exact Laws.Encoding.lea d a b k
  | clz d a => exact Laws.Encoding.clz d a
  | popc d a => exact Laws.Encoding.popc d a
  | brev d a => exact Laws.Encoding.brev d a
  | bfx d a b => exact Laws.Encoding.bfx d a b
  | bfi d a b => exact Laws.Encoding.bfi d a b
  | div d a b => exact Laws.Encoding.div d a b
  | rem d a b => exact Laws.Encoding.rem d a b
  | mad d a b => exact Laws.Encoding.mad d a b
  | sext d a b => exact Laws.Encoding.sext d a b
  | zext d a b => exact Laws.Encoding.zext d a b
  | cmp d a b f => exact Laws.Encoding.cmp d a b f
  | cmpm d a b f => exact Laws.Encoding.cmpm d a b f
  | sel d a b m => exact Laws.Encoding.sel d a b m
  | clamp d a b => exact Laws.Encoding.clamp d a b
  | fadd d a b => exact Laws.Encoding.fadd d a b
  | fsub d a b => exact Laws.Encoding.fsub d a b
  | fmul d a b => exact Laws.Encoding.fmul d a b
  | fma d a b => exact Laws.Encoding.fma d a b
  | fnma d a b => exact Laws.Encoding.fnma d a b
  | fmin d a b => exact Laws.Encoding.fmin d a b
  | fmax d a b => exact Laws.Encoding.fmax d a b
  | fneg d a => exact Laws.Encoding.fneg d a
  | fabs d a => exact Laws.Encoding.fabs d a
  | fdiv d a b => exact Laws.Encoding.fdiv d a b
  | fsqrt d a => exact Laws.Encoding.fsqrt d a
  | fexp2 d a => exact Laws.Encoding.fexp2 d a
  | flog2 d a => exact Laws.Encoding.flog2 d a
  | frsq d a => exact Laws.Encoding.frsq d a
  | ftanh d a => exact Laws.Encoding.ftanh d a
  | fsigm d a => exact Laws.Encoding.fsigm d a
  | fclass d a => exact Laws.Encoding.fclass d a
  | cvt d a b s => exact Laws.Encoding.cvt d a b s
  | qcb d a b n => exact Laws.Encoding.qcb d a b n
  | dqcb d a b n => exact Laws.Encoding.dqcb d a b n
  | pack d a b s => exact Laws.Encoding.pack d a b s
  | unpk d a s => exact Laws.Encoding.unpk d a s
  | had d a b => exact Laws.Encoding.had d a b
  | hadinv d a b => exact Laws.Encoding.hadinv d a b
  | rand d a b => exact Laws.Encoding.rand d a b
  | shfl d a b f => exact Laws.Encoding.shfl d a b f
  | bfly d a f => exact Laws.Encoding.bfly d a f
  | bcast d a b => exact Laws.Encoding.bcast d a b
  | redw d a f => exact Laws.Encoding.redw d a f
  | scan d a f => exact Laws.Encoding.scan d a f
  | compact d a => exact Laws.Encoding.compact d a
  | xtos d a b => exact Laws.Encoding.xtos d a b
  | stox d a b => exact Laws.Encoding.stox d a b
  | mov d a => exact Laws.Encoding.mov d a
  | movs d a b => exact Laws.Encoding.movs d a b
  | mdot d a b k => exact Laws.Encoding.mdot d a b k
  | mdotp a b z k => exact Laws.Encoding.mdotp a b z k
  | mbatch d => exact Laws.Encoding.mbatch d
  | mwait a => exact Laws.Encoding.mwait a
  | aget d a => exact Laws.Encoding.aget d a
  | aput d a => exact Laws.Encoding.aput d a
  | azero d k => exact Laws.Encoding.azero d k
  | ascl d a k => exact Laws.Encoding.ascl d a k
  | ldcb n a => exact Laws.Encoding.ldcb n a
  | ppass => exact Laws.Encoding.ppass
  | pdrop => exact Laws.Encoding.pdrop
  | pstat d => exact Laws.Encoding.pstat d
  | tailcfg a b => exact Laws.Encoding.tailcfg a b
  | lds d a b f => exact Laws.Encoding.lds d a b f
  | sts d a b f => exact Laws.Encoding.sts d a b f
  | ldsb d a b => exact Laws.Encoding.ldsb d a b
  | stsb d a b => exact Laws.Encoding.stsb d a b
  | pres d a b => exact Laws.Encoding.pres d a b
  | absent a b n => exact Laws.Encoding.absent a b n
  | atoms d a b f => exact Laws.Encoding.atoms d a b f
  | cass d a b => exact Laws.Encoding.cass d a b
  | ldg d a b f => exact Laws.Encoding.ldg d a b f
  | stg d a b f => exact Laws.Encoding.stg d a b f
  | ldgb d a b f => exact Laws.Encoding.ldgb d a b f
  | stgb d a b => exact Laws.Encoding.stgb d a b
  | atomg d a b f => exact Laws.Encoding.atomg d a b f
  | redg a b f => exact Laws.Encoding.redg a b f
  | casg d a b => exact Laws.Encoding.casg d a b
  | prefg a b => exact Laws.Encoding.prefg a b
  | isect d a b => exact Laws.Encoding.isect d a b
  | frel s => exact Laws.Encoding.frel s
  | facq s => exact Laws.Encoding.facq s
  | ffull s => exact Laws.Encoding.ffull s
  | ifence => exact Laws.Encoding.ifence
  | bari a b => exact Laws.Encoding.bari a b
  | barv a b s => exact Laws.Encoding.barv a b s
  | barw a b => exact Laws.Encoding.barw a b
  | barx a b => exact Laws.Encoding.barx a b
  | bars d a k => exact Laws.Encoding.bars d a k
  | time d => exact Laws.Encoding.time d
  | clkc d => exact Laws.Encoding.clkc d
  | qput a b f => exact Laws.Encoding.qput a b f
  | tdec a => exact Laws.Encoding.tdec a
  | tarm a b => exact Laws.Encoding.tarm a b
  | take d a => exact Laws.Encoding.take d a
  | spawn a b => exact Laws.Encoding.spawn a b
  | yield => exact Laws.Encoding.yield
  | sleept a => exact Laws.Encoding.sleept a
  | setmode m => exact Laws.Encoding.setmode m
  | getmode d => exact Laws.Encoding.getmode d
  | csrr d c => exact Laws.Encoding.csrr d c
  | csrw c b => exact Laws.Encoding.csrw c b
  | trap a k => exact Laws.Encoding.trap a k
  | rett => exact Laws.Encoding.rett
  | ctxsv a => exact Laws.Encoding.ctxsv a
  | ctxld a => exact Laws.Encoding.ctxld a
  | _ => exact nofun

/-! ### A word read back from its fields -/

/-- The field's value as a number. -/
@[simp] theorem toNat_fld (n lo k : Nat) : (fld n lo k).toNat = n / 2 ^ lo % 2 ^ k := BitVec.toNat_ofNat _ _

/-- The bit of a field, as a number. -/
theorem toNat_bits_one (n lo : Nat) : (bits n lo 1 == 1).toNat = n / 2 ^ lo % 2 := by
  unfold bits
  rcases Nat.mod_two_eq_zero_or_one (n / 2 ^ lo) with h | h <;> simp [h]

/-- A source code is the seven bits from where it stands (02 R53). -/
@[simp] theorem code_src (n lo : Nat) : (src n lo).code = n / 2 ^ lo % 128 := by
  have h6 : n / 2 ^ (lo + 6) = n / 2 ^ lo / 64 := by rw [Nat.pow_add, ← Nat.div_div_eq_div_mul]
  have h5 : n / 2 ^ (lo + 5) = n / 2 ^ lo / 32 := by rw [Nat.pow_add, ← Nat.div_div_eq_div_mul]
  simp only [src, Src.code, toNat_bits_one, BitVec.toNat_ofNat, h6, h5]
  omega

/-- A D field is the six bits from bit 18 (02 R52). -/
@[simp] theorem code_dst (n : Nat) : (dst n).code = n / 2 ^ 18 % 64 := by
  simp only [dst, Dst.code, toNat_bits_one, BitVec.toNat_ofNat]
  omega

/-! ### The instruction that a word decodes to encodes to the word -/

/-- What a decoder answers, if anything, encodes to the word `n`. -/
def EncodesTo (n : Nat) (o : Option Instr) : Prop := ∀ i, o = some i → encodeNat i = some n

@[simp] theorem encodesTo_none (n : Nat) : EncodesTo n none := fun _ => nofun

@[simp] theorem encodesTo_some (n : Nat) (i : Instr) : EncodesTo n (some i) ↔ encodeNat i = some n :=
  ⟨fun h => h i rfl, fun h _ hi => Option.some.inj hi ▸ h⟩

theorem encodesTo_ite (n : Nat) (c : Prop) [Decidable c] (a b : Option Instr) :
    EncodesTo n (if c then a else b) ↔ (¬c ∨ EncodesTo n a) ∧ (c ∨ EncodesTo n b) := by
  split <;> simp [*]

theorem encodesTo_decodeControl {lo n : Nat} (h : n / 2 ^ 24 = 0 * 16 + lo) : EncodesTo n (decodeControl lo n) := by
  unfold decodeControl
  split <;> simp [↓encodesTo_ite, encodeNat, bits] <;> omega

theorem encodesTo_decodeMasks {lo n : Nat} (h : n / 2 ^ 24 = 1 * 16 + lo) : EncodesTo n (decodeMasks lo n) := by
  unfold decodeMasks
  split <;> simp [↓encodesTo_ite, encodeNat, bits] <;> omega

theorem encodesTo_decodeIntegerA {lo n : Nat} (h : n / 2 ^ 24 = 2 * 16 + lo) : EncodesTo n (decodeIntegerA lo n) := by
  unfold decodeIntegerA
  split <;> simp [↓encodesTo_ite, encodeNat, bits] <;> omega

theorem encodesTo_decodeIntegerB {lo n : Nat} (h : n / 2 ^ 24 = 3 * 16 + lo) : EncodesTo n (decodeIntegerB lo n) := by
  unfold decodeIntegerB
  split <;> simp [↓encodesTo_ite, encodeNat, bits] <;> omega

theorem encodesTo_decodeCompare {lo n : Nat} (h : n / 2 ^ 24 = 4 * 16 + lo) : EncodesTo n (decodeCompare lo n) := by
  unfold decodeCompare
  split <;> simp [↓encodesTo_ite, encodeNat, bits] <;> omega

theorem encodesTo_decodeFloat {lo n : Nat} (h : n / 2 ^ 24 = 5 * 16 + lo) : EncodesTo n (decodeFloat lo n) := by
  unfold decodeFloat
  split <;> simp [↓encodesTo_ite, encodeNat, bits] <;> omega

theorem encodesTo_decodeConversion {lo n : Nat} (h : n / 2 ^ 24 = 6 * 16 + lo) : EncodesTo n (decodeConversion lo n) := by
  unfold decodeConversion
  split <;> simp [↓encodesTo_ite, encodeNat, bits] <;> omega

theorem encodesTo_decodeLanes {lo n : Nat} (h : n / 2 ^ 24 = 7 * 16 + lo) : EncodesTo n (decodeLanes lo n) := by
  unfold decodeLanes
  split <;> simp [↓encodesTo_ite, encodeNat, bits] <;> omega

theorem encodesTo_decodeMatrix {lo n : Nat} (h : n / 2 ^ 24 = 8 * 16 + lo) : EncodesTo n (decodeMatrix lo n) := by
  unfold decodeMatrix
  split <;> simp [↓encodesTo_ite, encodeNat, bits] <;> omega

theorem encodesTo_decodePorts {lo n : Nat} (h : n / 2 ^ 24 = 9 * 16 + lo) : EncodesTo n (decodePorts lo n) := by
  unfold decodePorts
  split <;> simp [↓encodesTo_ite, encodeNat, bits] <;> omega

theorem encodesTo_decodeScratchpad {lo n : Nat} (h : n / 2 ^ 24 = 10 * 16 + lo) : EncodesTo n (decodeScratchpad lo n) := by
  unfold decodeScratchpad
  split <;> simp [↓encodesTo_ite, encodeNat, bits] <;> omega

theorem encodesTo_decodeGlobal {lo n : Nat} (h : n / 2 ^ 24 = 11 * 16 + lo) : EncodesTo n (decodeGlobal lo n) := by
  unfold decodeGlobal
  split <;> simp [↓encodesTo_ite, encodeNat, bits] <;> omega

theorem encodesTo_decodeFences {lo n : Nat} (h : n / 2 ^ 24 = 12 * 16 + lo) : EncodesTo n (decodeFences lo n) := by
  unfold decodeFences
  split <;> simp [↓encodesTo_ite, encodeNat, bits] <;> omega

theorem encodesTo_decodeTasks {lo n : Nat} (h : n / 2 ^ 24 = 13 * 16 + lo) : EncodesTo n (decodeTasks lo n) := by
  unfold decodeTasks
  split <;> simp [↓encodesTo_ite, encodeNat, bits] <;> omega

theorem encodesTo_decodeSystem {lo n : Nat} (h : n / 2 ^ 24 = 14 * 16 + lo) : EncodesTo n (decodeSystem lo n) := by
  unfold decodeSystem
  split <;> simp [↓encodesTo_ite, encodeNat, bits] <;> omega

theorem encodesTo_decodePrefixes {lo n : Nat} (h : n / 2 ^ 24 = 15 * 16 + lo) : EncodesTo n (decodePrefixes lo n) := by
  unfold decodePrefixes
  split <;> simp [↓encodesTo_ite, encodeNat, bits] <;> omega

/-- Each group's words encode back; the opcode's high digit names the group. -/
theorem encodesTo_decodeWord (w : Half) : EncodesTo w.toNat (decodeWord w) := by
  have digits (hi : Nat) (h : bits w.toNat 28 4 = hi) : w.toNat / 2 ^ 24 = hi * 16 + bits w.toNat 24 4 := by
    have := w.isLt
    unfold bits at h ⊢
    omega
  unfold decodeWord
  dsimp only
  split
  next h => exact encodesTo_decodeControl (digits 0 h)
  next h => exact encodesTo_decodeMasks (digits 1 h)
  next h => exact encodesTo_decodeIntegerA (digits 2 h)
  next h => exact encodesTo_decodeIntegerB (digits 3 h)
  next h => exact encodesTo_decodeCompare (digits 4 h)
  next h => exact encodesTo_decodeFloat (digits 5 h)
  next h => exact encodesTo_decodeConversion (digits 6 h)
  next h => exact encodesTo_decodeLanes (digits 7 h)
  next h => exact encodesTo_decodeMatrix (digits 8 h)
  next h => exact encodesTo_decodePorts (digits 9 h)
  next h => exact encodesTo_decodeScratchpad (digits 10 h)
  next h => exact encodesTo_decodeGlobal (digits 11 h)
  next h => exact encodesTo_decodeFences (digits 12 h)
  next h => exact encodesTo_decodeTasks (digits 13 h)
  next h => exact encodesTo_decodeSystem (digits 14 h)
  next h => exact encodesTo_decodePrefixes (digits 15 h)
  next => exact encodesTo_none _

/-- Settles O55: a word's number is the sum of its fields, and decoding checks the reserved ones. -/
theorem wordsAreUnique : Obligations.WordsAreUnique := by
  intro w i h
  rw [encode, encodesTo_decodeWord w i h]
  simp

end Sys2Proof

/-! The checks of a slot (02 R50): each fails with its trap exactly where its condition holds, and the first one decides. -/
namespace Sys2Proof.Machine

/-- The check fails with a trap of the code where the condition holds, and passes elsewhere. -/
def Guards (code : Nat) (c : Prop) (x : Except Stop Unit) : Prop :=
  (c → ∃ r : Trap, x = .error (.trap r) ∧ r.code = code) ∧ (¬c → x = .ok ())

namespace Guards
variable {code : Nat} {c d : Prop} {x y : Except Stop Unit}

theorem congr (h : Guards code c x) (e : c ↔ d) : Guards code d x := propext e ▸ h

/-- A check that fails decides, whatever comes after it. -/
theorem fails (h : Guards code c x) (hc : c) : ∃ r : Trap, (x >>= fun _ => y) = .error (.trap r) ∧ r.code = code := by
  obtain ⟨r, rfl, hr⟩ := h.1 hc
  exact ⟨r, rfl, hr⟩

/-- A check that passes leaves it to the next. -/
theorem passes (h : Guards code c x) (hc : ¬c) : (x >>= fun _ => y) = y := by
  rw [h.2 hc]
  rfl

/-- Two checks with one code are one check. -/
theorem or (h : Guards code c x) (k : Guards code d y) : Guards code (c ∨ d) (x >>= fun _ => y) := by
  by_cases hc : c
  · exact ⟨fun _ => h.fails hc, fun hn => absurd (.inl hc) hn⟩
  · rw [h.passes hc]
    exact k.congr (by simp [hc])

end Guards

theorem guards_trapIf (b : Bool) (r : Trap) : Guards r.code (b = true) (trapIf b r) := by
  cases b
  · exact ⟨nofun, fun _ => rfl⟩
  · exact ⟨fun _ => ⟨r, rfl, rfl⟩, fun h => absurd rfl h⟩

/-- A check that looks for the first element of a list with a property, and raises its trap for what it finds. -/
theorem guards_find {α : Type} {code : Nat} {xs : List α} {p : α → Bool} {x : Except Stop Unit}
    (found : ∀ a, xs.find? p = some a → ∃ r : Trap, x = .error (.trap r) ∧ r.code = code)
    (missed : xs.find? p = none → x = .ok ()) : Guards code (∃ a ∈ xs, p a = true) x := by
  constructor
  · intro h
    obtain ⟨a, ha⟩ := Option.isSome_iff_exists.mp (List.find?_isSome.mpr h)
    exact found a ha
  · intro h
    exact missed (List.find?_eq_none.mpr fun a ha hp => h ⟨a, ha, hp⟩)

/-- STALE_LATCH (02 R59). -/
theorem guards_staleCheck (t : Seat) (uni : Bool) (srcs : List Src) :
    Guards 0x05 (∃ a ∈ srcs, ∃ k, a.latch = some k ∧ t.latchBad uni k = true) (staleCheck t uni srcs) := by
  unfold staleCheck
  refine (guards_find (xs := srcs.filterMap Src.latch) (p := t.latchBad uni) (fun k h => ?_) fun h => ?_).congr ?_
  · rw [h]
    exact ⟨_, rfl, rfl⟩
  · rw [h]
  · simp only [List.mem_filterMap]
    tauto

/-- DEAD_REG (02 R62). -/
theorem guards_deadCheck (t : Seat) (uni : Bool) (srcs : List (Src × Word)) :
    Guards 0x06 (t.deadTrap = true ∧ ∃ x ∈ srcs, t.deadIn uni x.2 x.1 ≠ 0) (deadCheck t uni srcs) := by
  unfold deadCheck
  cases t.deadTrap
  case false => exact ⟨fun h => absurd h.1 nofun, fun _ => rfl⟩
  case true =>
    refine (guards_find (xs := srcs) (p := fun x => !decide (t.deadIn uni x.2 x.1 = 0)) (fun x h => ?_) fun h => ?_).congr ?_
    · simp only [Bool.not_true, h]
      exact ⟨_, rfl, rfl⟩
    · simp only [Bool.not_true, h]
      rfl
    · simp

/-- POISON of a register or latch (14 R346). -/
theorem guards_poisCheck (t : Seat) (uni : Bool) (srcs : List (Src × Word)) :
    Guards 0x18 (∃ x ∈ srcs, t.poisIn uni x.2 x.1 ≠ 0) (poisCheck t uni srcs) := by
  unfold poisCheck
  refine (guards_find (xs := srcs) (p := fun x => !decide (t.poisIn uni x.2 x.1 = 0)) (fun x h => ?_) fun h => ?_).congr ?_
  · rw [h]
    exact ⟨_, rfl, rfl⟩
  · rw [h]
  · simp

/-- POISON of a mask register (14 R346). -/
theorem guards_maskPois (t : Seat) (ms : List Nat) :
    Guards 0x18 (∃ n ∈ ms, t.mpois.getLsbD n = true) (maskPois t ms) := by
  unfold maskPois
  refine guards_find (fun n h => ?_) fun h => ?_
  · rw [h]
    exact ⟨_, rfl, rfl⟩
  · rw [h]

/-- The checks that a slot makes without more of its own, one after the other. -/
theorem Seat.check_eq (t : Seat) (sid : Nat) (uni illegal badType port : Bool) (srcs : List (Src × Word)) :
    t.check sid uni illegal badType port srcs = (do
      trapIf (illegal || t.modIllegal || (srcs.map (·.1)).any (Src.illegal uni)) { code := cILLEGAL_OP }
      trapIf (badType || decide (t.ety.toNat ≥ 14)) { code := cILLEGAL_TYPE }
      staleCheck t uni (srcs.map (·.1))
      deadCheck t uni srcs
      trapIf ((port || (srcs.map (·.1)).any Src.isPort) && (decide (sidSeat sid ≠ 0) || !t.bind.ports))
        { code := cPORT_UNBOUND }
      poisCheck t uni srcs
      maskPois t (if uni then [] else t.guardMask)) := rfl

/-- Settles O17: the slot's checks are the guards in their order, each passed on to the next. -/
theorem checksInOrder : Obligations.ChecksInOrder := by
  intro t sid uni illegal badType port srcs a b c d e f raises
  have ha : Guards 0x01 a (trapIf (illegal || t.modIllegal || (srcs.map (·.1)).any (Src.illegal uni))
      { code := cILLEGAL_OP }) := (guards_trapIf _ _).congr (by simp [a, or_assoc])
  have hb : Guards 0x03 b (trapIf (badType || decide (t.ety.toNat ≥ 14)) { code := cILLEGAL_TYPE }) :=
    (guards_trapIf _ _).congr (by simp [b])
  have hc : Guards 0x05 c (staleCheck t uni (srcs.map (·.1))) := (guards_staleCheck t uni _).congr (by simp [c])
  have hd : Guards 0x06 d (deadCheck t uni srcs) := guards_deadCheck t uni srcs
  have he : Guards 0x1C e (trapIf ((port || (srcs.map (·.1)).any Src.isPort) && (decide (sidSeat sid ≠ 0) || !t.bind.ports))
      { code := cPORT_UNBOUND }) := (guards_trapIf _ _).congr (by
        simp only [Bool.and_eq_true, Bool.or_eq_true, decide_eq_true_eq]; simp [e, sidSeat])
  have hf : Guards 0x18 f (do poisCheck t uni srcs; maskPois t (if uni then [] else t.guardMask)) :=
    ((guards_poisCheck t uni srcs).or (guards_maskPois t _)).congr (by cases uni <;> simp [f])
  have hcheck := t.check_eq sid uni illegal badType port srcs
  refine ⟨fun h => ?_, fun na h => ?_, fun na nb h => ?_, fun na nb nc h => ?_, fun na nb nc nd h => ?_,
    fun na nb nc nd ne h => ?_, fun na nb nc nd ne nf => ?_⟩
  · simp only [raises, hcheck]; exact ha.fails h
  · simp only [raises, hcheck, ha.passes na]; exact hb.fails h
  · simp only [raises, hcheck, ha.passes na, hb.passes nb]; exact hc.fails h
  · simp only [raises, hcheck, ha.passes na, hb.passes nb, hc.passes nc]; exact hd.fails h
  · simp only [raises, hcheck, ha.passes na, hb.passes nb, hc.passes nc, hd.passes nd]; exact he.fails h
  · simp only [raises, hcheck, ha.passes na, hb.passes nb, hc.passes nc, hd.passes nd, he.passes ne]; exact hf.1 h
  · rw [hcheck, ha.passes na, hb.passes nb, hc.passes nc, hd.passes nd, he.passes ne, hf.2 nf]

end Sys2Proof.Machine

/-! What a source code reads (02 R53), as SourcesRead writes the codes: `Src` is LU, L and n, in this order, so that the
bit left free beside `n` is L, which tells registers from the codes 32 to 63, and not LU. -/
namespace Sys2Proof.Machine

/-- Code 38 in a lane slot reads the number of the lane (02 R53). -/
theorem State.srcLane_laneNumber (s : State) (t : Seat) (np : Lanes Word) (k l : Nat) (lu : Bool) :
    s.srcLane t false np k ⟨lu, true, 6⟩ l = BitVec.ofNat 64 l := rfl

/-- Refutes O18: its first clause, meant for the codes of x0 to x30, is claimed for codes 32 to 62 too. In lane 1 of a lane
slot code 38 reads 1, while x6 of a blank seat, which is not dead, holds 0 there. -/
theorem not_sourcesRead : ¬Obligations.SourcesRead := by
  intro h
  obtain ⟨⟨codes, -⟩, -⟩ := h
  obtain ⟨laneRegister, -⟩ := codes State.reset Seat.blank (vrep 64 0) 0 1 6 true (by decide)
  have hread := laneRegister (by decide) (by decide)
  rw [State.srcLane_laneNumber] at hread
  exact absurd hread (by decide)

end Sys2Proof.Machine

/-! No instruction is refused, and where a seat holds a row none stops the machine (02 R68; 11 R281). -/
namespace Sys2Proof.Machine

/-! ### What an instruction can come to -/

/-- The machine goes on to a next state. -/
def Advances (o : Host.Outcome State Fault Refusal) : Prop := ∃ u, o = .next u

/-- How a slot's body ends, the machine goes on: a stop leads to a state too. -/
theorem advances_close (s : State) (sid : Nat) (x : Except Stop State) : Advances (s.close sid x) := by
  cases x <;> exact ⟨_, rfl⟩

/-- The outcome of a slot of the seat whose slot moves (02 R46), which stops the machine where that seat holds no row: `x`
is how the slot's body ends. -/
def RunsSlot (s : State) (o : Host.Outcome State Fault Refusal) : Prop :=
  ∃ x, o = if s.now.resident = true then s.close s.cur x else .fault (.noSeat s.cur)

theorem RunsSlot.outcome {s : State} {o : Host.Outcome State Fault Refusal} (h : RunsSlot s o) :
    Advances o ∨ s.now.resident = false ∧ o = .fault (.noSeat s.cur) := by
  obtain ⟨x, rfl⟩ := h
  cases s.now.resident
  · exact .inr ⟨rfl, rfl⟩
  · exact .inl (advances_close s s.cur x)

/-- Every word's meaning is a slot's run. -/
theorem runsSlot_of_word {i : Instr} {w : Half} (h : encode i = some w) (s : State) : RunsSlot s (exec i s) := by
  cases i <;> cases h
  all_goals exact ⟨_, rfl⟩

/-- So is the meaning of a word that no encoding matches (02 R68). -/
theorem runsSlot_unassigned (w : Half) (s : State) : RunsSlot s (exec (.unassignedOpcode w) s) := ⟨_, rfl⟩

/-- Every step of the module goes on, whatever its conditions: those that split on one are unfolded to their branches. -/
theorem advances_of_step {i : Instr} (h : encode i = none) (hu : ∀ w, i ≠ .unassignedOpcode w) (s : State) :
    Advances (exec i s) := by
  unfold exec
  cases i <;> cases h
  case unassignedOpcode w => exact absurd rfl (hu w)
  all_goals try exact ⟨_, rfl⟩
  all_goals simp only [execForcedIssue, execFaddxContribution, execFaddxWaitReport, execFeedEntryPush, execRelease, execLanded,
    execCopyFaultResume, execLaunchAccept, execLaunchPlace, execBridleFaultResume, execSpawnBinTimer,
    execPendingRowPlace, execSeatRelease, execPreemptSeatStop, execPreemptDeadline, execPreemptDrainEnd,
    execDieResetForce, execTuComplete, execApplyDone, execRetireSwitch, execSramUe, execUvTrial, execUvAbort,
    execControlNodeAccess, execPeerAccessInbound, execControlInterval, execDroopTrip, execCoolantFault,
    execCoolantFaultClear, execThermalTrip, execPowerGood, execFirmwareReload, execOpen, execClose, execQuote,
    execIdentityQuery, execFlitCrcError, execLinkTrained, execTrialPassed, execDieRejoin, execNewValuesApply]
  all_goals repeat' split
  all_goals exact ⟨_, rfl⟩

/-- An instruction goes on, or it is a word on a seat that holds no row. -/
theorem exec_outcome (i : Instr) (s : State) :
    Advances (exec i s) ∨ s.now.resident = false ∧ exec i s = .fault (.noSeat s.cur) := by
  cases hi : encode i with
  | some w => exact (runsSlot_of_word hi s).outcome
  | none =>
    by_cases hu : ∃ w, i = .unassignedOpcode w
    · obtain ⟨w, rfl⟩ := hu
      exact (runsSlot_unassigned w s).outcome
    · exact .inl (advances_of_step hi (fun w hw => hu ⟨w, hw⟩) s)

theorem exec_advances_of_resident (i : Instr) {s : State} (hr : s.now.resident = true) : Advances (exec i s) := by
  rcases exec_outcome i s with h | ⟨hn, -⟩
  · exact h
  · rw [hr] at hn
    cases hn

/-! ### A seat's slot -/

@[simp] theorem State.fillCode_cur (s : State) (core va pa : Nat) : (s.fillCode core va pa).cur = s.cur := by
  unfold State.fillCode State.makeCodeRoom
  dsimp only
  split <;> rfl

/-- Reading a bundle leaves it to the same seat to move (07 R200). -/
theorem State.readBundle_cur {s s1 : State} {p core : Nat} {pc : Word} {b : Vector Half 4}
    (h : s.readBundle p core pc = .ok (b, s1)) : s1.cur = s.cur := by
  unfold State.readBundle at h
  dsimp only at h
  repeat' split at h
  all_goals cases h
  · rfl
  · rfl
  · exact State.fillCode_cur _ core _ _

theorem State.resident_setSeat (s : State) (k : Nat) {t : Seat} (h : t.resident = true) :
    ((s.setSeat k t).seat k).resident = true := by
  rw [State.seat_setSeat_self _ _ h]
  exact h

/-- The bundle in hand, the seat holds a row as before. -/
theorem State.inHand_resident {s s1 : State} {sid : Nat} (h : s.inHand sid = .ok s1)
    (hr : (s.seat sid).resident = true) : s1.cur = s.cur ∧ (s1.seat sid).resident = true := by
  unfold State.inHand at h
  split at h
  · cases h
    exact ⟨rfl, hr⟩
  · unfold State.fetch at h
    dsimp only at h
    split at h
    · cases h
    · next b s2 hb =>
      repeat' split at h
      all_goals cases h
      have hc : s2.cur = s.cur := State.readBundle_cur hb
      exact ⟨hc, State.resident_setSeat s2 sid hr⟩

theorem State.runSlot_advances (s : State) (sid : Nat) : Advances (s.runSlot sid) := by
  unfold State.runSlot
  dsimp only
  split
  · exact ⟨_, rfl⟩
  · next hready =>
    split
    · exact ⟨_, rfl⟩
    · next s1 hs1 =>
      have hstatus : (s.seat sid).status = .ready := not_not.mp hready
      have hr : (s.seat sid).resident = true := by simp [Seat.resident, hstatus]
      obtain ⟨hc, hr1⟩ := State.inHand_resident hs1 hr
      have hnow : s1.now.resident = true := by
        unfold State.now
        rw [hc]
        exact hr1
      obtain ⟨u, hu⟩ := exec_advances_of_resident (wordInstr (s1.seat sid).word) hnow
      unfold State.runWord
      dsimp only
      rw [hu]
      exact ⟨_, rfl⟩

/-- What is prepared is a slot's run, or nothing is done. -/
theorem State.prepare_advances (s : State) (sid : Nat) : Advances (s.prepare sid) := by
  unfold State.prepare
  split
  · obtain ⟨u, hu⟩ := s.runSlot_advances sid
    rw [hu]
    exact ⟨_, rfl⟩
  · exact ⟨_, rfl⟩

/-- Settles O58: a slot runs on a seat that holds a row, and what is no word goes on. -/
theorem nothingStops : Obligations.NothingStops := by
  refine ⟨fun i s r h => ?refused, fun i s f h => ?faults, fun s hw => ?step⟩
  case refused =>
    rcases exec_outcome i s with ⟨u, hu⟩ | ⟨-, hf⟩
    · rw [hu] at h; cases h
    · rw [hf] at h; cases h
  case faults =>
    rcases exec_outcome i s with ⟨u, hu⟩ | ⟨hr, hf⟩
    · rw [hu] at h; cases h
    · rw [hf] at h; cases h
      exact ⟨rfl, hr⟩
  case step =>
    unfold step
    split
    · exact ⟨_, rfl⟩
    · next a rest ha =>
      cases a with
      | issue sid => exact State.runSlot_advances _ sid
      | prepare sid => exact State.prepare_advances _ sid
      | event i =>
        obtain ⟨hi, hu⟩ := hw i (by rw [ha]; rfl)
        exact advances_of_step hi hu _
      | clock core => exact ⟨_, rfl⟩
      | gauge core => exact ⟨_, rfl⟩
      | select core => exact ⟨_, rfl⟩
      | env e => exact ⟨_, rfl⟩

end Sys2Proof.Machine

/-! A fetched bundle whose control word sets BRKB (02 R47), of which StepRunsSlot's hypothesis speaks too early: it asks for
the bit of the bundle in hand before the fetch, and there is none. -/
namespace Sys2Proof.Machine

/-- A bundle of NOPs whose control word sets BRKB, bit 17, and nothing else beside its mark (02 R44). -/
def brkbBundle : Vector Half 4 := tab 4 (fun i => if i = 0 then 0xB0020000 else 0)

/-- The line of bundles that begins with it. -/
def brkbLine : Vector Half 32 := tab 32 (fun i => if i = 0 then 0xB0020000 else 0)

/-- A row on seat 0 at the bundle at address 0, with the line in its core's instruction cache and no bundle in hand. -/
def brkbState : State :=
  let s := (State.reset.setSeat 0 { Seat.blank with status := .ready }).setCore 0
    { CoreUnit.reset with icache := [(0, some brkbLine)] }
  { s with agenda := [.issue 0] }

/-- The slot at which seat 0 stands once the machine has moved. -/
def slotAfter : Host.Outcome State Fault Refusal → Nat
  | .next u => (u.seat 0).slot
  | _ => 0

/-- 02 R47, 14 R340: the step raises BRK at the bundle, and the handler begins at slot 1. -/
theorem slotAfter_step_brkbState : slotAfter (step brkbState) = 1 := by decide

/-- Refutes O56: the clause of a bundle found in the instruction cache holds for a bundle with BRKB too, for `t.brkb` is
false while `t` has no bundle in hand. Slot 1's NOP would run and leave the seat at slot 2; the step raises BRK. -/
theorem not_stepRunsSlot : ¬Obligations.StepRunsSlot := by
  intro h
  obtain ⟨issue, -⟩ := h brkbState []
  obtain ⟨-, ready⟩ := issue 0 rfl
  obtain ⟨-, fetched⟩ := ready (by decide) brkbBundle .nop (.inl (by decide))
  obtain ⟨cached, -⟩ := fetched rfl (by decide) (by decide) (.inl rfl)
  have hstep := cached brkbLine rfl (by decide)
  have hslot := congrArg slotAfter hstep
  rw [slotAfter_step_brkbState] at hslot
  exact absurd hslot (by decide)

end Sys2Proof.Machine

/-! Bytes of memory as a function of the address: what is read, stored and loaded (00 R6; 09 R237). -/
namespace Sys2Proof.Machine

/-! ### Bytes stored -/

theorem two_pow_eight_mul (n : Nat) : 2 ^ (8 * n) = 256 ^ n := by
  rw [Nat.pow_mul]

theorem storeBytes_outside {m : Nat → Byte} {a n v x : Nat} (h : x < a ∨ a + n ≤ x) : storeBytes m a n v x = m x := by
  unfold storeBytes
  rw [if_neg (by omega)]

theorem storeBytes_inside {m : Nat → Byte} {a n v x : Nat} (h : a ≤ x) (h' : x < a + n) :
    storeBytes m a n v x = BitVec.ofNat 8 (v / 2 ^ (8 * (x - a))) := by
  unfold storeBytes
  rw [if_pos ⟨h, h'⟩]

/-- A memory read and written is a read and a store of its bytes. -/
theorem Memory.read_eq_readBytes (m : Memory) : ∀ (n a : Nat), m.read a n = readBytes m.byte a n
  | 0, _ => rfl
  | n + 1, a => by rw [Memory.read, readBytes, Memory.read_eq_readBytes m n]

theorem Memory.byte_write {m : Memory} (h : m.wf = true) (a n v : Nat) : (m.write a n v).byte = storeBytes m.byte a n v := by
  funext x
  by_cases hx : a ≤ x ∧ x < a + n
  · obtain ⟨i, rfl⟩ := Nat.exists_eq_add_of_le hx.1
    rw [Memory.byte_write_inside n a v i h (by omega), storeBytes_inside hx.1 hx.2, Nat.add_sub_cancel_left,
      two_pow_eight_mul]
  · rw [Memory.byte_write_outside n m a v x (by omega), storeBytes_outside (by omega)]

theorem Memory.byte_writes {m : Memory} (h : m.wf = true) (ws : List (Nat × Nat × Nat)) :
    (ws.foldl (fun m w => Memory.write m w.1 w.2.1 w.2.2) m).byte =
      ws.foldl (fun f w => storeBytes f w.1 w.2.1 w.2.2) m.byte := by
  induction ws generalizing m with
  | nil => rfl
  | cons w ws ih => rw [List.foldl_cons, List.foldl_cons, ih (Memory.wf_write _ _ _ h), Memory.byte_write h]

/-- HBM read and written is the same of its bytes, whatever its stacks were filled with. -/
theorem State.hread_eq_readBytes (s : State) : ∀ (n a : Nat), s.hread a n = readBytes s.hbyte a n
  | 0, _ => rfl
  | n + 1, a => by rw [State.hread, readBytes, State.hread_eq_readBytes s n]

theorem State.hbyte_hput {s : State} (h : s.hbm.wf = true) (a : Nat) (b : Byte) :
    (s.hput a b).hbyte = fun x => if x = a then b else s.hbyte x := by
  funext x
  show (s.hbm.put a (b ^^^ s.fill a)).byte x ^^^ s.fill x = _
  by_cases hx : x = a
  · subst hx
    rw [if_pos rfl, Memory.byte_put_self _ _ _ h, BitVec.xor_assoc, BitVec.xor_self, BitVec.xor_zero]
  · rw [if_neg hx, Memory.byte_put_ne _ _ hx]
    rfl

theorem State.hwrite_rest (s : State) (a n v : Nat) : s.hwrite a n v = { s with hbm := (s.hwrite a n v).hbm } := by
  induction n generalizing s a v with
  | zero => rfl
  | succ n ih => exact ih _ _ _

theorem State.hbyte_hwrite {s : State} (h : MemOk s) (a n v : Nat) :
    (s.hwrite a n v).hbyte = storeBytes s.hbyte a n v := by
  induction n generalizing s a v with
  | zero =>
    funext x
    rw [storeBytes_outside (by omega)]
    rfl
  | succ n ih =>
    have hput : MemOk (s.hput a (BitVec.ofNat 8 v)) := ⟨h.1, Memory.wf_put _ _ h.2⟩
    rw [State.hwrite, ih hput, State.hbyte_hput h.2]
    funext x
    by_cases hx : a + 1 ≤ x ∧ x < a + (n + 1)
    · rw [storeBytes_inside hx.1 (by omega), storeBytes_inside (by omega) hx.2, Nat.div_div_eq_div_mul,
        show 256 = 2 ^ 8 from rfl, ← Nat.pow_add, show 8 + 8 * (x - (a + 1)) = 8 * (x - a) by omega]
    · rw [storeBytes_outside (by omega)]
      by_cases ha : x = a
      · rw [if_pos ha, storeBytes_inside (by omega) (by omega), ha, Nat.sub_self, Nat.mul_zero, Nat.pow_zero, Nat.div_one]
      · rw [if_neg ha, storeBytes_outside (by omega)]

/-! ### Bytes read back -/

theorem readBytes_lt (m : Nat → Byte) : ∀ (n a : Nat), readBytes m a n < 2 ^ (8 * n)
  | 0, _ => by simp [readBytes]
  | n + 1, a => by
    have ih := readBytes_lt m n (a + 1)
    have hb := (m a).isLt
    rw [readBytes, Nat.mul_succ, Nat.pow_add, Nat.mul_comm]
    omega

theorem readBytes_congr {m m' : Nat → Byte} : ∀ {n a : Nat}, (∀ x, a ≤ x → x < a + n → m x = m' x) →
    readBytes m a n = readBytes m' a n
  | 0, _, _ => rfl
  | n + 1, a, h => by
    rw [readBytes, readBytes, h a (by omega) (by omega), readBytes_congr fun x hx hx' => h x (by omega) (by omega)]

/-- Byte `j` of what is read is the byte `j` further on. -/
theorem readBytes_byte (m : Nat → Byte) : ∀ (n a : Nat) {j : Nat}, j < n →
    BitVec.ofNat 8 (readBytes m a n / 2 ^ (8 * j)) = m (a + j)
  | 0, _, _, h => absurd h (by omega)
  | n + 1, a, 0, _ => by
    apply BitVec.eq_of_toNat_eq
    have hb := (m a).isLt
    rw [readBytes, Nat.mul_zero, Nat.pow_zero, Nat.div_one, BitVec.toNat_ofNat, Nat.add_mul_mod_self_left,
      Nat.mod_eq_of_lt hb]
    rfl
  | n + 1, a, j + 1, h => by
    have hb := (m a).isLt
    rw [readBytes, Nat.mul_succ, Nat.add_comm (8 * j), Nat.pow_add, ← Nat.div_div_eq_div_mul,
      Nat.add_mul_div_left _ _ (by omega), Nat.div_eq_of_lt hb, Nat.zero_add, readBytes_byte m n (a + 1) (by omega)]
    congr 1
    omega

theorem readBytes_storeBytes (m : Nat → Byte) (a n v : Nat) : readBytes (storeBytes m a n v) a n = v % 2 ^ (8 * n) := by
  suffices h : ∀ n k a v (m : Nat → Byte), k + n = a + n → (∀ i, i < n → m (k + i) = BitVec.ofNat 8 (v / 2 ^ (8 * i))) →
      readBytes m k n = v % 2 ^ (8 * n) from
    h n a a v _ rfl fun i hi => by rw [storeBytes_inside (by omega) (by omega), Nat.add_sub_cancel_left]
  clear m a n v
  intro n
  induction n with
  | zero => intro k a v m _ _; simp [readBytes, Nat.mod_one]
  | succ n ih =>
    intro k a v m hk h
    have h0 := h 0 (by omega)
    rw [Nat.add_zero, Nat.mul_zero, Nat.pow_zero, Nat.div_one] at h0
    rw [readBytes, h0, ih (k + 1) (a + 1) (v / 256) m (by omega) fun i hi => by
      rw [show k + 1 + i = k + (i + 1) by omega, h (i + 1) (by omega), Nat.div_div_eq_div_mul, show 256 = 2 ^ 8 from rfl,
        ← Nat.pow_add, Nat.mul_succ, Nat.add_comm 8]]
    rw [BitVec.toNat_ofNat, Nat.mul_succ, Nat.add_comm (8 * n), Nat.pow_add, Nat.mod_mul]

/-- A store beside what is read changes nothing of it. -/
theorem readBytes_storeBytes_disjoint (m : Nat → Byte) {a n v k j : Nat} (h : k + j ≤ a ∨ a + n ≤ k) :
    readBytes (storeBytes m a n v) k j = readBytes m k j :=
  readBytes_congr fun x hx hx' => storeBytes_outside (by omega)

/-! ### Elements loaded -/

/-- The bits of a number below a width, and above it where its sign is extended (00 R6). -/
theorem getLsbD_extend {n x : Nat} (sg : Bool) (h0 : 0 < n) (h8 : n ≤ 8) (hx : x < 2 ^ (8 * n)) (j : Nat) (hj : j < 64) :
    (extend sg n x).getLsbD j = if j < 8 * n then x.testBit j else sg && x.testBit (8 * n - 1) := by
  have hsplit : 2 ^ 64 = 2 ^ (8 * n) * 2 ^ (64 - 8 * n) := by rw [← Nat.pow_add]; congr 1; omega
  have hlow : ∀ i, 8 * n ≤ i → x.testBit i = false := fun i hi =>
    Nat.testBit_lt_two_pow (Nat.lt_of_lt_of_le hx (Nat.pow_le_pow_right (by omega) hi))
  have htop : decide (2 ^ (8 * n - 1) ≤ x) = x.testBit (8 * n - 1) := by
    by_cases h : 2 ^ (8 * n - 1) ≤ x
    · rw [decide_eq_true h]
      refine (Nat.testBit_of_two_pow_le_and_two_pow_add_one_gt h ?_).symm
      rwa [show 8 * n - 1 + 1 = 8 * n by omega]
    · rw [decide_eq_false h, Nat.testBit_lt_two_pow (by omega)]
  unfold extend ival
  rw [Nat.mod_eq_of_lt hx]
  by_cases hneg : sg = true ∧ 2 ^ (8 * n - 1) ≤ x
  · rw [if_pos hneg]
    have htoNat : (BitVec.ofInt 64 ((x : Int) - (2 ^ (8 * n) : Nat))).toNat = 2 ^ (8 * n) * (2 ^ (64 - 8 * n) - 1) + x := by
      have hle : 2 ^ (8 * n) ≤ 2 ^ 64 := Nat.pow_le_pow_right (by omega) (by omega)
      rw [BitVec.toNat_ofInt, Nat.mul_sub_one, ← hsplit]
      have : ((x : Int) - (2 ^ (8 * n) : Nat)) % (2 ^ 64 : Nat) = ((2 ^ 64 - 2 ^ (8 * n) + x : Nat) : Int) := by
        rw [← Int.add_emod_right, Int.emod_eq_of_lt] <;> omega
      rw [this]
      omega
    rw [BitVec.getLsbD, htoNat, Nat.testBit_two_pow_mul_add _ hx]
    split
    · rfl
    · rw [Nat.testBit_two_pow_sub_one, hneg.1, ← htop, decide_eq_true hneg.2]
      simp
      omega
  · rw [if_neg hneg]
    have hlt : x < 2 ^ 64 := Nat.lt_of_lt_of_le hx (Nat.pow_le_pow_right (by omega) (by omega))
    have htoNat : (BitVec.ofInt 64 (x : Int)).toNat = x := by
      rw [BitVec.ofInt_natCast, BitVec.toNat_ofNat, Nat.mod_eq_of_lt hlt]
    rw [BitVec.getLsbD, htoNat]
    split
    · rfl
    · rw [hlow j (by omega), ← htop]
      cases sg
      · rfl
      · rw [decide_eq_false fun h => hneg ⟨rfl, h⟩]
        rfl

/-- An extended number is loaded from its bytes. -/
theorem loaded_extend {n x : Nat} (sg : Bool) (h0 : 0 < n) (h8 : n ≤ 8) (hx : x < 2 ^ (8 * n)) :
    Loaded n sg (fun j => BitVec.ofNat 8 (x / 2 ^ (8 * j))) (extend sg n x) := by
  refine ⟨fun j hj => ?_, fun j hj hj' => ?_⟩
  · apply BitVec.eq_of_getLsbD_eq
    intro i hi
    rw [BitVec.getLsbD_extractLsb', getLsbD_extend sg h0 h8 hx _ (by omega), if_pos (by omega), BitVec.getLsbD_ofNat,
      Nat.testBit_div_two_pow, Nat.add_comm i]
  · rw [getLsbD_extend sg h0 h8 hx j hj', getLsbD_extend sg h0 h8 hx _ (by omega), if_neg (by omega), if_pos (by omega)]

theorem Loaded.congr {n : Nat} {sg : Bool} {f g : Nat → Byte} {v : Word} (h : Loaded n sg f v) (hfg : ∀ j, j < n → f j = g j) :
    Loaded n sg g v :=
  ⟨fun j hj => (h.1 j hj).trans (hfg j hj), h.2⟩

/-- What is read from memory, extended, is loaded from there (09 R237). -/
theorem loaded_readBytes (m : Nat → Byte) (a : Nat) {n : Nat} (sg : Bool) (h0 : 0 < n) (h8 : n ≤ 8) :
    Loaded n sg (fun j => m (a + j)) (extend sg n (readBytes m a n)) :=
  (loaded_extend sg h0 h8 (readBytes_lt m n a)).congr fun _ hj => readBytes_byte m n a hj

/-- Eight bytes are a word whichever way they are extended. -/
theorem extend_eight {sg : Bool} {x : Nat} (hx : x < 2 ^ 64) : extend sg 8 x = BitVec.ofNat 64 x := by
  apply BitVec.eq_of_getLsbD_eq
  intro i hi
  rw [getLsbD_extend sg (by omega) (by omega) hx i hi, if_pos (by omega), BitVec.getLsbD_ofNat, decide_eq_true hi,
    Bool.true_and]

end Sys2Proof.Machine

/-! The run of a memory slot: its checks passed, its operands read, its body at work; and what its reads and its result leave
of the seat, whatever the body has done to the memories in between. -/
namespace Sys2Proof.Machine

/-! ### A slot's frame over another machine -/

/-- What a slot did to its seat, carried over to a machine with the same seats and rows. -/
theorem Slot.rebase {r u r' u' : State} {w : Seat} (h : Slot r u w) (hseats : r'.seats = r.seats) (hrows : r'.rows = r.rows)
    (hcur : r'.cur = r.cur) (hu : u' = { r' with seats := u.seats, rows := u.rows, freeCtr := u'.freeCtr }) :
    Slot r' u' w := by
  have hus : u'.seats = u.seats := by rw [hu]
  have hur : u'.rows = u.rows := by rw [hu]
  have huc : u'.cur = u.cur := by rw [hu, h.cur]; exact hcur
  have hseat : ∀ k, u'.seat k = u.seat k := fun k => by unfold State.seat; rw [hus]
  have hnow : u'.now = u.now := by unfold State.now; rw [hseat, huc]
  have hwin : r'.noWindow ↔ r.noWindow := by unfold State.noWindow State.row; rw [hrows, hcur]
  have hrest : u' = { r' with seats := u'.seats, rows := u'.rows, freeCtr := u'.freeCtr } := by
    rw [hus, hur]
    exact hu
  exact
    { rest := hrest
      bytes := sameBytes_of hrest
      others := fun k hk => by
        rw [hseat, h.others k (hcur ▸ hk)]
        unfold State.seat
        rw [hseats]
      rows := fun hn => by rw [hur, hrows, h.rows (hwin.mp hn)]
      window := fun hn => by
        have := h.window (hwin.mp hn)
        unfold State.noWindow State.row at this ⊢
        rw [hur, huc]
        exact this
      acc := fun hn => by rw [hnow]; exact h.acc (hwin.mp hn)
      seat := by rw [hnow]; exact h.seat }

theorem Holds4.next {s : State} {k : Nat} {l : Vector Latch 4} {p : Vector Word 4} (h : Holds4 s k l p) :
    Holds4 (s.next k) k l p :=
  Holds4.setSeat (by simpa using h.1) (by simpa using h.2.1) (by simpa using h.2.2)

theorem Holds4.afterReads {s : State} {k : Nat} {l : Vector Latch 4} {p : Vector Word 4} (h : Holds4 s k l p) (t : Seat)
    (srcs : List Src) (all : List (Src × Word)) (fl : BitVec 6) (dn : Nat) : Holds4 (s.afterReads k t srcs all fl dn) k l p := by
  have h1 : Holds4 (s.setSeat k (((s.seat k).lastUse t.uniform t.act srcs).orFlags fl)) k l p :=
    Holds4.setSeat (by simpa using h.1) (by rw [Seat.lastUse_eq]; exact h.2.1) (by rw [Seat.lastUse_eq]; exact h.2.2)
  exact h1

theorem Holds4.lats {s : State} {k : Nat} {l : Vector Latch 4} {p : Vector Word 4} (h : Holds4 s k l p) : Lats s k l :=
  ⟨h.1, h.2.1⟩

/-- The seats of another machine, where they are the same. -/
theorem Holds4.congr {s u : State} {k : Nat} {l : Vector Latch 4} {p : Vector Word 4} (h : Holds4 s k l p)
    (hs : u.seats = s.seats) : Holds4 u k l p := by
  unfold Holds4 State.seat at h ⊢
  rw [hs]
  exact h

/-! ### A seat with one field its own -/

@[simp] theorem Seat.orFlags_none (t : Seat) : t.orFlags 0 = t := by simp [Seat.orFlags]

/-- The result of a slot in a register leaves the seat with its row. -/
@[simp] theorem Seat.resident_result (w t : Seat) (d : Dst) (v : Nat → Word) : (w.result t d v).resident = w.resident := by
  unfold Seat.result
  split
  · rfl
  · split <;> simp

/-! ### Reading the ports -/

/-- Where two machines have the same rows, packets and clocks, their north ports offer the same. -/
theorem State.north_congr {s u : State} (hrows : u.rows = s.rows) (hclk : ∀ k, (u.core k).clkc = (s.core k).clkc) (sid : Nat)
    (t : Seat) : u.north sid t = s.north sid t := by
  unfold State.north State.northSlots State.crossingLeft State.row
  rw [hrows, hclk]

theorem State.readNorth_congr {s u r : State} {sid : Nat} {t : Seat} {pop : Bool} {e : PortEntry} (hrows : u.rows = s.rows)
    (hpackets : u.packets = s.packets) (hclk : ∀ k, (u.core k).clkc = (s.core k).clkc)
    (h : s.readNorth sid t pop = .ok (e, r)) : u.readNorth sid t pop = .ok (e, { u with rows := r.rows }) := by
  have hpop : u.popNorth sid t = { u with rows := (s.popNorth sid t).rows } := by
    unfold State.popNorth State.setRow State.feedLeft State.feedDone State.packet State.row
    rw [hrows, hpackets]
    dsimp only
    split <;> rfl
  unfold State.readNorth at h ⊢
  rw [State.north_congr hrows hclk]
  cases hn : s.north sid t with
  | error x => rw [hn] at h; cases h
  | ok v =>
    rw [hn] at h
    cases v with
    | zeros =>
      cases h
      rw [← hrows]
      rfl
    | none => cases h
    | entry x =>
      cases pop
      · cases h
        show Except.ok (e, u) = Except.ok (e, { u with rows := s.rows })
        rw [← hrows]
      · cases h
        simp only [bind, Except.bind, pure, Except.pure, if_true, hpop]

theorem State.readPorts_congr {s u r : State} {sid : Nat} {t : Seat} {srcs : List Src} {e : PortEntry} (hrows : u.rows = s.rows)
    (hpackets : u.packets = s.packets) (hclk : ∀ k, (u.core k).clkc = (s.core k).clkc)
    (h : s.readPorts sid t srcs = .ok (e, r)) : u.readPorts sid t srcs = .ok (e, { u with rows := r.rows }) := by
  unfold State.readPorts at h ⊢
  split at h
  · rw [if_pos ‹_›]
    exact State.readNorth_congr hrows hpackets hclk h
  · rw [if_neg ‹_›]
    cases h
    rw [← hrows]

/-! ### The run -/

/-- What a memory slot's reads make of a machine: its ports and its last uses. -/
def State.slotReads (sid : Nat) (t : Seat) (o : LaneOp) (u : State) : Except Stop State := do
  let (_, u1) ← u.readPorts sid t (o.srcs t)
  return u1.afterReads sid t (o.srcs t) (o.reads t) 0 o.d.dr.toNat

/-- A machine that the slot's body may have come to before the reads: no seat, row, packet or clock is another. -/
structure SameSlots (s u : State) : Prop where
  cur : u.cur = s.cur
  seats : u.seats = s.seats
  rows : u.rows = s.rows
  packets : u.packets = s.packets
  clocks : ∀ k, (u.core k).clkc = (s.core k).clkc

theorem SameSlots.refl (s : State) : SameSlots s s := ⟨rfl, rfl, rfl, rfl, fun _ => rfl⟩

/-- A memory slot that is ready runs its body on the machine as found. -/
theorem LaneReady.mem_run {s r : State} {o : LaneOp} {e : PortEntry} (h : LaneReady s o e r) {f : Seat → LaneOp}
    (hf : f s.now = o) {i : LaneIn} (hi : s.laneIn s.now o e.v = i)
    (body : Nat → Seat → LaneIn → (State → Except Stop State) → Except Stop State) :
    s.mem f body = s.close s.cur (body s.cur s.now i (State.slotReads s.cur s.now o)) := by
  have hp : portPois e s.now.act = .ok () := by
    unfold portPois trapIf
    simp [h.pois]
  have hnow : s.seat s.cur = s.now := rfl
  unfold State.mem State.run
  simp only [hnow, h.resident, if_true, hf, h.check, h.ports, hp, hi, bind, Except.bind]
  rfl

/-- The reads of a slot that is ready, on any machine with its slots. -/
theorem LaneReady.reads {s r u : State} {o : LaneOp} {e : PortEntry} (h : LaneReady s o e r) (hu : SameSlots s u) :
    ∃ v, State.slotReads s.cur s.now o u = .ok v ∧ Slot { u with rows := r.rows } v s.now ∧
      Holds4 v s.cur s.now.lat s.now.latpois := by
  have hports := State.readPorts_congr hu.rows hu.packets hu.clocks h.ports
  have hseat : ({ u with rows := r.rows } : State).now = s.now := by
    unfold State.now State.seat
    rw [show ({ u with rows := r.rows } : State).seats = s.seats from hu.seats,
      show ({ u with rows := r.rows } : State).cur = s.cur from hu.cur]
  have h1 : Slot { u with rows := r.rows } { u with rows := r.rows } s.now := hseat ▸ Slot.refl _
  have h2 : ∀ k, k = u.cur → Slot { u with rows := r.rows }
      (({ u with rows := r.rows } : State).afterReads k s.now (o.srcs s.now) (o.reads s.now) 0 o.d.dr.toNat) s.now := by
    rintro _ rfl
    have := h1.afterReads h.resident s.now (o.srcs s.now) (o.reads s.now) 0 o.d.dr.toNat
    rwa [Seat.orFlags_none] at this
  have hlats : Holds4 { u with rows := r.rows } s.cur s.now.lat s.now.latpois := by
    unfold Holds4 State.seat
    rw [show ({ u with rows := r.rows } : State).seats = s.seats from hu.seats]
    exact ⟨h.resident, rfl, rfl⟩
  refine ⟨_, ?_, h2 _ hu.cur.symm, hlats.afterReads _ _ _ _ _⟩
  unfold State.slotReads
  rw [hports]
  rfl

/-- A slot that is ready accepts its element type, and its fields are legal. -/
theorem LaneReady.accepts {s r : State} {o : LaneOp} {e : PortEntry} (h : LaneReady s o e r) :
    o.badType = false ∧ o.illegal = false := by
  have hcheck := h.check
  unfold State.laneCheck at hcheck
  cases hx : s.now.check s.cur s.now.uniform (o.bad s.now) o.badType (o.d.isSp s.now.uniform)
      (o.reads s.now) (o.second.toList.map (fun n => (true, ⟨false, false, BitVec.ofNat 5 n⟩, 1))) with
  | error e => rw [hx] at hcheck; cases hcheck
  | ok v =>
    obtain ⟨hbad, htype⟩ := Seat.check_ok hx
    unfold LaneOp.bad at hbad
    rw [Bool.or_eq_false_iff, Bool.or_eq_false_iff] at hbad
    exact ⟨htype, hbad.1.1⟩

/-! ### How a load ends -/

/-- The slot is done (02 R45). -/
theorem Slot.next {r u : State} {w : Seat} {k : Nat} (h : Slot r u w) (hk : r.cur = k) (hw : w.resident = true) :
    Slot r (u.next k) w.advance := hk ▸ h.advance hw

/-- The slot is done and its latches are gone (02 R58). -/
theorem Slot.done {r u : State} {w : Seat} {k : Nat} (h : Slot r u w) (hk : r.cur = k) (hw : w.resident = true) :
    Slot r (u.setSeat k (u.seat k).dropLatches.advance) w.advance ∧
      LatchesGone (u.setSeat k (u.seat k).dropLatches.advance) := by
  subst hk
  have hseat := h.seat
  unfold State.now at hseat
  rw [h.cur] at hseat
  have hres : (u.seat r.cur).resident = true := by rw [hseat]; exact hw
  refine ⟨h.setSeat (by simpa using hw) ?_ fun hn => ?_, LatchesGone.of ?_⟩
  · rw [hseat]
    unfold Seat.advance Seat.dropLatches
    dsimp only
    split <;> rfl
  · have hacc := h.acc hn
    unfold State.now at hacc
    rw [h.cur] at hacc
    simpa using hacc
  · unfold State.now
    rw [show (u.setSeat r.cur (u.seat r.cur).dropLatches.advance).cur = r.cur from h.cur,
      State.seat_setSeat_self _ _ (by simpa using hres)]
    simp [Seat.dropLatches]

/-- An acquire takes over the core's write completion time (08 R211). -/
theorem Slot.acquireGwct {r u : State} {w : Seat} {k : Nat} (h : Slot r u w) (hk : r.cur = k) (hw : w.resident = true) :
    Slot r (u.acquireGwct k) { w with gwct := laterGwct (u.core (k / 256)).gwct w.gwct } := by
  subst hk
  exact h.map (fun t => { t with gwct := laterGwct (u.core (r.cur / 256)).gwct t.gwct }) hw
    (fun a l p x d => ⟨l, p, x, d, rfl⟩) rfl

theorem Slot.dropped {r u : State} {w : Seat} {k : Nat} (h : Slot r u w) (hk : r.cur = k) (hw : w.resident = true) :
    Slot r ((u.setSeat k (u.seat k).dropLatches).next k) w.advance ∧
      LatchesGone ((u.setSeat k (u.seat k).dropLatches).next k) := by
  subst hk
  have hseat : (u.seat r.cur).resident = true := by
    have := h.resident
    unfold State.now at this
    rwa [h.cur, hw] at this
  have hgone : Lats (u.setSeat r.cur (u.seat r.cur).dropLatches) r.cur (vrep 4 .invalid) := Lats.setSeat hseat rfl
  refine ⟨(h.dropLatches hw).advance hw, LatchesGone.of ?_⟩
  unfold State.now
  rw [show ((u.setSeat r.cur (u.seat r.cur).dropLatches).next r.cur).cur = r.cur from h.cur]
  exact hgone.next.2

/-- A load's result in its register, the latches gone (09 R237; 02 R58). -/
theorem Slot.putLoad {r u : State} {w : Seat} {k : Nat} (h : Slot r u w) (hk : r.cur = k) (hw : w.resident = true) (t : Seat)
    (d : Dst) (v : Nat → Word) (hd : d.nw = true ∨ t.uniform = true ∨ d.dr.toNat ≠ 31) :
    ∃ u', u.putLoad k t d v = .ok u' ∧ Slot r (u'.next k) (w.result t d v).advance ∧ LatchesGone (u'.next k) := by
  subst hk
  have hstep : ∃ u1, u.putLoad r.cur t d v = .ok (u1.setSeat r.cur (u1.seat r.cur).dropLatches) ∧ Slot r u1 (w.result t d v) := by
    unfold State.putLoad Seat.result
    dsimp only
    cases hn : d.nw
    · cases hu : t.uniform
      · have h31 : d.dr.toNat ≠ 31 := by simpa [hn, hu] using hd
        simp only [Bool.false_eq_true, if_false, h31]
        exact ⟨_, rfl, h.writeX hw _ _ _⟩
      · exact ⟨_, rfl, h.writeS hw _ _⟩
    · cases hu : t.uniform <;> exact ⟨u, rfl, h⟩
  obtain ⟨u1, hu1, h1⟩ := hstep
  exact ⟨_, hu1, h1.dropped rfl (by rw [Seat.resident_result]; exact hw)⟩

/-! ### The element that an access names (09 R236) -/

theorem Seat.fBad_of_takesF {t : Seat} {load : Bool} {f : BitVec 4} (h : t.takesF load f) : t.fBad load f = false := by
  have hf : ∀ (f : BitVec 4) (load : Bool),
      (f.toNat % 8 = 0 → (f.extractLsb' 0 3 != 0) = false ∧ f.getLsbD 2 = false) ∧
        ((f.getLsbD 2 = true → load = true ∧ f.toNat % 4 ≠ 3) → (f.getLsbD 2 && (!load || f.extractLsb' 0 2 == 3)) = false) := by
    decide
  unfold Seat.takesF at h
  unfold Seat.fBad Seat.typed
  cases hm : t.modw.getLsbD 15
  · rw [hm] at h
    exact (hf f load).2 h
  · rw [hm, if_pos rfl] at h
    obtain ⟨hlow, htop⟩ := (hf f load).1 h.1
    rw [hlow, htop]
    rfl

theorem Seat.cb4_of_takesF {t : Seat} {load : Bool} {f : BitVec 4} (h : t.takesF load f) : t.cb4 = false := by
  unfold Seat.takesF at h
  unfold Seat.cb4 Seat.typed
  cases hm : t.modw.getLsbD 15
  · rfl
  · rw [hm, if_pos rfl] at h
    exact beq_eq_false_iff_ne.mpr h.2

/-- An element is one to eight bytes. -/
theorem Seat.size_bounds {t : Seat} {load : Bool} {f : BitVec 4} (h : t.takesF load f) : 0 < t.size f ∧ t.size f ≤ 8 := by
  unfold Seat.takesF at h
  unfold Seat.size
  cases hm : t.modw.getLsbD 15
  · simp only [Bool.false_eq_true, if_false]
    have hf : f.toNat % 4 ≤ 3 := by omega
    exact ⟨Nat.two_pow_pos _, Nat.pow_le_pow_right (n := 2) (by omega) hf⟩
  · rw [hm, if_pos rfl] at h
    simp only [if_true]
    have : ∀ ty : BitVec 4, ty ≠ 13 → 0 < tyBits ty / 8 ∧ tyBits ty / 8 ≤ 8 := by decide
    exact this _ h.2

end Sys2Proof.Machine

/-! The scratchpad's checks where every lane's access may go ahead, what stores leave of bytes and poison marks, and the element
that each lane gets (07 R178 to R187; 09 R235 to R237). -/
namespace Sys2Proof.Machine

/-! ### Tables with many keys set -/

section
variable {α : Type} [DecidableEq α] (d : α)

theorem Sparse.get_sets_notMem {xs : List Nat} {c : Nat} (v : α) (h : c ∉ xs) (m : List (Nat × α)) :
    Sparse.get d (xs.foldl (fun m x => Sparse.set d m x v) m) c = Sparse.get d m c := by
  induction xs generalizing m with
  | nil => rfl
  | cons x xs ih =>
    obtain ⟨hx, hxs⟩ := not_or.mp (mt List.mem_cons.mpr h)
    rw [List.foldl_cons, ih hxs, Sparse.get_set_ne d m v hx]

/-- Every key of the list reads as set, where a key set reads so. -/
theorem Sparse.get_sets_mem {P : List (Nat × α) → Prop} {v : α} (hset : ∀ m x, P m → P (Sparse.set d m x v))
    (hget : ∀ m x, P m → Sparse.get d (Sparse.set d m x v) x = v) {xs : List Nat} {c : Nat} (hc : c ∈ xs)
    {m : List (Nat × α)} (hm : P m) : Sparse.get d (xs.foldl (fun m x => Sparse.set d m x v) m) c = v := by
  induction xs generalizing m with
  | nil => cases hc
  | cons x xs ih =>
    by_cases hxs : c ∈ xs
    · exact ih hxs (hset m x hm)
    · rw [List.foldl_cons, Sparse.get_sets_notMem d v hxs]
      obtain rfl : c = x := (List.mem_cons.mp hc).resolve_right hxs
      exact hget m c hm

/-- Keys set in a table in canonical form. -/
theorem Sparse.get_sets {m : List (Nat × α)} (h : Sparse.wf d m = true) (xs : List Nat) (v : α) (c : Nat) :
    Sparse.get d (xs.foldl (fun m x => Sparse.set d m x v) m) c = if c ∈ xs then v else Sparse.get d m c := by
  split
  · exact Sparse.get_sets_mem d (P := fun m => Sparse.wf d m = true) (fun m x => Sparse.wf_set d x v)
      (fun m x hm => by rw [Sparse.get_set d hm, if_pos rfl]) ‹_› h
  · exact Sparse.get_sets_notMem d v ‹_› m

/-- Keys set to what is not the default, whatever the table's form. -/
theorem Sparse.get_sets_of_ne {v : α} (hv : v ≠ d) (m : List (Nat × α)) (xs : List Nat) (c : Nat) :
    Sparse.get d (xs.foldl (fun m x => Sparse.set d m x v) m) c = if c ∈ xs then v else Sparse.get d m c := by
  split
  · exact Sparse.get_sets_mem d (P := fun _ => True) (fun _ _ _ => trivial)
      (fun m x _ => Sparse.get_set_self d m x hv) ‹_› trivial
  · exact Sparse.get_sets_notMem d v ‹_› m

end

/-! ### The checks (07 R180) -/

theorem State.spadKeyOf_eq {s : State} {ea : Int} {k : Nat} (h : s.spadDecode (s.cur / 256) s.now ea = .ok k) :
    s.spadKeyOf ea = k := by
  unfold State.spadKeyOf
  rw [h]

/-- The lanes with their keys, where no lane's address is a violation. -/
def State.keyed (s : State) (as : List LaneAddr) : List (Nat × Nat) := as.map fun x => (x.1, s.spadKeyOf x.2)

section
variable {s : State} {as : List LaneAddr} (h : ∀ x ∈ as, ∃ k, s.spadDecode (s.cur / 256) s.now x.2 = .ok k)
include h

theorem State.spadVios_nil : s.spadVios (sidCore s.cur) s.now as = [] := by
  refine List.filterMap_eq_nil_iff.mpr fun x hx => ?_
  obtain ⟨k, hk⟩ := h x hx
  show (match s.spadDecode (s.cur / 256) s.now x.2 with
    | .error c => some (x.1, c, x.2)
    | .ok _ => none) = none
  rw [hk]

theorem State.spadKeys_keyed : s.spadKeys (sidCore s.cur) s.now as = s.keyed as := by
  unfold State.spadKeys State.keyed
  rw [← List.filterMap_eq_map]
  refine List.filterMap_congr fun x hx => ?_
  obtain ⟨k, hk⟩ := h x hx
  show (match s.spadDecode (s.cur / 256) s.now x.2 with
    | .error _ => none
    | .ok k => some (x.1, k)) = some (x.1, s.spadKeyOf x.2)
  rw [hk, State.spadKeyOf_eq hk]

end

theorem State.zip_keyed (s : State) (as : List LaneAddr) :
    as.zip (s.keyed as) = as.map fun x => (x, x.1, s.spadKeyOf x.2) := by
  induction as with
  | nil => rfl
  | cons x as ih => exact congrArg _ ih

/-- No access goes to a fenced die. -/
theorem State.spadFenced_ok {s : State} {as : List LaneAddr} {write : Bool}
    (h : ∀ x ∈ as, s.fenced.getLsbD (s.spadKeyOf x.2 / 2 ^ 24 / 8) = false) : s.spadFenced as (s.keyed as) write = .ok () := by
  have hnil : ((as.zip (s.keyed as)).filter fun p => s.fenced.getLsbD (p.2.2 / 2 ^ 24 / 8)) = [] := by
    rw [State.zip_keyed]
    refine List.filter_eq_nil_iff.mpr fun p hp => ?_
    obtain ⟨x, hx, rfl⟩ := List.mem_map.mp hp
    exact Bool.eq_false_iff.mp (h x hx)
  unfold State.spadFenced
  dsimp only
  rw [hnil]

theorem laneTrap_nil {code : Nat} {write : Bool} {bad : List LaneAddr} (h : bad = []) : laneTrap code write bad = .ok () := by
  subst h
  rfl

/-- A store of the row's tail sink stands before an access (08 R205). -/
theorem State.behindSink_iff (s : State) (keys : List (Nat × Nat)) (n : Nat) :
    s.behindSink s.cur s.now keys n = true ↔ ∃ k ∈ keys, s.sinkMeets k.2 n := by
  unfold State.behindSink State.sinkMeets
  simp only [List.any_eq_true, Bool.and_eq_true, decide_eq_true_eq]
  exact ⟨fun ⟨x, hx, k, hk, h⟩ => ⟨k, hk, x, hx, h⟩, fun ⟨k, hk, x, hx, h⟩ => ⟨x, hx, k, hk, h⟩⟩

/-- Where every lane's access may go ahead, the checks answer the lanes' keys. -/
theorem State.spadCheck_ok {s : State} {as : List LaneAddr} {n : Nat} {read write poison cls : Bool}
    (h : ∀ x ∈ as, ∃ k, s.spadOk n n read x.2 k) (hpoison : poison = true → read = true) :
    s.spadCheck s.cur s.now as n n write poison cls = .ok (s.keyed as) := by
  have hopen : ∀ x ∈ as, s.spadOk n n read x.2 (s.spadKeyOf x.2) := fun x hx => by
    obtain ⟨k, hk⟩ := h x hx
    rw [State.spadKeyOf_eq hk.1.1]
    exact hk
  have hdecode : ∀ x ∈ as, ∃ k, s.spadDecode (s.cur / 256) s.now x.2 = .ok k := fun x hx => ⟨_, (hopen x hx).1.1⟩
  have halign : as.filter (fun a => a.2.toNat % n ≠ 0) = [] :=
    List.filter_eq_nil_iff.mpr fun x hx => by simp [(hopen x hx).1.2.1]
  have hfenced : s.spadFenced as (s.keyed as) write = .ok () :=
    State.spadFenced_ok fun x hx => (hopen x hx).1.2.2.1
  have habsent : ((s.keyed as).flatMap fun k => linesOf k.2 n).filter s.isAbsent = [] := by
    refine List.filter_eq_nil_iff.mpr fun c hc => ?_
    obtain ⟨k, hk, hc⟩ := List.mem_flatMap.mp hc
    obtain ⟨x, hx, rfl⟩ := List.mem_map.mp hk
    simp [((hopen x hx).1.2.2.2 c hc).1]
  have hsink : s.behindSink s.cur s.now (s.keyed as) n = false := by
    rw [Bool.eq_false_iff, ne_eq, State.behindSink_iff]
    rintro ⟨k, hk, hmeets⟩
    obtain ⟨x, hx, rfl⟩ := List.mem_map.mp hk
    exact (hopen x hx).2 hmeets
  have hpois : poison = true → s.spadPois as (s.keyed as) n = .ok () := fun hp => by
    refine laneTrap_nil (List.map_eq_nil_iff.mpr (List.filter_eq_nil_iff.mpr fun p hmem => ?_))
    rw [State.zip_keyed] at hmem
    obtain ⟨x, hx, rfl⟩ := List.mem_map.mp hmem
    rw [List.any_eq_true]
    rintro ⟨c, hc, hcp⟩
    rw [((hopen x hx).1.2.2.2 c hc).2 (hpoison hp)] at hcp
    cases hcp
  have hreach : s.spadReach s.cur s.now as n n write cls = .ok (s.keyed as) := by
    unfold State.spadReach
    rw [State.spadVios_nil hdecode, laneTrap_nil halign, State.spadKeys_keyed hdecode]
    simp only [vioFreeze, vioFreezeWith, hfenced, habsent, bind, Except.bind, pure, Except.pure, ne_eq, not_true_eq_false,
      if_false]
  unfold State.spadCheck
  simp only [hreach, hsink, bind, Except.bind, pure, Except.pure, Bool.false_eq_true, if_false]
  cases poison
  · rfl
  · simp only [if_true, hpois rfl]

/-! ### The element that a lane gets -/

theorem laneOf_mem {xs : List (Nat × Nat)} {f : Nat → Nat} {l : Nat} (hf : ∀ x ∈ xs, x.2 = f x.1) (hl : ∃ x ∈ xs, x.1 = l) :
    laneOf xs l = f l := by
  unfold laneOf
  obtain ⟨x, hx, hxl⟩ := hl
  cases hfind : xs.find? fun v => v.1 == l with
  | none =>
    exact absurd hxl (by simpa using List.find?_eq_none.mp hfind x hx)
  | some y =>
    have hy : y.1 = l := by simpa using List.find?_some hfind
    rw [Option.map_some, Option.getD_some, hf y (List.mem_of_find?_eq_some hfind), hy]

/-- Every accessing lane got what was made of its own access. -/
theorem laneOf_map {ls : List Nat} (g : Nat → Nat) {l : Nat} (h : l ∈ ls) : laneOf (ls.map fun l => (l, g l)) l = g l :=
  laneOf_mem (f := g) (fun x hx => by obtain ⟨l, -, rfl⟩ := List.mem_map.mp hx; rfl) ⟨_, List.mem_map.mpr ⟨l, h, rfl⟩, rfl⟩

/-! ### Stores (07 R187) -/

/-- A line that a store reaches. -/
theorem mem_linesOf {k n c j : Nat} (h : k ≤ 128 * c + j) (h' : 128 * c + j < k + n) (hj : j < 128) : c ∈ linesOf k n := by
  unfold linesOf
  exact List.mem_map.mpr ⟨c - k / 128, List.mem_range.mpr (by omega), by omega⟩

theorem covers_iff (n : Nat) (ks : List Nat) (c : Nat) : covers (ks.map fun k => (k, n)) c = true ↔ Covered n ks 128 c := by
  unfold covers Covered
  simp only [List.all_eq_true, List.mem_range, List.any_map, List.any_eq_true, Function.comp, Bool.and_eq_true, decide_eq_true_eq,
    Nat.mul_comm c]

/-- The lines that lose their poison mark with the stores of `n` bytes at these keys. -/
def State.healed (s : State) (n : Nat) (ks : List Nat) : List Nat :=
  ((ks.flatMap fun k => linesOf k n).eraseDups).filter fun l => s.isPois l && covers (ks.map fun k => (k, n)) l

theorem State.mem_healed {s : State} {n : Nat} {ks : List Nat} {c : Nat} :
    c ∈ s.healed n ks ↔ s.isPois c = true ∧ Covered n ks 128 c := by
  unfold State.healed
  rw [List.mem_filter, List.mem_eraseDups, Bool.and_eq_true, covers_iff, List.mem_flatMap]
  refine ⟨And.right, fun h => ⟨?_, h⟩⟩
  obtain ⟨k, hk, hle, hlt⟩ := h.2 0 (by omega)
  exact ⟨k, hk, mem_linesOf hle hlt (by omega)⟩

/-- What stores of `n` bytes leave of the machine: their bytes, and the marks of the lines that they do not write whole. -/
theorem State.spadStore_eq (s : State) (n : Nat) (ws : List (Nat × Nat)) :
    s.spadStore (ws.map fun w => (w.1, n, w.2)) =
      { s with spad := ws.foldl (fun m w => Memory.write m w.1 n w.2) s.spad
               spois := (s.healed n (ws.map Prod.fst)).foldl (fun m l => Sparse.set false m l false) s.spois } := by
  unfold State.spadStore State.healed
  simp only [List.map_map, List.foldl_map, List.flatMap_map, Function.comp_def]

theorem Memory.byte_storeAll {m : Memory} (h : m.wf = true) (n : Nat) (ws : List (Nat × Nat)) :
    (ws.foldl (fun m w => Memory.write m w.1 n w.2) m).byte = storeAll n ws m.byte := by
  have := Memory.byte_writes h (ws.map fun w => (w.1, n, w.2))
  rwa [List.foldl_map, List.foldl_map] at this

/-- A line that is not written whole keeps its mark. -/
theorem State.healed_kept (s : State) (n : Nat) (ks : List Nat) (c : Nat) :
    Covered n ks 128 c ∨
      Sparse.get false ((s.healed n ks).foldl (fun m l => Sparse.set false m l false) s.spois) c = Sparse.get false s.spois c := by
  by_cases hc : Covered n ks 128 c
  · exact .inl hc
  · exact .inr (Sparse.get_sets_notMem false false (fun h => hc (State.mem_healed.mp h).2) _)

theorem LinesLeft.of_healed {s u : State} {n : Nat} {ks : List Nat}
    (h : u.spois = (s.healed n ks).foldl (fun m l => Sparse.set false m l false) s.spois) : LinesLeft s u n ks := by
  intro hwf c
  unfold State.isPois
  rw [h, Sparse.get_sets false hwf]
  split
  · exact ⟨nofun, fun hc => absurd (State.mem_healed.mp ‹_›).2 hc.2⟩
  · exact ⟨fun hp => ⟨hp, fun hc => ‹c ∉ _› (State.mem_healed.mpr ⟨hp, hc⟩)⟩, And.left⟩

/-- Stores within fewer bytes than a line write none whole. -/
theorem State.spadStore_within (s : State) {k n : Nat} (hn : n < 128) {ws : List (Nat × Nat × Nat)}
    (h : ∀ w ∈ ws, k ≤ w.1 ∧ w.1 + w.2.1 ≤ k + n) :
    s.spadStore ws = { s with spad := ws.foldl (fun m w => m.write w.1 w.2.1 w.2.2) s.spad } := by
  have hnone : ∀ c, covers (ws.map fun w => (w.1, w.2.1)) c = false := fun c => by
    refine Bool.eq_false_iff.mpr fun hc => ?_
    have hbyte : ∀ i, i < 128 → k ≤ c * 128 + i ∧ c * 128 + i < k + n := fun i hi => by
      obtain ⟨x, hx, hin⟩ := List.any_eq_true.mp (List.all_eq_true.mp hc i (List.mem_range.mpr hi))
      obtain ⟨w, hw, rfl⟩ := List.mem_map.mp hx
      have hb := h w hw
      simp only [Bool.and_eq_true, decide_eq_true_eq] at hin
      omega
    have h0 := hbyte 0 (by omega)
    have h127 := hbyte 127 (by omega)
    omega
  unfold State.spadStore
  simp only [hnone, Bool.and_false, List.filter_false, List.foldl_nil]

theorem State.spadStore_one (s : State) {n : Nat} (hn : n < 128) (k v : Nat) :
    s.spadStore [(k, n, v)] = { s with spad := s.spad.write k n v } :=
  s.spadStore_within (k := k) hn fun w hw => by
    rw [List.mem_singleton] at hw
    subst hw
    exact ⟨le_rfl, le_rfl⟩

/-! ### The slot's frame around the scratchpad -/

/-- Bytes and poison marks stored beside what the slot did. -/
theorem Slot.with_spad {r u : State} {w : Seat} (h : Slot r u w) (m : Memory) (p : List (Nat × Bool)) :
    Slot { r with spad := m, spois := p } { u with spad := m, spois := p } w :=
  h.rebase rfl rfl rfl (by conv_lhs => rw [h.rest])

theorem Slot.with_absent {r u : State} {w : Seat} (h : Slot r u w) (ab : List (Nat × Bool)) :
    Slot { r with absent := ab } { u with absent := ab } w :=
  h.rebase rfl rfl rfl (by conv_lhs => rw [h.rest])

/-- The reads of a slot that is ready, on the machine as found. -/
theorem LaneReady.reads_self {s r : State} {o : LaneOp} {e : PortEntry} (h : LaneReady s o e r) :
    ∃ v, State.slotReads s.cur s.now o s = .ok v ∧ Slot r v s.now ∧ Holds4 v s.cur s.now.lat s.now.latpois := by
  obtain ⟨v, hv, hslot, hlats⟩ := h.reads (SameSlots.refl s)
  rw [← State.readPorts_rest h.ports] at hslot
  exact ⟨v, hv, hslot, hlats⟩

theorem LaneReady.cur {s r : State} {o : LaneOp} {e : PortEntry} (h : LaneReady s o e r) : r.cur = s.cur := by
  rw [State.readPorts_rest h.ports]

end Sys2Proof.Machine

/-! LDS, PRES, STS and ABSENT, each from its checks to what it leaves (09 R235 to R240). -/
namespace Sys2Proof.Machine

theorem Seat.esize_eq (t : Seat) (f : BitVec 4) : t.esize f = t.size f := rfl
theorem Seat.esigned_eq (t : Seat) (f : BitVec 4) : t.esigned f = t.signed f := rfl

theorem LaneIn.mem_spadAddrs {i : LaneIn} {scale : Nat} {x : LaneAddr} (h : x ∈ i.spadAddrs scale) :
    x.1 ∈ i.lanes ∧ x.2 = i.spadAddr scale x.1 := by
  obtain ⟨l, hl, rfl⟩ := List.mem_map.mp h
  exact ⟨hl, rfl⟩

/-- The keys of the accessing lanes. -/
theorem State.keyed_spadAddrs (s : State) (i : LaneIn) (scale : Nat) :
    s.keyed (i.spadAddrs scale) = i.lanes.map fun l => (l, s.spadKeyOf (i.spadAddr scale l)) := by
  unfold State.keyed LaneIn.spadAddrs
  rw [List.map_map]
  rfl

/-- The checks of the lanes' accesses. -/
theorem State.spadCheck_lanes {s : State} {i : LaneIn} {scale n : Nat} {read write poison cls : Bool}
    (h : ∀ l ∈ i.lanes, ∃ k, s.spadOk n n read (i.spadAddr scale l) k) (hpoison : poison = true → read = true) :
    s.spadCheck s.cur s.now (i.spadAddrs scale) n n write poison cls =
      .ok (i.lanes.map fun l => (l, s.spadKeyOf (i.spadAddr scale l))) := by
  rw [← State.keyed_spadAddrs]
  refine State.spadCheck_ok (fun x hx => ?_) hpoison
  obtain ⟨hl, hxe⟩ := LaneIn.mem_spadAddrs hx
  rw [hxe]
  exact h x.1 hl

/-! ### LDS -/

/-- What each lane loads from the scratchpad. -/
def State.spadLoads (s : State) (sg : Bool) (n : Nat) (ks : List (Nat × Nat)) (l : Nat) : Word :=
  extend sg n (laneOf (ks.map fun k => (k.1, s.spad.read k.2 n)) l)

theorem State.loaded_spadLoads (s : State) (sg : Bool) {n : Nat} (h0 : 0 < n) (h8 : n ≤ 8) {ls : List Nat} (key : Nat → Nat)
    {l : Nat} (hl : l ∈ ls) :
    Loaded n sg (fun j => s.spad.byte (key l + j)) (s.spadLoads sg n (ls.map fun l => (l, key l)) l) := by
  unfold State.spadLoads
  rw [List.map_map]
  show Loaded _ _ _ (extend _ _ (laneOf (ls.map fun l => (l, s.spad.read (key l) n)) l))
  rw [laneOf_map (fun l => s.spad.read (key l) n) hl, Memory.read_eq_readBytes]
  exact loaded_readBytes s.spad.byte (key l) _ h0 h8

section
variable {s r : State} {a b : Src} {e : PortEntry} {i : LaneIn}

theorem LaneReady.exec_lds {d : Dst} {f : BitVec 4} (h : LaneReady s (memOp d a b) e r) (ht : s.now.takesF true f)
    (hd : RegDst s (memOp d a b)) (hi : s.laneIn s.now (memOp d a b) e.v = i)
    (hok : ∀ l ∈ i.lanes, ∃ k, s.spadOk (s.now.size f) (s.now.size f) true
      (i.spadAddr (if f.getLsbD 3 then s.now.size f else 1) l) k) :
    ∃ u v, exec (.lds d a b f) s = .next u ∧ Slot r u (s.now.result s.now d v).advance ∧ LatchesGone u ∧
      ∀ l ∈ i.lanes, Loaded (s.now.size f) (s.now.signed f)
        (fun j => s.spad.byte (s.spadKeyOf (i.spadAddr (if f.getLsbD 3 then s.now.size f else 1) l) + j)) (v l) := by
  obtain ⟨h0, h8⟩ := Seat.size_bounds ht
  obtain ⟨u1, hreads, hslot, -⟩ := h.reads_self
  obtain ⟨u2, hput, hslot2, hgone⟩ := hslot.putLoad h.cur h.resident s.now d (s.spadLoads (s.now.signed f) (s.now.size f)
    (i.lanes.map fun l => (l, s.spadKeyOf (i.spadAddr (if f.getLsbD 3 then s.now.size f else 1) l)))) hd
  refine ⟨u2.next s.cur, _, ?_, hslot2, hgone, fun l hl => s.loaded_spadLoads _ h0 h8
    (fun l => s.spadKeyOf (i.spadAddr (if f.getLsbD 3 then s.now.size f else 1) l)) hl⟩
  show execLds d a b f s = _
  unfold execLds
  rw [h.mem_run (by simp only [Seat.fBad_of_takesF ht, Seat.cb4_of_takesF ht]; rfl) hi]
  unfold State.spadLoads at hput
  simp only [Seat.esize_eq, Seat.esigned_eq, State.spadCheck_lanes hok id, hreads, hput, bind, Except.bind, pure, Except.pure,
    State.close]

/-! ### PRES -/

/-- What PRES tells of a lane's line. -/
def State.presence (s : State) (ks : List (Nat × Nat)) (l : Nat) : Word :=
  BitVec.ofNat 64 (laneOf (ks.map fun k => (k.1, (!s.isAbsent (k.2 / 128)).toNat + 2 * (s.isPois (k.2 / 128)).toNat)) l)

theorem State.presence_bits (s : State) {ls : List Nat} (key : Nat → Nat) {l : Nat} (hl : l ∈ ls) :
    let v := s.presence (ls.map fun l => (l, key l)) l
    v.getLsbD 0 = !s.isAbsent (key l / 128) ∧ v.getLsbD 1 = s.isPois (key l / 128) ∧ v >>> 2 = 0 := by
  intro v
  have hv : v = BitVec.ofNat 64 ((!s.isAbsent (key l / 128)).toNat + 2 * (s.isPois (key l / 128)).toNat) := by
    unfold v State.presence
    rw [List.map_map]
    exact congrArg _ (laneOf_map (fun l => (!s.isAbsent (key l / 128)).toNat + 2 * (s.isPois (key l / 128)).toNat) hl)
  rw [hv]
  cases s.isAbsent (key l / 128) <;> cases s.isPois (key l / 128) <;> decide

/-- A result in its register and in the latches: a lane slot's or a uniform one's (02 R52, R58). -/
theorem LaneReady.put_result {o : LaneOp} (h : LaneReady s o e r) {u : State} (hslot : Slot r u s.now)
    (hlats : Lats u s.cur s.now.lat) {d : Dst} (hd : d.nw = true ∨ s.now.uniform = true ∨ d.dr.toNat ≠ 31) (v : Nat → Word) :
    ∃ u', (if s.now.uniform then .ok (u.putScalar s.cur d (v 0)) else u.putLane s.cur s.now d s.now.gov v) = Except.ok u' ∧
      Slot r (u'.next s.cur) (s.now.result s.now d v).advance ∧ Latched s (u'.next s.cur) (s.now.entry v) := by
  have hres : (s.now.result s.now d v).resident = true := by rw [Seat.resident_result]; exact h.resident
  suffices hput : ∃ u' y, (if s.now.uniform then .ok (u.putScalar s.cur d (v 0)) else u.putLane s.cur s.now d s.now.gov v) =
      Except.ok u' ∧ Slot r u' (s.now.result s.now d v) ∧ s.now.entry v y ∧
      Lats u' s.cur (tab 4 fun i => if i = 0 then y else vget .invalid s.now.lat (i - 1)) by
    obtain ⟨u', y, hu, hs, hy, hl⟩ := hput
    have hs2 := hs.next h.cur hres
    exact ⟨u', hu, hs2, Latched.of_lats (hs2.cur.trans h.cur) hl.next rfl hy⟩
  unfold Seat.result Seat.entry
  cases hu : s.now.uniform
  · have hd' : d.nw = true ∨ d.dr.toNat ≠ 31 := by simpa [hu] using hd
    obtain ⟨u', hput, hs⟩ := hslot.putLane h.resident s.now d s.now.ezero s.now.gov v hd'
    obtain ⟨u2, hput2, hl⟩ := hlats.putLane s.now d s.now.ezero s.now.gov v hd'
    rw [h.cur, hput2] at hput
    cases hput
    exact ⟨_, _, hput2, hs, ⟨_, rfl, fun l hl => laneEntry_active _ _ _ _ _ hl⟩, hl⟩
  · have hs := hslot.putScalar h.resident d (v 0)
    rw [h.cur] at hs
    exact ⟨_, _, rfl, hs, rfl, hlats.putScalar d (v 0)⟩

theorem LaneReady.exec_pres {d : Dst} (h : LaneReady s (memOp d a b) e r) (hd : RegDst s (memOp d a b))
    (hi : s.laneIn s.now (memOp d a b) e.v = i)
    (hok : ∀ l ∈ i.lanes, ∃ k, s.spadDecode (s.cur / 256) s.now (i.spadAddr 1 l) = .ok k) :
    ∃ u v, exec (.pres d a b) s = .next u ∧ Slot r u (s.now.result s.now d v).advance ∧ Latched s u (s.now.entry v) ∧
      ∀ l ∈ i.lanes, let c := s.spadKeyOf (i.spadAddr 1 l) / 128
        ((v l).getLsbD 0 = !s.isAbsent c) ∧ ((v l).getLsbD 1 = s.isPois c) ∧ v l >>> 2 = 0 := by
  obtain ⟨u1, hreads, hslot, hlats⟩ := h.reads_self
  obtain ⟨u2, hput, hslot2, hlatched⟩ := h.put_result hslot hlats.lats hd
    (s.presence (i.lanes.map fun l => (l, s.spadKeyOf (i.spadAddr 1 l))))
  have hdecode : ∀ x ∈ i.spadAddrs 1, ∃ k, s.spadDecode (s.cur / 256) s.now x.2 = .ok k := fun x hx => by
    obtain ⟨hl, hxe⟩ := LaneIn.mem_spadAddrs hx
    rw [hxe]
    exact hok x.1 hl
  refine ⟨u2.next s.cur, _, ?_, hslot2, hlatched, fun l hl => s.presence_bits (fun l => s.spadKeyOf (i.spadAddr 1 l)) hl⟩
  show execPres d a b s = _
  unfold execPres
  rw [h.mem_run (o := memOp d a b) rfl hi]
  unfold State.presence at hput
  simp only [State.spadVios_nil hdecode, State.spadKeys_keyed hdecode, State.keyed_spadAddrs, vioFreeze, vioFreezeWith, hreads,
    bind, Except.bind, pure, Except.pure]
  cases hu : s.now.uniform
  · rw [hu] at hput
    simp only [Bool.false_eq_true, if_false, memOp] at hput ⊢
    rw [hput]
    rfl
  · rw [hu] at hput
    simp only [if_true] at hput ⊢
    cases hput
    rfl

/-! ### STS -/

/-- A store's register in the accessing lanes, at their keys. -/
def State.spadPuts (s : State) (i : LaneIn) (scale : Nat) (d : BitVec 5) : List (Nat × Nat) :=
  i.lanes.map fun l => (s.spadKeyOf (i.spadAddr scale l), (vget 0 (s.dataVal s.now d) l).toNat)

theorem LaneReady.exec_sts {d : BitVec 5} {f : BitVec 4} (h : LaneReady s (stOp d a b) e r) (ht : s.now.takesF false f)
    (hi : s.laneIn s.now (stOp d a b) e.v = i)
    (hok : ∀ l ∈ i.lanes, ∃ k, s.spadOk (s.now.size f) (s.now.size f) false
      (i.spadAddr (if f.getLsbD 3 then s.now.size f else 1) l) k) :
    ∃ u, exec (.sts d a b f) s = .next u ∧ LatchesKept s u ∧
      Slot { r with
        spad := (s.spadPuts i (if f.getLsbD 3 then s.now.size f else 1) d).foldl
          (fun m w => Memory.write m w.1 (s.now.size f) w.2) s.spad
        spois := (s.healed (s.now.size f) ((s.spadPuts i (if f.getLsbD 3 then s.now.size f else 1) d).map Prod.fst)).foldl
          (fun m l => Sparse.set false m l false) s.spois } u s.now.advance := by
  obtain ⟨u1, hreads, hslot, hlats⟩ := h.reads_self
  have hspad : u1.spad = s.spad := by rw [hslot.rest, State.readPorts_rest h.ports]
  have hspois : u1.spois = s.spois := by rw [hslot.rest, State.readPorts_rest h.ports]
  have hhealed : ∀ n ks, u1.healed n ks = s.healed n ks := fun n ks => by
    unfold State.healed State.isPois
    rw [hspois]
  have hadv := hslot.next h.cur h.resident
  refine ⟨_, ?_, ?_, hadv.with_spad _ _⟩
  · show execSts d a b f s = _
    unfold execSts
    rw [h.mem_run (o := stOp d a b)
      (by simp only [storeOp, Seat.fBad_of_takesF ht, Seat.cb4_of_takesF ht]; rfl) hi]
    simp only [Seat.esize_eq, State.spadCheck_lanes hok (absurd · Bool.false_ne_true), hreads, bind, Except.bind, pure, Except.pure, State.close,
      List.map_map]
    have hstore := u1.spadStore_eq (s.now.size f) (s.spadPuts i (if f.getLsbD 3 then s.now.size f else 1) d)
    rw [hspad, hhealed, hspois] at hstore
    unfold State.spadPuts at hstore ⊢
    rw [List.map_map] at hstore
    exact congrArg (fun u => Host.Outcome.next (u.next s.cur)) hstore
  · exact Holds4.kept (hadv.cur.trans h.cur) (hlats.next.congr rfl)

/-! ### ABSENT -/

/-- The lines that ABSENT names: each lane's, and those that follow it. -/
def LaneIn.lineAddrs (i : LaneIn) (n : BitVec 4) : List LaneAddr :=
  (i.spadAddrs 1).flatMap fun x => (List.range (n.toNat + 1)).map fun (j : Nat) => (x.1, x.2 + 128 * Int.ofNat j)

theorem LaneIn.mem_lineAddrs {i : LaneIn} {n : BitVec 4} {x : LaneAddr} :
    x ∈ i.lineAddrs n ↔ ∃ l ∈ i.lanes, ∃ j : Nat, j ≤ n.toNat ∧ (l, i.spadAddr 1 l + 128 * (j : Int)) = x := by
  unfold LaneIn.lineAddrs LaneIn.spadAddrs
  rw [List.flatMap_map, List.mem_flatMap]
  refine exists_congr fun l => and_congr_right fun _ => ?_
  rw [List.mem_map]
  exact exists_congr fun j => and_congr_left' (by rw [List.mem_range]; omega)

theorem State.mem_lineAddrs_lines (s : State) (i : LaneIn) (n : BitVec 4) (c : Nat) :
    c ∈ ((s.keyed (i.lineAddrs n)).map fun k => k.2 / 128) ↔
      ∃ l ∈ i.lanes, ∃ j : Nat, j ≤ n.toNat ∧ s.spadKeyOf (i.spadAddr 1 l + 128 * j) / 128 = c := by
  unfold State.keyed
  rw [List.map_map, List.mem_map]
  constructor
  · rintro ⟨x, hx, rfl⟩
    obtain ⟨l, hl, j, hj, rfl⟩ := LaneIn.mem_lineAddrs.mp hx
    exact ⟨l, hl, j, hj, rfl⟩
  · rintro ⟨l, hl, j, hj, rfl⟩
    exact ⟨_, LaneIn.mem_lineAddrs.mpr ⟨l, hl, j, hj, rfl⟩, rfl⟩

/-- The lines of the keys marked absent, one after the other. -/
theorem State.setAbsents (s : State) (ks : List (Nat × Nat)) :
    ks.foldl (fun s k => s.setAbsent (k.2 / 128) true) s =
      { s with absent := (ks.map fun k => k.2 / 128).foldl (fun m c => Sparse.set false m c true) s.absent } := by
  induction ks generalizing s with
  | nil => rfl
  | cons k ks ih => exact ih _

theorem LaneReady.exec_absent (h : LaneReady s (putOp a b) e r) (hi : s.laneIn s.now (putOp a b) e.v = i) (n : BitVec 4)
    (hok : ∀ l ∈ i.lanes, (i.spadAddr 1 l).toNat % 128 = 0 ∧ ∀ j : Nat, j ≤ n.toNat → ∃ k,
      s.spadDecode (s.cur / 256) s.now (i.spadAddr 1 l + 128 * j) = .ok k ∧ s.fenced.getLsbD (k / 2 ^ 24 / 8) = false) :
    (s.behindSink s.cur s.now (s.keyed (i.lineAddrs n)) 128 = true → exec (.absent a b n) s = .next { s with stalled := true }) ∧
    (s.behindSink s.cur s.now (s.keyed (i.lineAddrs n)) 128 = false →
      ∃ u, exec (.absent a b n) s = .next u ∧ LatchesKept s u ∧
        Slot { r with absent := ((s.keyed (i.lineAddrs n)).map fun k => k.2 / 128).foldl (fun m c => Sparse.set false m c true) s.absent }
          u s.now.advance) := by
  obtain ⟨u1, hreads, hslot, hlats⟩ := h.reads_self
  have hdecode : ∀ x ∈ i.lineAddrs n, ∃ k, s.spadDecode (s.cur / 256) s.now x.2 = .ok k := fun x hx => by
    obtain ⟨l, hl, j, hj, rfl⟩ := LaneIn.mem_lineAddrs.mp hx
    exact ((hok l hl).2 j hj).imp fun _ hk => hk.1
  have halign : (i.spadAddrs 1).filter (fun x => x.2.toNat % 128 ≠ 0) = [] :=
    List.filter_eq_nil_iff.mpr fun x hx => by
      obtain ⟨hl, hxe⟩ := LaneIn.mem_spadAddrs hx
      simp [hxe, (hok x.1 hl).1]
  have hfenced : s.spadFenced (i.lineAddrs n) (s.keyed (i.lineAddrs n)) true = .ok () :=
    State.spadFenced_ok fun x hx => by
      obtain ⟨l, hl, j, hj, rfl⟩ := LaneIn.mem_lineAddrs.mp hx
      obtain ⟨k, hk, hfence⟩ := (hok l hl).2 j hj
      rw [State.spadKeyOf_eq hk]
      exact hfence
  have hrun : exec (.absent a b n) s = s.close s.cur (do
      fenceWait (!s.behindSink s.cur s.now (s.keyed (i.lineAddrs n)) 128)
      let s1 ← State.slotReads s.cur s.now (putOp a b) s
      return ((s.keyed (i.lineAddrs n)).foldl (fun s k => s.setAbsent (k.2 / 128) true) s1).next s.cur) := by
    show execAbsent a b n s = _
    unfold execAbsent
    rw [h.mem_run (o := putOp a b) rfl hi]
    show s.close s.cur (do
      vioFreeze (s.spadVios (sidCore s.cur) s.now (i.lineAddrs n))
      laneTrap cMISALIGN_DATA true ((i.spadAddrs 1).filter fun x => x.2.toNat % 128 ≠ 0)
      s.spadFenced (i.lineAddrs n) (s.spadKeys (sidCore s.cur) s.now (i.lineAddrs n)) true
      fenceWait (!s.behindSink s.cur s.now (s.spadKeys (sidCore s.cur) s.now (i.lineAddrs n)) 128)
      let s1 ← State.slotReads s.cur s.now (putOp a b) s
      return ((s.spadKeys (sidCore s.cur) s.now (i.lineAddrs n)).foldl (fun s k => s.setAbsent (k.2 / 128) true) s1).next s.cur) = _
    rw [State.spadVios_nil hdecode, laneTrap_nil halign, State.spadKeys_keyed hdecode, hfenced]
    rfl
  refine ⟨fun hq => ?_, fun hq => ?_⟩
  · rw [hrun, hq]
    rfl
  · have hadv := hslot.advance h.resident
    rw [h.cur] at hadv
    have habs : u1.absent = s.absent := by rw [hslot.rest, State.readPorts_rest h.ports]
    refine ⟨_, ?_, ?_, hadv.with_absent _⟩
    · rw [hrun, hq, hreads, ← habs]
      exact congrArg (fun u => Host.Outcome.next (u.next s.cur)) (u1.setAbsents _)
    · exact Holds4.kept (hadv.cur.trans h.cur) (hlats.next.congr rfl)

end

/-- Settles O23: each of the four from its own run, the marks of the lines by `healed` and `get_sets`. -/
theorem scratchpadAccesses : Obligations.ScratchpadAccesses := by
  unfold Obligations.ScratchpadAccesses
  refine ⟨fun s d a b f e r ht h hd hok => h.exec_lds ht hd rfl hok, fun s d a b e r h hd hok => h.exec_pres hd rfl hok,
    fun s a b d f e r hmem h ht hok => ?_, fun s a b e r h n hok => ?_⟩
  · obtain ⟨u, hexec, hkept, hslot⟩ := h.exec_sts ht rfl hok
    refine ⟨u, _, _, hexec, hslot, hkept, Memory.byte_storeAll hmem.1 _ _, ?_⟩
    have hkeys : ∀ i scale, (s.spadPuts i scale d).map Prod.fst = i.lanes.map fun l => s.spadKeyOf (i.spadAddr scale l) :=
      fun i scale => by unfold State.spadPuts; rw [List.map_map]; rfl
    have hspois := congrArg State.spois hslot.rest
    simp only [hkeys] at hspois ⊢
    exact ⟨LinesLeft.of_healed hspois, State.healed_kept s _ _⟩
  · obtain ⟨hstall, hgo⟩ := h.exec_absent rfl n hok
    have hqueued : s.behindSink s.cur s.now (s.keyed ((s.laneIn s.now (putOp a b) e.v).lineAddrs n)) 128 = true ↔
        ∃ l ∈ (s.laneIn s.now (putOp a b) e.v).lanes, ∃ j : Nat, j ≤ n.toNat ∧
          s.sinkMeets (s.spadKeyOf ((s.laneIn s.now (putOp a b) e.v).spadAddr 1 l + 128 * j)) 128 := by
      rw [State.behindSink_iff]
      constructor
      · rintro ⟨k, hk, hmeets⟩
        obtain ⟨x, hx, rfl⟩ := List.mem_map.mp hk
        obtain ⟨l, hl, j, hj, rfl⟩ := LaneIn.mem_lineAddrs.mp hx
        exact ⟨l, hl, j, hj, hmeets⟩
      · rintro ⟨l, hl, j, hj, hmeets⟩
        exact ⟨_, List.mem_map.mpr ⟨_, LaneIn.mem_lineAddrs.mpr ⟨l, hl, j, hj, rfl⟩, rfl⟩, hmeets⟩
    refine ⟨fun hq => hstall (hqueued.mpr hq), fun hq => ?_⟩
    obtain ⟨u, hexec, hkept, hslot⟩ := hgo (Bool.eq_false_iff.mpr (mt hqueued.mp hq))
    refine ⟨u, _, hexec, hslot, hkept, fun c => ?_⟩
    rw [Sparse.get_sets_of_ne false (by decide)]
    have hmem := s.mem_lineAddrs_lines (s.laneIn s.now (putOp a b) e.v) n c
    split
    · exact ⟨fun _ => .inr (hmem.mp ‹_›), fun _ => rfl⟩
    · exact ⟨.inl, fun hc => hc.resolve_right (mt hmem.mpr ‹_›)⟩

end Sys2Proof.Machine

/-! ATOMS and CASS: the lanes' updates one after the other (09 R241, R242). -/
namespace Sys2Proof.Machine

/-! ### One update -/

/-- What an atomic leaves is what its operation gives. -/
theorem atomNew_eq_atomic (t : Seat) (f old v : Nat) : atomNew f t.ety old v = t.atomic f old v := by
  unfold atomNew Seat.atomic emin emax ordLe Seat.key
  split <;> simp only [decide_eq_true_eq]

/-- An atomic's element is four or eight bytes. -/
theorem atomTy_bytes {f : Nat} {ty : BitVec 4} (h : atomTy f ty = true) :
    0 < tyBits ty / 8 ∧ tyBits ty / 8 ≤ 8 ∧ 8 * (tyBits ty / 8) = tyBits ty := by
  have hty : ty ≠ 13 := fun h13 => by
    subst h13
    unfold atomTy at h
    revert h
    split
    · decide
    · split
      · decide
      · split <;> decide
  revert hty
  clear h
  revert ty
  decide

/-- What a lane makes of the old value that it finds (09 R241, R242). -/
def Seat.updates (t : Seat) (i : LaneIn) (cas : Bool) (f l old : Nat) : Nat :=
  let v := (vget 0 i.b l).toNat % 2 ^ tyBits t.ety
  if cas then (if old = (vget 0 i.d l).toNat % 2 ^ tyBits t.ety then v else old) else t.atomic f old v

theorem update_eq (t : Seat) (i : LaneIn) (cas : Bool) (f l old : Nat) :
    update cas f t.ety old (i.elemB t.ety l) (i.cmpD t.ety l) = t.updates i cas f l old := by
  unfold update Seat.updates LaneIn.elemB LaneIn.cmpD
  simp only [atomNew_eq_atomic]

/-! ### The lanes in turn -/

theorem laneOf_cons (l v : Nat) (xs : List (Nat × Nat)) (k : Nat) :
    laneOf ((l, v) :: xs) k = if k = l then v else laneOf xs k := by
  unfold laneOf
  by_cases h : k = l
  · rw [if_pos h, List.find?_cons_of_pos (by simp [h])]
    rfl
  · rw [if_neg h, List.find?_cons_of_neg (by simpa using Ne.symm h)]

/-- Every old value is what some bytes read as. -/
theorem atomics_lt (n : Nat) (new : Nat → Nat → Nat) : ∀ (xs : List (Nat × Nat)) (m : Nat → Byte) (l : Nat),
    (atomics n new xs m).2 l < 2 ^ (8 * n)
  | [], _, _ => Nat.two_pow_pos _
  | (k, a) :: xs, m, l => by
    rw [atomics]
    dsimp only
    split
    · exact readBytes_lt m n a
    · exact atomics_lt n new xs _ l

/-- The scratchpad and the old values after the lanes' updates, one after the other. -/
theorem State.spad_updates {n : Nat} (hn : n < 128) (new : Nat → Nat → Nat) (ks : List (Nat × Nat)) {s : State}
    (hs : s.spad.wf = true) (acc : List (Nat × Nat)) :
    ∃ m vs, ks.foldl (fun (r : State × List (Nat × Nat)) k =>
        (r.1.spadStore [(k.2, n, new k.1 (r.1.spad.read k.2 n))], r.2 ++ [(k.1, r.1.spad.read k.2 n)])) (s, acc) =
          ({ s with spad := m }, acc ++ vs) ∧
      m.byte = (atomics n new ks s.spad.byte).1 ∧ ∀ l, laneOf vs l = (atomics n new ks s.spad.byte).2 l := by
  induction ks generalizing s acc with
  | nil => exact ⟨s.spad, [], by simp, rfl, fun _ => rfl⟩
  | cons k ks ih =>
    obtain ⟨m, vs, hfold, hbyte, hold⟩ := ih
      (s := { s with spad := s.spad.write k.2 n (new k.1 (s.spad.read k.2 n)) }) (Memory.wf_write _ _ _ hs)
      (acc ++ [(k.1, s.spad.read k.2 n)])
    refine ⟨m, (k.1, s.spad.read k.2 n) :: vs, ?_, ?_, fun l => ?_⟩
    · rw [List.foldl_cons, s.spadStore_one hn, hfold, List.append_assoc]
      rfl
    · rw [hbyte, Memory.byte_write hs, Memory.read_eq_readBytes]
      rfl
    · rw [laneOf_cons, hold, Memory.byte_write hs, Memory.read_eq_readBytes]
      rfl

/-! ### The run -/

/-- An atomic's address is its first operand alone (09 R241). -/
theorem spadEA_zero (a : Word) : spadEA a 0 1 = (a.toNat : Int) := by simp [spadEA]

theorem LaneReady.atomS_ok {s r : State} {d : Dst} {a b : Src} {e : PortEntry} {i : LaneIn} {cas : Bool} {f : Nat}
    (h : LaneReady s (atomOp cas d a b false f s.now) e r) (hmem : MemOk s) (hd : d.nw = true ∨ s.now.uniform = true ∨ d.dr.toNat ≠ 31)
    (hi : s.laneIn s.now (atomOp cas d a b false f s.now) e.v = i)
    (hok : ∀ l ∈ i.lanes, ∃ k, s.spadOk (tyBits s.now.ety / 8) (tyBits s.now.ety / 8) true ((vget 0 i.a l).toNat : Int) k) :
    let q := atomics (tyBits s.now.ety / 8) (s.now.updates i cas f)
      (i.lanes.map fun l => (l, s.spadKeyOf ((vget 0 i.a l).toNat : Int))) s.spad.byte
    ∃ u v m, s.atomS cas false d a b f = .next u ∧ m.byte = q.1 ∧ Slot { r with spad := m } u (s.now.result s.now d v).advance ∧
      LatchesGone u ∧ ∀ l ∈ i.lanes, Loaded (tyBits s.now.ety / 8) (isSigned s.now.ety)
        (fun j => BitVec.ofNat 8 (q.2 l / 2 ^ (8 * j))) (v l) := by
  intro q
  obtain ⟨h0, h8, -⟩ := atomTy_bytes (f := f) (ty := s.now.ety) (by simpa [atomOp] using h.accepts.1)
  obtain ⟨u1, hreads, hslot, -⟩ := h.reads_self
  have hspad : u1.spad = s.spad := by rw [hslot.rest, State.readPorts_rest h.ports]
  have hcheck := State.spadCheck_ok (s := s) (as := (lanesOf i.act).map fun l => (l, spadEA (vget 0 i.a l) 0 1))
    (n := tyBits s.now.ety / 8) (read := true) (write := true) (poison := true) (cls := true)
    (fun x hx => by
      obtain ⟨l, hl, rfl⟩ := List.mem_map.mp hx
      rw [spadEA_zero]
      exact hok l hl) id
  have hkeyed : s.keyed ((lanesOf i.act).map fun l => (l, spadEA (vget 0 i.a l) 0 1)) =
      i.lanes.map fun l => (l, s.spadKeyOf ((vget 0 i.a l).toNat : Int)) := by
    unfold State.keyed
    simp only [List.map_map, spadEA_zero]
    rfl
  obtain ⟨m, vs, hfold, hbyte, hold⟩ := State.spad_updates (n := tyBits s.now.ety / 8) (by omega) (s.now.updates i cas f)
    (i.lanes.map fun l => (l, s.spadKeyOf ((vget 0 i.a l).toNat : Int))) (s := u1) (hspad ▸ hmem.1) []
  rw [hspad] at hbyte hold
  obtain ⟨u2, hput, hslot2, hgone⟩ := (hslot.with_spad m u1.spois).putLoad h.cur h.resident s.now d
    (fun l => extend (isSigned s.now.ety) (tyBits s.now.ety / 8) (laneOf vs l)) hd
  have hspois : u1.spois = r.spois := by rw [hslot.rest]
  refine ⟨u2.next s.cur, fun l => extend (isSigned s.now.ety) (tyBits s.now.ety / 8) (laneOf vs l), m, ?_, hbyte, ?_, hgone, fun l _ => ?_⟩
  · unfold State.atomS
    rw [h.mem_run rfl hi]
    simp only [hcheck, hreads, hkeyed, update_eq, hfold, List.nil_append, bind, Except.bind]
    rw [hput]
    rfl
  · rw [hspois] at hslot2
    exact hslot2
  · dsimp only
    rw [hold l]
    exact loaded_extend _ h0 h8 (atomics_lt _ _ _ _ _)

/-- Settles O25: the fold over the lanes is `atomics`, whose old values each lane loads. -/
theorem scratchpadAtomics : Obligations.ScratchpadAtomics := by
  unfold Obligations.ScratchpadAtomics
  intro s d a b f cas e r hmem hcas hf t o h hd i n w ea hok q
  have hrun : exec (if cas then .cass d a b else .atoms d a b f) s = s.atomS cas false d a b f.toNat := by
    cases cas
    · obtain ⟨h12, h9⟩ := hf rfl
      show s.atomS false (decide (12 ≤ f.toNat) || f == 9) d a b f.toNat = _
      rw [decide_eq_false (by omega), beq_eq_false_iff_ne.mpr h9]
      rfl
    · rw [hcas rfl]
      rfl
  rw [hrun]
  exact h.atomS_ok hmem hd rfl hok

end Sys2Proof.Machine

/-! Barrier objects: their fields in the scratchpad, and what each instruction makes of them (09 R248 to R252). -/
namespace Sys2Proof.Machine

/-! ### The object in memory (09 R248) -/

/-- Every field fits the bytes it has. -/
structure Bar.Fits (b : Bar) : Prop where
  gen : b.gen < 2 ^ 32
  expa : b.expa < 2 ^ 16
  penda : b.penda < 2 ^ 16
  expb : b.expb < 2 ^ 32
  pendb : b.pendb < 2 ^ 32
  tfirst : b.tfirst < 2 ^ 32
  tlast : b.tlast < 2 ^ 32
  lrole : b.lrole < 2 ^ 8
  lrow : b.lrow < 2 ^ 16
  cur : b.cur < 2 ^ 32

/-- What a scratchpad reads as is no wider than its bytes. -/
theorem Memory.read_lt (m : Memory) (a n : Nat) : m.read a n < 2 ^ (8 * n) := by
  rw [Memory.read_eq_readBytes]
  exact readBytes_lt _ _ _

theorem State.bar_fits (s : State) (k : Nat) : (s.bar k).Fits where
  gen := s.spad.read_lt _ 4
  expa := s.spad.read_lt _ 2
  penda := s.spad.read_lt _ 2
  expb := s.spad.read_lt _ 4
  pendb := s.spad.read_lt _ 4
  tfirst := s.spad.read_lt _ 4
  tlast := s.spad.read_lt _ 4
  lrole := s.spad.read_lt _ 1
  lrow := s.spad.read_lt _ 2
  cur := s.spad.read_lt _ 4

/-- The stores that write an object. -/
def Bar.stores (b : Bar) (k : Nat) : List (Nat × Nat × Nat) :=
  [(k, 4, b.gen), (k + 4, 2, b.expa), (k + 6, 2, b.penda), (k + 8, 4, b.expb), (k + 12, 4, b.pendb), (k + 16, 4, b.tfirst),
    (k + 20, 4, b.tlast), (k + 24, 1, b.lrole), (k + 25, 1, b.st.toNat + 2 * b.ovr.toNat), (k + 26, 2, b.lrow), (k + 28, 4, b.cur)]

theorem Bar.stores_within (b : Bar) (k : Nat) : ∀ w ∈ b.stores k, k ≤ w.1 ∧ w.1 + w.2.1 ≤ k + 32 := by
  simp only [Bar.stores, List.forall_mem_cons, List.not_mem_nil, false_implies, implies_true, and_true]
  omega

/-- An object written changes scratchpad bytes alone. -/
theorem State.setBar_eq (s : State) (k : Nat) (b : Bar) :
    s.setBar k b = { s with spad := (b.stores k).foldl (fun m w => m.write w.1 w.2.1 w.2.2) s.spad } :=
  s.spadStore_within (n := 32) (by decide) (b.stores_within k)

theorem State.byte_setBar_outside (s : State) {k x : Nat} (b : Bar) (h : x < k ∨ k + 32 ≤ x) :
    (s.setBar k b).spad.byte x = s.spad.byte x := by
  have hout : ∀ w ∈ b.stores k, x < w.1 ∨ w.1 + w.2.1 ≤ x := fun w hw => by
    have := b.stores_within k w hw
    omega
  rw [State.setBar_eq]
  dsimp only
  rw [Memory.byte_writes_outside (b.stores k) s.spad x hout]

theorem State.bar_setBar {s : State} {k : Nat} {b : Bar} (hs : s.spad.wf = true) (hb : b.Fits) : (s.setBar k b).bar k = b := by
  have hflags : ∀ st ovr : Bool, ((st.toNat + 2 * ovr.toNat) % 2 ^ (8 * 1) % 2 == 1) = st ∧
      ((st.toNat + 2 * ovr.toNat) % 2 ^ (8 * 1) / 2 % 2 == 1) = ovr := by decide
  rw [State.setBar_eq]
  unfold State.bar
  simp only [Memory.read_eq_readBytes, Memory.byte_writes hs]
  unfold Bar.stores
  simp (disch := omega) only [List.foldl_cons, List.foldl_nil, readBytes_storeBytes, readBytes_storeBytes_disjoint]
  obtain ⟨hst, hovr⟩ := hflags b.st b.ovr
  rw [hst, hovr, Nat.mod_eq_of_lt hb.gen, Nat.mod_eq_of_lt hb.expa, Nat.mod_eq_of_lt hb.penda, Nat.mod_eq_of_lt hb.expb,
    Nat.mod_eq_of_lt hb.pendb, Nat.mod_eq_of_lt hb.tfirst, Nat.mod_eq_of_lt hb.tlast, Nat.mod_eq_of_lt hb.lrole,
    Nat.mod_eq_of_lt hb.lrow, Nat.mod_eq_of_lt hb.cur]

/-! ### An arrival (09 R249) -/

/-- An arrival by a row: what the counts and the flags become, and the generation that it may complete. -/
theorem Bar.arrive_row (o : Bar) (n now role lrow : Nat) :
    o.arrive true n now role lrow =
      let first := if o.st then o.cur else now % 2 ^ 32
      let o1 := { o with cur := first, ovr := o.ovr || decide (o.penda = 0) || decide (o.pendb < n) }
      if o.penda - 1 = 0 ∧ o.pendb - n = 0 then
        { o1 with tfirst := first, tlast := now % 2 ^ 32, lrole := role, lrow := lrow, gen := (o.gen + 1) % 2 ^ 32
                  penda := o.expa, pendb := o.expb, st := false }
      else { o1 with penda := o.penda - 1, pendb := o.pendb - n, st := true } := by
  obtain ⟨gen, expa, penda, expb, pendb, tfirst, tlast, lrole, st, ovr, lrow0, cur⟩ := o
  have hn : pendb < n → pendb - n = 0 := fun h => by omega
  unfold Bar.arrive
  by_cases ha : penda = 0 <;> by_cases hb : pendb < n <;> cases st <;> simp [ha, hb, hn]

theorem Bar.Fits.arrive {o : Bar} (h : o.Fits) (n : Nat) {now role lrow : Nat} (hrole : role < 2 ^ 8) (hrow : lrow < 2 ^ 16) :
    (o.arrive true n now role lrow).Fits := by
  have hfirst : (if o.st then o.cur else now % 2 ^ 32) < 2 ^ 32 := by
    split
    · exact h.cur
    · exact Nat.mod_lt _ (by decide)
  rw [Bar.arrive_row]
  dsimp only
  split
  · exact { gen := Nat.mod_lt _ (by decide), expa := h.expa, penda := h.expa, expb := h.expb, pendb := h.expb, tfirst := hfirst
            tlast := Nat.mod_lt _ (by decide), lrole := hrole, lrow := hrow, cur := hfirst }
  · exact { h with penda := Nat.lt_of_le_of_lt (Nat.sub_le _ _) h.penda, pendb := Nat.lt_of_le_of_lt (Nat.sub_le _ _) h.pendb
                   cur := hfirst }

/-! ### The run of a barrier instruction -/

section
variable {s : State} {a b : Src} {k : Nat}

/-- The object's address checked as an atomic's. -/
theorem State.barrier_check {n : Nat} (h : s.spadOk n n true (s.scalar s.now a).toNat k) (cls : Bool) :
    s.spadCheck s.cur s.now [(0, ((s.scalar s.now a).toNat : Int))] n n true true cls = .ok [(0, k)] := by
  rw [State.spadCheck_ok (read := true) (fun x hx => by
    obtain rfl := List.mem_singleton.mp hx
    exact ⟨k, h⟩) id]
  unfold State.keyed
  rw [List.map_singleton, State.spadKeyOf_eq h.1.1]

/-- A barrier instruction with two operands, its checks passed. -/
theorem CtlReady.barrier_run (h : CtlReady s (immSrcs s.now a b) []) (ha : scalarOk a = true) {imm : Bool}
    (hb : (if imm then immOk s.now b else scalarOk b && s.now.pximm.isNone) = true)
    (hk : s.spadOk 32 32 true (s.scalar s.now a).toNat k) (cls : Bool) {value : Word → Except Stop Unit}
    (hv : value (s.immVal s.now b) = .ok ()) (body : Nat → Seat → State → Nat → Word → Except Stop State) :
    s.barrier a (some b) imm false cls value body =
      s.close s.cur (body s.cur s.now (s.readScalars s.cur s.now (immSrcs s.now a b)) k (s.immVal s.now b)) := by
  have hnow : s.seat s.cur = s.now := rfl
  have hcheck := h.check
  unfold State.barrier State.run
  rw [hnow]
  simp only [h.resident, if_true, ha, hb, Bool.and_self, Bool.not_true, Bool.or_self, hcheck, hv,
    State.barrier_check hk cls, bind, Except.bind, List.map_cons, List.map_nil, List.headD_cons]

/-- A barrier instruction that reads the object alone. -/
theorem CtlReady.barrier_run_one (h : CtlReady s [a] []) (ha : scalarOk a = true) {imm : Bool}
    (hk : s.spadOk 32 32 true (s.scalar s.now a).toNat k) (cls : Bool) {value : Word → Except Stop Unit}
    (hv : value 0 = .ok ()) (body : Nat → Seat → State → Nat → Word → Except Stop State) :
    s.barrier a none imm false cls value body =
      s.close s.cur (body s.cur s.now (s.readScalars s.cur s.now [a]) k 0) := by
  have hnow : s.seat s.cur = s.now := rfl
  have hcheck := h.check
  rw [List.map_singleton] at hcheck
  unfold State.barrier State.run
  rw [hnow]
  simp only [h.resident, if_true, ha, Bool.and_self, Bool.not_true, Bool.or_self, hcheck, hv,
    State.barrier_check hk cls, bind, Except.bind, List.map_cons, List.map_nil, List.headD_cons]

/-- The scalars of a slot read: the seat and its latches. -/
theorem CtlReady.scalars {srcs : List Src} {masks : List Nat} (h : CtlReady s srcs masks) :
    Slot s (s.readScalars s.cur s.now srcs) s.now ∧
      Holds4 (s.readScalars s.cur s.now srcs) s.cur s.now.lat s.now.latpois :=
  ⟨(Slot.refl s).readScalars h.resident _ _, Holds4.readScalars ⟨h.resident, rfl, rfl⟩ _ _⟩

/-- The instruction writes the object at `k` and nothing else. -/
def State.Rewrites (s : State) (i : Instr) (k : Nat) (o : Bar) : Prop :=
  ∃ u, exec i s = .next u ∧ LatchesKept s u ∧ u.bar k = o ∧ Slot { s with spad := u.spad } u s.now.advance ∧
    ∀ x, x < k ∨ k + 32 ≤ x → u.spad.byte x = s.spad.byte x

theorem CtlReady.rewrites {srcs : List Src} {masks : List Nat} (h : CtlReady s srcs masks) (hmem : MemOk s) {i : Instr} {o : Bar}
    (ho : o.Fits)
    (hexec : exec i s = .next (((s.readScalars s.cur s.now srcs).setBar k o).next s.cur)) : s.Rewrites i k o := by
  obtain ⟨hslot, hlats⟩ := h.scalars
  have hbar := State.bar_setBar (s := s.readScalars s.cur s.now srcs) (k := k) hmem.1 ho
  have hout := fun x hx => State.byte_setBar_outside (s.readScalars s.cur s.now srcs) (k := k) (x := x) o hx
  obtain ⟨m, hm⟩ : ∃ m, (s.readScalars s.cur s.now srcs).setBar k o = { s.readScalars s.cur s.now srcs with spad := m } :=
    ⟨_, State.setBar_eq _ _ _⟩
  rw [hm] at hexec hbar hout
  exact ⟨_, hexec, Holds4.kept rfl (hlats.next.congr rfl), hbar, (hslot.next rfl h.resident).with_spad m s.spois, hout⟩

/-! ### BARI, BARX and BARV -/

theorem CtlReady.bari (h : CtlReady s [a, b] []) (hmem : MemOk s) (ha : scalarOk a = true) (hb : scalarOk b = true)
    (hx : s.now.pximm = none) (hk : s.spadOk 32 32 true (s.scalar s.now a).toNat k)
    (hlow : (s.immVal s.now b).extractLsb' 16 16 = 0) (hany : (s.immVal s.now b).setWidth 16 ≠ 0#16 ∨ s.immVal s.now b >>> 32 ≠ 0) :
    let x := (s.immVal s.now b).toNat % 2 ^ 16
    let y := (s.immVal s.now b).toNat / 2 ^ 32
    s.Rewrites (.bari a b) k { s.bar k with expa := x, penda := x, expb := y, pendb := y, st := false, ovr := false } := by
  intro x y
  have hsrcs : immSrcs s.now a b = [a, b] := by unfold immSrcs; rw [hx]; rfl
  have hx16 : x < 2 ^ 16 := Nat.mod_lt _ (by decide)
  have hy32 : y < 2 ^ 32 := Nat.div_lt_of_lt_mul (s.immVal s.now b).isLt
  have hvalue : ((s.immVal s.now b).extractLsb' 16 16 != 0 ||
      ((s.immVal s.now b).setWidth 16 == 0#16 && s.immVal s.now b >>> 32 == 0)) = false := by
    rw [hlow]
    simpa [Classical.or_iff_not_imp_left] using hany
  refine (hsrcs ▸ h).rewrites hmem { s.bar_fits k with expa := hx16, penda := hx16, expb := hy32, pendb := hy32 } ?_
  show execBari a b s = _
  unfold execBari
  rw [(hsrcs ▸ h : CtlReady s (immSrcs s.now a b) []).barrier_run ha (by rw [hb, hx]; rfl) hk false
    (by rw [hvalue]; rfl)]
  rfl

theorem countOk_ok {v : Word} (h : v >>> 32 = 0) : countOk v = .ok () := by
  unfold countOk trapIf
  rw [h]
  rfl

theorem toNat_lt_of_shift {v : Word} (h : v >>> 32 = 0) : v.toNat < 2 ^ 32 := by
  have := congrArg BitVec.toNat h
  rw [BitVec.toNat_ushiftRight, Nat.shiftRight_eq_div_pow] at this
  exact (Nat.div_eq_zero_iff_lt (by decide)).mp this

section
variable (h : CtlReady s (immSrcs s.now a b) []) (ha : scalarOk a = true) (hb : immOk s.now b = true)
  (hk : s.spadOk 32 32 true (s.scalar s.now a).toNat k)
include h ha hb hk

theorem CtlReady.barx (hmem : MemOk s) (hv : s.immVal s.now b >>> 32 = 0) :
    s.Rewrites (.barx a b) k { s.bar k with
      pendb := min ((s.bar k).pendb + (s.immVal s.now b).toNat) (2 ^ 32 - 1)
      ovr := (s.bar k).ovr || decide (2 ^ 32 ≤ (s.bar k).pendb + (s.immVal s.now b).toNat) } := by
  refine h.rewrites hmem { s.bar_fits k with pendb := Nat.lt_of_le_of_lt (Nat.min_le_right _ _) (by decide) } ?_
  show execBarx a b s = _
  unfold execBarx
  rw [h.barrier_run (imm := true) ha hb hk false (countOk_ok hv)]
  show s.close s.cur (.ok _) = _
  refine congrArg (fun o => Host.Outcome.next (((s.readScalars s.cur s.now (immSrcs s.now a b)).setBar k o).next s.cur)) ?_
  show (if (s.bar k).pendb + (s.immVal s.now b).toNat < 2 ^ 32 then _ else _) = _
  split
  · rw [Nat.min_eq_left (by omega), decide_eq_false (by omega), Bool.or_false]
    rfl
  · rw [Nat.min_eq_right (by omega), decide_eq_true (by omega), Bool.or_true]
    rfl

theorem CtlReady.barv_waits (hv : s.immVal s.now b >>> 32 = 0) {f : BitVec 4} (hf : f.toNat < 6)
    (hr : s.released s.cur s.now f.toNat = false) : exec (.barv a b f) s = .next { s with stalled := true } := by
  show execBarv a b f s = _
  unfold execBarv badScope
  rw [decide_eq_false (by omega), h.barrier_run (imm := true) ha hb hk false (countOk_ok hv), hr]
  rfl

theorem CtlReady.barv (hmem : MemOk s) (hv : s.immVal s.now b >>> 32 = 0) {f : BitVec 4} (hf : f.toNat < 6)
    (hr : s.released s.cur s.now f.toNat = true) :
    s.Rewrites (.barv a b f) k ((s.bar k).arrive true (s.immVal s.now b).toNat s.time.toNat (s.now.bind.role % 16)
      (s.now.bind.srow % 256 + s.now.bind.string % 256 * 256)) := by
  refine h.rewrites hmem ((s.bar_fits k).arrive _ (by omega) (by omega)) ?_
  show execBarv a b f s = _
  unfold execBarv badScope
  rw [decide_eq_false (by omega), h.barrier_run (imm := true) ha hb hk false (countOk_ok hv), hr]
  rfl

/-! ### BARW -/

theorem CtlReady.barw (hg : 0 < (BitVec.ofNat 32 (s.bar k).gen - (s.immVal s.now b).setWidth 32).toInt) :
    Parks (.barw a b) s { s.now with gwct := laterGwct (s.core (s.cur / 256)).gwct s.now.gwct }.advance := by
  obtain ⟨hslot, -⟩ := h.scalars
  have hacquired := hslot.acquireGwct rfl h.resident
  obtain ⟨hdone, hgone⟩ := hacquired.done rfl h.resident
  refine ⟨_, ?_, hdone, hgone⟩
  show execBarw a b s = _
  unfold execBarw
  rw [h.barrier_run (imm := true) ha hb hk true rfl]
  show s.close s.cur (if genPast (s.bar k).gen (s.immVal s.now b) then _ else _) = _
  have hpast : genPast (s.bar k).gen (s.immVal s.now b) = true := decide_eq_true hg
  rw [if_pos hpast]
  rfl

theorem CtlReady.barw_parks (hg : (BitVec.ofNat 32 (s.bar k).gen - (s.immVal s.now b).setWidth 32).toInt ≤ 0) :
    ∃ u, exec (.barw a b) s = .next u ∧ LatchesGone u ∧ u.now.status = .parked (.barrier k (s.immVal s.now b)) ∧
      u.now.pc = s.now.pc ∧ u.now.slot = s.now.slot ∧ u.now.x = s.now.x ∧ u.now.s = s.now.s ∧ SameBytes s u := by
  have hexec : exec (.barw a b) s = .next (s.stop s.cur (.park (.barrier k (s.immVal s.now b)) true)) := by
    show execBarw a b s = _
    unfold execBarw
    rw [h.barrier_run (imm := true) ha hb hk true rfl]
    show s.close s.cur (if genPast (s.bar k).gen (s.immVal s.now b) then _ else _) = _
    rw [if_neg (by unfold genPast; simpa using hg)]
    rfl
  have hnow : (s.stop s.cur (.park (.barrier k (s.immVal s.now b)) true)).now =
      { s.now.dropLatches with held := some (s.now.lat, s.now.latpois), status := .parked (.barrier k (s.immVal s.now b)), skip := 0 } :=
    State.seat_setSeat_self _ _ rfl
  exact ⟨_, hexec, LatchesGone.of (by rw [hnow]; rfl), by rw [hnow], by rw [hnow]; rfl, by rw [hnow]; rfl, by rw [hnow]; rfl,
    by rw [hnow]; rfl, fun _ => rfl, fun _ => rfl⟩

end

/-! ### BARS -/

theorem CtlReady.bars (h : CtlReady s [a] []) (ha : scalarOk a = true)
    (hk : s.spadOk 32 32 true (s.scalar s.now a).toNat k) (d : Dst) {f : BitVec 4} (hf : f.toNat ≤ 4) :
    Writes (.bars d a f) s d (s.barRead k f.toNat) := by
  obtain ⟨hslot, hlats⟩ := h.scalars
  have hput := (hslot.putScalar h.resident d (s.barRead k f.toNat)).next rfl (by split <;> simp [h.resident])
  refine ⟨_, ?_, hput, Latched.of_lats hput.cur (hlats.lats.putScalar d _).next rfl rfl⟩
  show execBars d a f s = _
  unfold execBars
  rw [decide_eq_false (by omega), h.barrier_run_one ha hk false rfl]
  rfl

end

/-- Settles O33: every instruction runs on the object at its key, which its fields' stores write whole. -/
theorem barriers : Obligations.Barriers := by
  unfold Obligations.Barriers
  intro s a b k hmem ha hk v o now does
  refine ⟨fun h hb hx hlow hany => h.bari hmem ha hb hx hk hlow hany, fun h hb => ⟨fun hv => ⟨h.barx ha hb hk hmem hv, fun f hf =>
    ⟨h.barv_waits ha hb hk hv hf, fun hr => ?_⟩⟩, h.barw ha hb hk, h.barw_parks ha hb hk⟩,
    fun h d => ⟨fun f hf => ⟨_, h.bars ha hk d (by omega), ?_⟩, h.bars ha hk d (f := 4) (by decide)⟩⟩
  · have hbarv := h.barv ha hb hk hmem hv hf hr
    rw [Bar.arrive_row] at hbarv
    dsimp only at hbarv ⊢
    split at hbarv
    · rw [if_pos ‹_›]
      exact hbarv
    · rw [if_neg ‹_›]
      exact hbarv
  · unfold State.barRead
    rw [if_pos hf, Memory.read_eq_readBytes, ← extend_eight (sg := false) (readBytes_lt _ 8 _)]
    exact loaded_readBytes s.spad.byte _ _ (by decide) (by decide)

end Sys2Proof.Machine

/-! What the checks of a global access answer where they pass: each lane's place, and the machine with the peers' answers taken
(07 R180, R188 to R191). -/
namespace Sys2Proof.Machine

/-! ### A body that answers -/

/-- Where a body answers, its answer satisfies `Q`. -/
def Answers {α : Type} (Q : α → Prop) (x : Except Stop α) : Prop := ∀ a, x = .ok a → Q a

theorem answers_ok {α : Type} {Q : α → Prop} {a : α} (h : Q a) : Answers Q (.ok a : Except Stop α) := fun b hb => by
  cases hb
  exact h

theorem answers_error {α : Type} {Q : α → Prop} (e : Stop) : Answers Q (.error e : Except Stop α) := nofun

theorem answers_bind {α β : Type} {Q : β → Prop} {x : Except Stop α} {f : α → Except Stop β}
    (h : ∀ a, x = .ok a → Answers Q (f a)) : Answers Q (x >>= f) := by
  cases x with
  | error e => exact answers_error e
  | ok a => exact h a rfl

theorem failTrap_ok {s : State} {code : Nat} {write : Bool} {aux : Nat} {bad : List (Nat × Word)} {a : Unit}
    (h : failTrap s code write aux bad = .ok a) : bad = [] := by
  cases bad with
  | nil => rfl
  | cons => cases h

/-! ### The answer -/

/-- Where the accesses of a list go, their translations and the peers' answers being given. -/
def placesOf (ys : List (Nat × Word × Xlate × PeerReply)) : List LaneLoc :=
  ys.filterMap fun y => match y.2.2.1 with
    | .mem pa nc => some (y.1, y.2.1, .mem pa nc)
    | .peer => some (y.1, y.2.1, .peer y.2.2.2)
    | _ => none

/-- The accesses of a list with their translations. -/
def State.translated (s : State) (p d : Nat) (as : List (Nat × Word)) (k : AccKind) : List (Nat × Word × Xlate) :=
  as.map fun a => (a.1, a.2, s.xlate p d a.2 k)

/-- The checks have passed: every access is aligned, each goes to its place, and the answers that it took are gone. -/
def State.Placed (s : State) (xs : List (Nat × Word × Xlate)) (mis : List (Nat × Word)) (r : List LaneLoc × State) : Prop :=
  mis = [] ∧ ∃ ys rest out, takeReplies xs s.peerReplies = some (ys, rest) ∧
    r = (placesOf ys, { s with peerReplies := rest, spanOut := out })

theorem State.gcheck_answers (s : State) (p d : Nat) (sid : Option Nat) (as mis : List (Nat × Word)) (n : Nat)
    (write read : Bool) (op : Nat → Option PeerOp) :
    Answers (s.Placed (s.translated p d as (if write then .write else .read)) mis) (s.gcheck p d sid as mis n write read op) := by
  unfold State.gcheck
  extract_lets xs sw asked own met
  show Answers (s.Placed xs mis) _
  clear_value xs
  have hasked : ∀ r, Answers (s.Placed xs mis) (asked r) := fun r => by
    dsimp only [asked]
    split
    · exact answers_error _
    · rename_i ys rest hys
      refine answers_bind fun _ _ => answers_bind fun _ hmis => answers_bind fun _ _ => answers_bind fun _ _ => ?_
      have hend : Answers (s.Placed xs mis)
          (pure (placesOf ys, { s with peerReplies := rest, spanOut := s.spanOut ++ s.frames p op ys (fun _ => true) })) :=
        answers_ok ⟨failTrap_ok hmis, ys, rest, _, hys, rfl⟩
      repeat' first
        | exact hend
        | exact answers_error _
        | refine answers_bind fun _ _ => ?_
        | split
  clear_value asked
  have hown : ∀ r, Answers (s.Placed xs mis) (own r) := fun r => by
    dsimp only [own]
    refine answers_bind fun _ _ => ?_
    split
    · exact answers_bind fun _ _ => hasked _
    · exact hasked _
  clear_value own
  have hmet : ∀ r, Answers (s.Placed xs mis) (met r) := fun r => by
    dsimp only [met]
    split
    · exact answers_bind fun _ _ => hown _
    · exact hown _
  clear_value met
  split <;> exact answers_bind fun _ _ => hmet _

/-! ### What stands in the answer -/

theorem takeReplies_translations {xs : List (Nat × Word × Xlate)} {rs rest : List PeerReply}
    {ys : List (Nat × Word × Xlate × PeerReply)} (h : takeReplies xs rs = some (ys, rest)) :
    ys.map (fun y => (y.1, y.2.1, y.2.2.1)) = xs := by
  induction xs, rs using takeReplies.induct generalizing ys with
  | case1 => cases h; rfl
  | case2 => simp [takeReplies] at h
  | case3 l va xs r rs hr ih =>
    rw [takeReplies, if_neg hr] at h
    obtain ⟨⟨zs, rest'⟩, hzs, heq⟩ := Option.map_eq_some_iff.mp h
    cases heq
    rw [List.map_cons, ih hzs]
  | case4 => simp [takeReplies] at h
  | case5 rs l va x xs h1 h2 ih =>
    rw [takeReplies] at h
    · obtain ⟨⟨zs, rest'⟩, hzs, heq⟩ := Option.map_eq_some_iff.mp h
      cases heq
      rw [List.map_cons, ih hzs]
    · exact h1
    · exact h2

theorem mem_placesOf {ys : List (Nat × Word × Xlate × PeerReply)} {l pa : Nat} {va : Word} {nc : Bool}
    (h : (l, va, Loc.mem pa nc) ∈ placesOf ys) : (l, va, Xlate.mem pa nc) ∈ ys.map (fun y => (y.1, y.2.1, y.2.2.1)) := by
  obtain ⟨⟨l', va', x, r⟩, hy, hplace⟩ := List.mem_filterMap.mp h
  refine List.mem_map.mpr ⟨_, hy, ?_⟩
  cases x <;> simp at hplace ⊢
  exact ⟨hplace.1, hplace.2.1, hplace.2.2⟩

/-- The lanes of the places are those of the accesses, in their order. -/
theorem pairwise_placesOf {ys : List (Nat × Word × Xlate × PeerReply)} (h : (ys.map fun y => y.1).Nodup) :
    ((placesOf ys).map fun x => x.1).Nodup := by
  have hlane : ∀ {y : Nat × Word × Xlate × PeerReply} {x : LaneLoc}, (match y.2.2.1 with
      | .mem pa nc => some (y.1, y.2.1, Loc.mem pa nc)
      | .peer => some (y.1, y.2.1, Loc.peer y.2.2.2)
      | _ => none) = some x → x.1 = y.1 := fun {y x} hx => by
    split at hx <;> cases hx <;> rfl
  refine List.pairwise_map.mpr ((List.pairwise_map.mp h).filterMap _ fun y y' hy x hx x' hx' => ?_)
  rw [hlane hx, hlane hx']
  exact hy

/-- A page is a multiple of every element's size, and so a leaf keeps an address's place in its sector (13 R325). -/
theorem State.leafCheck_mem {s : State} {p va level pa : Nat} {k : AccKind} {e : Word} {nc : Bool}
    (h : s.leafCheck p va k e level = .mem pa nc) : pa = pteAddr e + va % pageSize level := by
  unfold State.leafCheck at h
  dsimp only at h
  split at h
  · cases h
  · split at h
    · cases h
    · split at h
      · cases h
      · split at h
        · split at h <;> cases h
          rfl
        · split at h <;> cases h
          rfl
        · cases h
          rfl

theorem State.xlate_mem_mod {s : State} {p d pa n : Nat} {va : Word} {k : AccKind} {nc : Bool}
    (h : s.xlate p d va k = .mem pa nc) (hn : n ∣ 2 ^ 12) : pa % n = va.toNat % n := by
  unfold State.xlate at h
  split at h
  · cases h
  · split at h
    · split at h
      · cases h
      · dsimp only at h
        split at h <;> cases h
    · split at h <;> try cases h
      rename_i e level _
      have hpage : n ∣ pageSize level := by
        unfold pageSize
        rw [Nat.pow_add]
        exact hn.mul_right _
      have hadr : n ∣ pteAddr e := hn.mul_left _
      rw [State.leafCheck_mem h, Nat.add_mod, Nat.mod_mod_of_dvd _ hpage, Nat.mod_eq_zero_of_dvd hadr, Nat.zero_add, Nat.mod_mod]

/-- What is known where the checks of a global access have passed. -/
structure State.Places (s : State) (as : List (Nat × Word)) (n : Nat) (ls : List LaneLoc) (s1 : State) : Prop where
  state : s1 = { s with peerReplies := s1.peerReplies, spanOut := s1.spanOut }
  lanes : (as.map Prod.fst).Nodup → (ls.map fun x => x.1).Nodup
  aligned : n ∣ 2 ^ 12 → ∀ x ∈ memLocs ls, x.2 % n = 0

theorem mem_memLocs {ls : List LaneLoc} {x : Nat × Nat} : x ∈ memLocs ls ↔ ∃ va nc, (x.1, va, Loc.mem x.2 nc) ∈ ls := by
  unfold memLocs
  rw [List.mem_filterMap]
  constructor
  · rintro ⟨⟨l, va, loc⟩, hy, hx⟩
    cases loc with
    | mem pa nc => cases hx; exact ⟨va, nc, hy⟩
    | peer r => cases hx
  · rintro ⟨va, nc, hy⟩
    exact ⟨_, hy, rfl⟩

/-- The answer of a global access whose misaligned lanes stop it. -/
theorem State.global_places {s : State} {as : List (Nat × Word)} {n : Nat} {write read : Bool} {op : Nat → Option PeerOp}
    {ls : List LaneLoc} {s1 : State}
    (h : s.global as (as.filter fun x => decide (x.2.toNat % n ≠ 0)) n write read op ls s1) : s.Places as n ls s1 := by
  obtain ⟨hmis, ys, rest, out, htake, heq⟩ := s.gcheck_answers _ _ _ _ _ _ _ _ _ _ h
  cases heq
  have htrans := takeReplies_translations htake
  refine ⟨rfl, fun hnodup => pairwise_placesOf ?_, fun hn x hx => ?_⟩
  · have hfst := congrArg (List.map fun x => x.1) htrans
    rw [List.map_map, State.translated, List.map_map] at hfst
    exact hfst ▸ hnodup
  · obtain ⟨va, nc, hmem⟩ := mem_memLocs.mp hx
    have hx := mem_placesOf hmem
    rw [htrans] at hx
    obtain ⟨a, ha, heq⟩ := List.mem_map.mp hx
    injection heq with hl hrest
    injection hrest with hva hxl
    rw [State.xlate_mem_mod hxl hn]
    simpa using List.filter_eq_nil_iff.mp hmis a ha

end Sys2Proof.Machine

/-! Stores at the homes: the bytes, the issuing core's valid sectors, the marks, and the write completion times (07 R192, R199;
08 R213, R217). -/
namespace Sys2Proof.Machine

/-! ### Cores -/

theorem State.core_setCore_self (s : State) {c : Nat} (u : CoreUnit) (h : c < 64) : (s.setCore c u).core c = u :=
  vget_vset_self h _ _ _

theorem State.core_setCore_ne (s : State) {c k : Nat} (u : CoreUnit) (h : k ≠ c) : (s.setCore c u).core k = s.core k :=
  vget_vset_ne h.symm _ _ _

theorem State.core_congr {s u : State} (h : u.cores = s.cores) (k : Nat) : u.core k = s.core k := by
  unfold State.core
  rw [h]

/-- There are 64 cores. -/
theorem State.core_none (s : State) {c : Nat} (h : 64 ≤ c) : s.core c = CoreUnit.reset := by
  unfold State.core vget
  rw [List.getD_eq_getElem?_getD, List.getElem?_eq_none (by simpa using h)]
  rfl

theorem State.setCore_none (s : State) {c : Nat} (u : CoreUnit) (h : 64 ≤ c) (k : Nat) : (s.setCore c u).core k = s.core k := by
  show vget _ (vset s.cores c u) k = _
  rw [vget_vset, if_neg (by omega)]
  rfl

/-! ### What a store may change -/

/-- Nothing but HBM, its marks, the caches and the count of elided sectors is another. -/
def HomesOnly (u v : State) : Prop :=
  v = { u with hbm := v.hbm, cores := v.cores, hpois := v.hpois, hue := v.hue, elided := v.elided }

theorem HomesOnly.refl (u : State) : HomesOnly u u := rfl

theorem HomesOnly.trans {u v w : State} (h : HomesOnly u v) (h' : HomesOnly v w) : HomesOnly u w := by
  unfold HomesOnly at h h' ⊢
  rw [h', h]

/-! ### One store -/

theorem State.put_rest (s : State) (c : Option Nat) (pa n v : Nat) :
    s.put c pa n v = { s with hbm := (s.put c pa n v).hbm, cores := (s.put c pa n v).cores } := by
  have hw := s.hwrite_rest pa n v
  unfold State.put
  split
  · conv_lhs => rw [hw]
    rw [hw]
  · split
    · conv_lhs => rw [hw]
      rw [hw]
    · unfold State.setCore
      rw [hw]

theorem State.put_homes (s : State) (c : Option Nat) (pa n v : Nat) : HomesOnly s (s.put c pa n v) := by
  unfold HomesOnly
  rw [State.put_rest]

theorem State.put_hbyte {s : State} (h : MemOk s) (c : Option Nat) (pa n v : Nat) :
    (s.put c pa n v).hbyte = storeBytes s.hbyte pa n v := by
  rw [← State.hbyte_hwrite h]
  unfold State.put
  split
  · rfl
  · split <;> rfl

/-- The sector that a store leaves in its core's cache. -/
def Sector.stored (e : Sector) (pa n v : Nat) : Sector :=
  { e with data := tab 32 (fun i => if pa % 32 ≤ i ∧ i < pa % 32 + n then
      BitVec.ofNat 8 (v / 2 ^ (8 * (i - pa % 32))) else vget 0 e.data i) }

theorem State.put_none {s : State} {c pa : Nat} (h : s.cached c pa = none) (n v : Nat) :
    (s.put (some c) pa n v).cores = s.cores := by
  unfold State.put
  simp only [h]
  rw [State.hwrite_rest]

theorem State.put_some {s : State} {c pa : Nat} {e : Sector} (h : s.cached c pa = some e) (n v : Nat) :
    (s.put (some c) pa n v).cores =
      (s.setCore c { s.core c with lcache := Sparse.set none (s.core c).lcache (paSector pa) (some (e.stored pa n v)) }).cores := by
  unfold State.put
  simp only [h]
  unfold State.setCore State.core
  rw [State.hwrite_rest]
  rfl

/-- A store brings its core no completion time of its own. -/
theorem State.put_gwct (s : State) (c : Option Nat) (pa n v k : Nat) : ((s.put c pa n v).core k).gwct = (s.core k).gwct := by
  cases c with
  | none =>
    show ((s.hwrite pa n v).core k).gwct = _
    rw [State.hwrite_rest]
    rfl
  | some c =>
    cases hc : s.cached c pa with
    | none => rw [State.core_congr (State.put_none hc n v)]
    | some e =>
      rw [State.core_congr (State.put_some hc n v)]
      by_cases hk : k = c ∧ c < 64
      · obtain ⟨rfl, h64⟩ := hk
        rw [State.core_setCore_self _ _ h64]
      · unfold State.setCore State.core
        rw [vget_vset, if_neg (by rintro ⟨rfl, h⟩; exact hk ⟨rfl, h⟩)]

/-- In the sector that is stored to, a byte is the store's or the earlier one. -/
theorem Sector.stored_data (e : Sector) {pa n j : Nat} (v : Nat) (hj : j < 32) :
    vget 0 (e.stored pa n v).data j =
      if pa ≤ paSector pa * 32 + j ∧ paSector pa * 32 + j < pa + n then BitVec.ofNat 8 (v / 2 ^ (8 * (paSector pa * 32 + j - pa)))
      else vget 0 e.data j := by
  have hsplit : pa = paSector pa * 32 + pa % 32 := by unfold paSector; omega
  unfold Sector.stored
  rw [vget_tab_lt hj]
  by_cases h : pa % 32 ≤ j ∧ j < pa % 32 + n
  · rw [if_pos h, if_pos (by omega), show paSector pa * 32 + j - pa = j - pa % 32 by omega]
  · rw [if_neg h, if_neg (by omega)]

/-- A core outside the module holds nothing. -/
theorem State.cached_none (s : State) {c : Nat} (h : 64 ≤ c) (pa : Nat) : s.cached c pa = none := by
  unfold State.cached
  rw [s.core_none h]
  rfl

/-! ### The caches behind a run of stores -/

/-- What a run of stores of `n` bytes at these addresses has left of the caches: the issuing core's valid sectors hold what the
homes hold where they were stored to. -/
structure CachesFollow (s u : State) (n : Nat) (pas : List Nat) : Prop where
  time : u.time = s.time
  others : ∀ k, k ≠ s.cur / 256 → u.core k = s.core k
  own : u.core (s.cur / 256) =
    { s.core (s.cur / 256) with lcache := (u.core (s.cur / 256)).lcache, gwct := (u.core (s.cur / 256)).gwct }
  form : Sparse.wf none (s.core (s.cur / 256)).lcache = true → Sparse.wf none (u.core (s.cur / 256)).lcache = true
  sectors : Sparse.wf none (s.core (s.cur / 256)).lcache = true → ∀ pa, match s.cached (s.cur / 256) pa with
    | none => u.cached (s.cur / 256) pa = none
    | some e => ∃ e', u.cached (s.cur / 256) pa = some e' ∧ e'.expiry = e.expiry ∧ ∀ j, j < 32 →
      vget 0 e'.data j = if ∃ x ∈ pas, x ≤ paSector pa * 32 + j ∧ paSector pa * 32 + j < x + n then
        u.hbyte (paSector pa * 32 + j) else vget 0 e.data j

theorem CachesFollow.refl (s : State) (n : Nat) : CachesFollow s s n [] where
  time := rfl
  others := fun _ _ => rfl
  own := rfl
  form := id
  sectors := fun _ pa => by
    split
    · assumption
    · exact ⟨_, ‹_›, rfl, fun j _ => by simp⟩

theorem CachesFollow.stored {s u : State} {n : Nat} {pas : List Nat} (h : CachesFollow s u n pas) : CachesStored s u n pas :=
  ⟨h.others, h.own, h.sectors⟩

/-- A machine whose caches, clock and bytes are the same. -/
theorem CachesFollow.congr {s u u' : State} {n : Nat} {pas : List Nat} (h : CachesFollow s u n pas) (hc : u'.cores = u.cores)
    (ht : u'.time = u.time) (hb : u'.hbyte = u.hbyte) : CachesFollow s u' n pas := by
  have hcore := State.core_congr hc
  have hcached : ∀ k pa, u'.cached k pa = u.cached k pa := fun k pa => by unfold State.cached; rw [hcore, ht]
  obtain ⟨time, others, own, form, sectors⟩ := h
  refine ⟨ht.trans time, fun k hk => (hcore k).trans (others k hk), ?_, ?_, ?_⟩
  · rw [hcore]; exact own
  · rw [hcore]; exact form
  · simp only [hcached, hb]; exact sectors

/-- Only the core's write completion time is another. -/
theorem CachesFollow.gwct {s u : State} {n : Nat} {pas : List Nat} (h : CachesFollow s u n pas) (g : Option Nat) :
    CachesFollow s (u.setCore (s.cur / 256) { u.core (s.cur / 256) with gwct := g }) n pas := by
  by_cases hc : s.cur / 256 < 64
  · have hself := u.core_setCore_self { u.core (s.cur / 256) with gwct := g } hc
    have hcached : ∀ pa, (u.setCore (s.cur / 256) { u.core (s.cur / 256) with gwct := g }).cached (s.cur / 256) pa =
        u.cached (s.cur / 256) pa := fun pa => by unfold State.cached; rw [hself]; rfl
    refine ⟨h.time, fun k hk => (u.core_setCore_ne _ hk).trans (h.others k hk), ?_, ?_, ?_⟩
    · rw [hself, h.own]
    · rw [hself]; exact h.form
    · simp only [hcached]; exact h.sectors
  · have hnone := u.setCore_none { u.core (s.cur / 256) with gwct := g } (Nat.le_of_not_lt hc)
    have hcached : ∀ k pa, (u.setCore (s.cur / 256) { u.core (s.cur / 256) with gwct := g }).cached k pa = u.cached k pa :=
      fun k pa => by unfold State.cached; rw [hnone]; rfl
    refine ⟨h.time, fun k hk => (hnone k).trans (h.others k hk), ?_, ?_, ?_⟩
    · rw [hnone]; exact h.own
    · rw [hnone]; exact h.form
    · simp only [hcached]; exact h.sectors

/-- Another store, within its sector. -/
theorem CachesFollow.put {s u : State} {n : Nat} {pas : List Nat} (h : CachesFollow s u n pas) (hu : MemOk u) {pa : Nat}
    (hin : pa % 32 + n ≤ 32) (v : Nat) : CachesFollow s (u.put (some (s.cur / 256)) pa n v) n (pas ++ [pa]) := by
  have htime : (u.put (some (s.cur / 256)) pa n v).time = s.time := by rw [State.put_rest]; exact h.time
  have hbyte := State.put_hbyte hu (some (s.cur / 256)) pa n v
  have hcovered : ∀ a, (∃ x ∈ pas ++ [pa], x ≤ a ∧ a < x + n) ↔ (∃ x ∈ pas, x ≤ a ∧ a < x + n) ∨ pa ≤ a ∧ a < pa + n := by
    intro a
    simp [or_and_right, exists_or]
  -- a byte that the store does not reach is as before
  have hkeep : ∀ a e e', ¬(pa ≤ a ∧ a < pa + n) → (e' = if ∃ x ∈ pas, x ≤ a ∧ a < x + n then u.hbyte a else e) →
      e' = if ∃ x ∈ pas ++ [pa], x ≤ a ∧ a < x + n then (u.put (some (s.cur / 256)) pa n v).hbyte a else e := by
    intro a e e' hout he
    rw [hbyte, storeBytes_outside (by omega), he]
    simp only [hcovered, hout, or_false]
  cases hc : u.cached (s.cur / 256) pa with
  | none =>
    have hcores := State.put_none hc n v
    have hcore := State.core_congr hcores
    have hcached : ∀ x, (u.put (some (s.cur / 256)) pa n v).cached (s.cur / 256) x = u.cached (s.cur / 256) x := fun x => by
      unfold State.cached
      rw [hcore, htime, h.time]
    refine ⟨htime, fun k hk => (hcore k).trans (h.others k hk), by rw [hcore]; exact h.own, by rw [hcore]; exact h.form,
      fun hwf x => ?_⟩
    have hx := h.sectors hwf x
    rw [hcached]
    split at hx
    · exact hx
    · obtain ⟨e', he', hexp, hdata⟩ := hx
      refine ⟨e', he', hexp, fun j hj => hkeep _ _ _ (fun hin' => ?_) (hdata j hj)⟩
      have hsame : paSector x = paSector pa := by unfold paSector at hin' ⊢; omega
      unfold State.cached at he' hc
      rw [hsame, hc] at he'
      cases he'
  | some e =>
    have hc64 : s.cur / 256 < 64 := by
      by_contra hge
      rw [u.cached_none (Nat.le_of_not_lt hge)] at hc
      cases hc
    have hcore := State.core_congr (State.put_some hc n v)
    have hown := (hcore (s.cur / 256)).trans (u.core_setCore_self _ hc64)
    refine ⟨htime, fun k hk => (hcore k).trans ((u.core_setCore_ne _ hk).trans (h.others k hk)), ?_, fun hwf => ?_,
      fun hwf x => ?_⟩
    · rw [hown, h.own]
    · rw [hown]
      exact Sparse.wf_set none _ _ (h.form hwf)
    · have hx := h.sectors hwf x
      have hget : Sparse.get none ((u.put (some (s.cur / 256)) pa n v).core (s.cur / 256)).lcache (paSector x) =
          if paSector x = paSector pa then some (e.stored pa n v) else Sparse.get none (u.core (s.cur / 256)).lcache (paSector x) := by
        rw [hown]
        exact Sparse.get_set none (h.form hwf) _ _ _
      by_cases hsame : paSector x = paSector pa
      · have hcx : u.cached (s.cur / 256) x = some e := by
          unfold State.cached at hc ⊢
          rw [hsame]
          exact hc
        have hvalid : u.time.toNat < e.expiry := by
          unfold State.cached at hc
          split at hc
          · split at hc <;> cases hc
            assumption
          · cases hc
        have hcx' : (u.put (some (s.cur / 256)) pa n v).cached (s.cur / 256) x = some (e.stored pa n v) := by
          unfold State.cached
          rw [hget, if_pos hsame, htime, ← h.time]
          exact if_pos hvalid
        split at hx
        · rw [hcx] at hx
          cases hx
        · obtain ⟨e', he', hexp, hdata⟩ := hx
          rw [hcx] at he'
          cases he'
          refine ⟨_, hcx', hexp, fun j hj => ?_⟩
          rw [e.stored_data v hj, hsame]
          have hj' := hdata j hj
          rw [hsame] at hj'
          split
          · rw [if_pos (by rw [hcovered]; exact .inr ‹_›), hbyte, storeBytes_inside (by omega) (by omega)]
          · exact hkeep _ _ _ ‹_› hj'
      · have hcx : (u.put (some (s.cur / 256)) pa n v).cached (s.cur / 256) x = u.cached (s.cur / 256) x := by
          unfold State.cached
          rw [hget, if_neg hsame, htime, h.time]
        rw [hcx]
        split at hx
        · exact hx
        · obtain ⟨e', he', hexp, hdata⟩ := hx
          refine ⟨e', he', hexp, fun j hj => hkeep _ _ _ (fun hin' => hsame ?_) (hdata j hj)⟩
          unfold paSector at hin' ⊢
          omega

/-! ### The stores of one instruction -/

theorem State.elide_homes (s : State) (secs : List Nat) : HomesOnly s (s.elide secs) := by
  unfold HomesOnly
  rfl

/-- Stores one after the other. -/
theorem State.puts_fold {n : Nat} (ws : List (Nat × Nat)) {s u : State} {pas : List Nat} (h : CachesFollow s u n pas)
    (hu : MemOk u) (hin : ∀ w ∈ ws, w.1 % 32 + n ≤ 32) :
    let v := ws.foldl (fun s' w => s'.put (some (s.cur / 256)) w.1 n w.2) u
    HomesOnly u v ∧ v.hpois = u.hpois ∧ v.hue = u.hue ∧ (∀ k, (v.core k).gwct = (u.core k).gwct) ∧
      v.hbyte = storeAll n ws u.hbyte ∧
      CachesFollow s v n (pas ++ ws.map Prod.fst) := by
  induction ws generalizing u pas with
  | nil => exact ⟨HomesOnly.refl u, rfl, rfl, fun _ => rfl, rfl, by simpa using h⟩
  | cons w ws ih =>
    obtain ⟨hw, hws⟩ := List.forall_mem_cons.mp hin
    obtain ⟨hrest, hpois, hue, hgwct, hbyte, hcaches⟩ := ih (h.put hu hw w.2) (memOk_put _ _ _ _ _ hu) hws
    have hput := u.put_rest (some (s.cur / 256)) w.1 n w.2
    refine ⟨(State.put_homes u _ _ _ _).trans hrest, ?_, ?_, fun k => (hgwct k).trans (State.put_gwct _ _ _ _ _ _), ?_, by simpa using hcaches⟩
    · rw [List.foldl_cons, hpois, hput]
    · rw [List.foldl_cons, hue, hput]
    · rw [List.foldl_cons, hbyte, State.put_hbyte hu]
      rfl

/-- The marks of these sectors taken away. -/
def State.unmark (s : State) (secs : List Nat) : State :=
  secs.foldl (fun s c =>
    let s2 := s.setSecPois (c * 32) false
    { s2 with hue := Sparse.set false s2.hue (s2.rawOf (c * 32)) false }) s

theorem State.unmark_homes (s : State) (secs : List Nat) : HomesOnly s (s.unmark secs) := by
  unfold State.unmark
  induction secs generalizing s with
  | nil => exact HomesOnly.refl s
  | cons c secs ih =>
    refine HomesOnly.trans ?_ (ih _)
    rfl

theorem State.unmark_hpois (s : State) (secs : List Nat) :
    (s.unmark secs).hpois = secs.foldl (fun m c => Sparse.set false m c false) s.hpois := by
  unfold State.unmark
  induction secs generalizing s with
  | nil => rfl
  | cons c secs ih =>
    rw [List.foldl_cons, List.foldl_cons, ih]
    show secs.foldl _ (Sparse.set false s.hpois (c * 32 / 32) false) = _
    rw [Nat.mul_div_cancel _ (by decide)]

theorem State.unmark_same (s : State) (secs : List Nat) : (s.unmark secs).cores = s.cores ∧ (s.unmark secs).time = s.time ∧
    (s.unmark secs).hbyte = s.hbyte := by
  unfold State.unmark
  induction secs generalizing s with
  | nil => exact ⟨rfl, rfl, rfl⟩
  | cons c secs ih => exact ih _

/-- The sectors that stores of `n` bytes write whole, where they had a mark or an error. -/
def State.wholeSectors (s : State) (n : Nat) (pas : List Nat) : List Nat :=
  ((pas.map paSector).eraseDups).filter fun c =>
    (s.secPois (c * 32) || s.secUE (c * 32)) && coversSector (pas.map fun pa => (pa, n)) c

theorem State.puts_eq (s : State) (c : Option Nat) (n : Nat) (ws : List (Nat × Nat)) :
    s.puts c (ws.map fun w => (w.1, n, w.2)) =
      (((ws.foldl (fun s' w => s'.put c w.1 n w.2) s).elide ((ws.map Prod.fst).map paSector))).unmark
        (s.wholeSectors n (ws.map Prod.fst)) := by
  unfold State.puts State.wholeSectors State.unmark
  simp only [List.map_map, List.foldl_map, Function.comp_def]

theorem coversSector_iff (n : Nat) (pas : List Nat) (c : Nat) :
    coversSector (pas.map fun pa => (pa, n)) c = true ↔ Covered n pas 32 c := by
  unfold coversSector Covered
  simp only [List.all_eq_true, List.mem_range, List.any_map, List.any_eq_true, Function.comp, Bool.and_eq_true, decide_eq_true_eq,
    Nat.mul_comm c]

/-- A store within a sector that reaches a byte of one is in that sector. -/
theorem paSector_of_reaches {pa n c j : Nat} (hin : pa % 32 + n ≤ 32) (hj : j < 32) (h : pa ≤ 32 * c + j) (h' : 32 * c + j < pa + n) :
    paSector pa = c := by
  unfold paSector
  omega

theorem State.mem_wholeSectors {s : State} {n : Nat} {pas : List Nat} (hin : ∀ pa ∈ pas, pa % 32 + n ≤ 32) {c : Nat} :
    c ∈ s.wholeSectors n pas ↔ (s.secPois (c * 32) = true ∨ s.secUE (c * 32) = true) ∧ Covered n pas 32 c := by
  unfold State.wholeSectors
  rw [List.mem_filter, List.mem_eraseDups, Bool.and_eq_true, coversSector_iff, Bool.or_eq_true, List.mem_map]
  refine ⟨And.right, fun h => ⟨?_, h⟩⟩
  obtain ⟨pa, hpa, hle, hlt⟩ := h.2 0 (by omega)
  exact ⟨pa, hpa, paSector_of_reaches (hin pa hpa) (by omega) hle hlt⟩

/-- What the stores of one instruction leave. -/
structure Putted (s u v : State) (n : Nat) (ws : List (Nat × Nat)) : Prop where
  rest : HomesOnly u v
  mem : MemOk v
  bytes : v.hbyte = storeAll n ws u.hbyte
  gwcts : ∀ k, (v.core k).gwct = (u.core k).gwct
  pois : v.hpois = (u.wholeSectors n (ws.map Prod.fst)).foldl (fun m c => Sparse.set false m c false) u.hpois

theorem State.puts_ok {n : Nat} {ws : List (Nat × Nat)} {s u : State} {pas : List Nat} (h : CachesFollow s u n pas)
    (hu : MemOk u) (hin : ∀ w ∈ ws, w.1 % 32 + n ≤ 32) :
    Putted s u (u.puts (some (s.cur / 256)) (ws.map fun w => (w.1, n, w.2))) n ws ∧
      CachesFollow s (u.puts (some (s.cur / 256)) (ws.map fun w => (w.1, n, w.2))) n (pas ++ ws.map Prod.fst) := by
  obtain ⟨hrest, hpois, -, hgwct, hbyte, hcaches⟩ := State.puts_fold ws h hu hin
  have hmem := memOk_puts u (some (s.cur / 256)) (ws.map fun w => (w.1, n, w.2)) hu
  rw [State.puts_eq] at hmem ⊢
  obtain ⟨hcores, htime, hbytes⟩ := State.unmark_same ((ws.foldl (fun s' w => s'.put (some (s.cur / 256)) w.1 n w.2) u).elide
    ((ws.map Prod.fst).map paSector)) (u.wholeSectors n (ws.map Prod.fst))
  refine ⟨⟨(hrest.trans (State.elide_homes _ _)).trans (State.unmark_homes _ _), hmem, hbytes.trans hbyte,
    fun k => (congrArg CoreUnit.gwct (State.core_congr hcores k)).trans (hgwct k), ?_⟩, hcaches.congr hcores htime hbytes⟩
  rw [State.unmark_hpois, ← hpois]
  rfl

theorem SectorsLeft.of_putted {s u v : State} {n : Nat} {ws : List (Nat × Nat)} (h : Putted s u v n ws)
    (hin : ∀ w ∈ ws, w.1 % 32 + n ≤ 32) : SectorsLeft u v n (ws.map Prod.fst) := by
  intro hwf pa
  have hin' : ∀ pa ∈ ws.map Prod.fst, pa % 32 + n ≤ 32 := by simpa using hin
  have hsame : u.secPois (paSector pa * 32) = u.secPois pa := by
    unfold State.secPois paSector
    rw [Nat.mul_div_cancel _ (by decide)]
  have hmem := State.mem_wholeSectors (s := u) hin' (c := paSector pa)
  rw [hsame] at hmem
  have hget : v.secPois pa = if paSector pa ∈ u.wholeSectors n (ws.map Prod.fst) then false else u.secPois pa := by
    unfold State.secPois
    rw [h.pois, Sparse.get_sets false hwf]
  rw [hget]
  split
  · exact ⟨nofun, fun hp => absurd (hmem.mp ‹_›).2 hp.2⟩
  · exact ⟨fun hp => ⟨hp, fun hc => ‹¬_› (hmem.mpr ⟨.inl hp, hc⟩)⟩, And.left⟩

end Sys2Proof.Machine

/-! Write completion times as a row's stores bring them, and STG (08 R213, R217; 09 R236, R237). -/
namespace Sys2Proof.Machine

/-! ### Write completion times (08 R213, R217) -/

theorem laterGwct_some (G : Nat) (g : Option Nat) :
    ∃ c, laterGwct (some G) g = some c ∧ G ≤ c ∧ ∀ h, g = some h → h ≤ c := by
  cases g with
  | none => exact ⟨G, rfl, le_rfl, nofun⟩
  | some h => exact ⟨max G h, rfl, le_max_left _ _, fun h' e => by cases e; exact le_max_right _ _⟩

/-- A completion time is no earlier than now, nor than any lease of its addresses. -/
theorem State.gwct_ge (s : State) (pas : List Nat) : s.time.toNat ≤ s.gwct pas ∧ ∀ pa ∈ pas, s.leaseOf pa ≤ s.gwct pas := by
  have hfold : ∀ (pas : List Nat) (e : Nat), e ≤ pas.foldl (fun e pa => max e (s.leaseOf pa)) e ∧
      ∀ pa ∈ pas, s.leaseOf pa ≤ pas.foldl (fun e pa => max e (s.leaseOf pa)) e := by
    intro pas
    induction pas with
    | nil => exact fun e => ⟨le_rfl, nofun⟩
    | cons p pas ih =>
      intro e
      obtain ⟨hle, hmem⟩ := ih (max e (s.leaseOf p))
      exact ⟨(le_max_left _ _).trans hle, List.forall_mem_cons.mpr ⟨(le_max_right _ _).trans hle, hmem⟩⟩
  exact hfold pas _

theorem State.gwct_congr {s u : State} (ht : u.time = s.time) (hl : u.leases = s.leases) (pas : List Nat) :
    u.gwct pas = s.gwct pas := by
  unfold State.gwct State.leaseOf
  rw [ht, hl]

theorem Receives.nil (s : State) (old : Option Nat) : Receives s [] old old :=
  ⟨fun _ => rfl, nofun, nofun, fun h e => ⟨h, e, le_rfl⟩⟩

/-- All the writes of a list, at once. -/
theorem Receives.all (s : State) {ls : List LaneLoc} (h : memLocs ls ≠ []) (old : Option Nat) :
    Receives s ls old (laterGwct (some (s.gwct (leasedOf ls))) old) := by
  obtain ⟨c, hc, hG, hold⟩ := laterGwct_some (s.gwct (leasedOf ls)) old
  obtain ⟨htime, hlease⟩ := s.gwct_ge (leasedOf ls)
  rw [hc]
  refine ⟨fun e => absurd e h, fun x _ => ⟨c, rfl, htime.trans hG⟩, fun l va pa hmem => ⟨c, rfl, (hlease pa ?_).trans hG⟩,
    fun x hx => ⟨c, rfl, hold x hx⟩⟩
  exact List.mem_flatMap.mpr ⟨_, hmem, List.mem_singleton_self pa⟩

theorem memLocs_append (xs ys : List LaneLoc) : memLocs (xs ++ ys) = memLocs xs ++ memLocs ys := List.filterMap_append

/-- One more write. -/
theorem Receives.write {s : State} {ls : List LaneLoc} {old g : Option Nat} (h : Receives s ls old g) (l pa : Nat) (va : Word)
    (nc : Bool) : Receives s (ls ++ [(l, va, .mem pa nc)]) old (laterGwct (some (s.gwct (leased pa nc))) g) := by
  obtain ⟨hnone, htimes, hleases, hold⟩ := h
  obtain ⟨c, hc, hG, hg⟩ := laterGwct_some (s.gwct (leased pa nc)) g
  obtain ⟨htime, hlease⟩ := s.gwct_ge (leased pa nc)
  rw [hc]
  refine ⟨fun e => ?_, fun x _ => ⟨c, rfl, htime.trans hG⟩, fun l' va' pa' hmem => ?_, fun x hx => ?_⟩
  · rw [memLocs_append] at e
    exact absurd (List.append_eq_nil_iff.mp e).2 (List.cons_ne_nil _ _)
  · rcases List.mem_append.mp hmem with hmem | hmem
    · obtain ⟨c', hc', hle⟩ := hleases l' va' pa' hmem
      exact ⟨c, rfl, hle.trans (hg c' hc')⟩
    · obtain ⟨rfl, rfl, rfl, rfl⟩ : l' = l ∧ va' = va ∧ pa' = pa ∧ false = nc := by simpa using hmem
      exact ⟨c, rfl, (hlease pa' (List.mem_singleton_self _)).trans hG⟩
  · obtain ⟨c', hc', hle⟩ := hold x hx
    exact ⟨c, rfl, hle.trans (hg c' hc')⟩

/-- An access at a peer brings none. -/
theorem Receives.peer {s : State} {ls : List LaneLoc} {old g : Option Nat} (h : Receives s ls old g) (l : Nat) (va : Word)
    (r : PeerReply) : Receives s (ls ++ [(l, va, .peer r)]) old g := by
  have hlocs : memLocs (ls ++ [(l, va, .peer r)]) = memLocs ls := by rw [memLocs_append]; exact List.append_nil _
  obtain ⟨hnone, htimes, hleases, hold⟩ := h
  refine ⟨by rwa [hlocs], by rwa [hlocs], fun l' va' pa' hmem => hleases l' va' pa' ?_, hold⟩
  simpa using hmem

/-! ### The slot's frame around the homes -/

/-- Homes, marks and caches changed beside what the slot did. -/
theorem Slot.homes {r u v : State} {w : Seat} (h : Slot r u w) (hv : HomesOnly u v) :
    Slot { r with hbm := v.hbm, cores := v.cores, hpois := v.hpois, hue := v.hue, elided := v.elided } v w := by
  refine h.rebase rfl rfl rfl ?_
  unfold HomesOnly at hv
  rw [hv]
  conv_lhs => rw [h.rest]

theorem HomesOnly.holds4 {u v : State} {k : Nat} {l : Vector Latch 4} {p : Vector Word 4} (hv : HomesOnly u v)
    (h : Holds4 u k l p) : Holds4 v k l p := h.congr (by rw [hv])

/-- A completion time received by the seat. -/
theorem Slot.seatGwct {r u : State} {w : Seat} {k : Nat} (h : Slot r u w) (hk : r.cur = k) (hw : w.resident = true)
    (g : Option Nat) :
    Slot r (u.setSeat k { u.seat k with gwct := laterGwct g (u.seat k).gwct }) { w with gwct := laterGwct g w.gwct } := by
  subst hk
  exact h.map (fun t => { t with gwct := laterGwct g t.gwct }) hw (fun a l p x d => ⟨l, p, x, d, rfl⟩) rfl

/-- A machine whose homes, caches, marks and clock are those of another. -/
structure SameHomes (s u : State) : Prop where
  mem : MemOk s → MemOk u
  bytes : u.hbyte = s.hbyte
  cores : u.cores = s.cores
  hpois : u.hpois = s.hpois
  leases : u.leases = s.leases
  time : u.time = s.time

/-- The machine that has read a memory slot's operands, the peers' answers taken. -/
theorem Slot.sameHomes {s s1 v : State} {R : List (Nat × RowUnit)} {w : Seat}
    (hs1 : s1 = { s with peerReplies := s1.peerReplies, spanOut := s1.spanOut }) (h : Slot { s1 with rows := R } v w) :
    SameHomes s v := by
  have hv := h.rest
  rw [hs1] at hv
  exact
    { mem := fun hmem => by rw [hv]; exact hmem
      bytes := by rw [hv]; rfl
      cores := by rw [hv]
      hpois := by rw [hv]
      leases := by rw [hv]
      time := by rw [hv] }

theorem SameHomes.caches {s u : State} (h : SameHomes s u) (n : Nat) : CachesFollow s u n [] :=
  (CachesFollow.refl s n).congr h.cores h.time h.bytes

theorem SectorsLeft.congr {s s' u : State} {n : Nat} {as : List Nat} (h : SectorsLeft s u n as) (hs : s.hpois = s'.hpois) :
    SectorsLeft s' u n as := by
  unfold SectorsLeft State.secPois at h ⊢
  rw [← hs]
  exact h

/-- A global access's machine has the slots that it found. -/
theorem sameSlots_of_answers {s s1 : State} (h : s1 = { s with peerReplies := s1.peerReplies, spanOut := s1.spanOut }) :
    SameSlots s s1 := by
  rw [h]
  exact ⟨rfl, rfl, rfl, rfl, fun _ => rfl⟩

/-! ### The stores of a row's slot -/

/-- Where the stores of a list of places go: each its address and value. -/
def storesTo (ls : List LaneLoc) (v : Nat → Nat) : List (Nat × Nat) := (memLocs ls).map fun x => (x.2, v x.1)

theorem storesTo_fst (ls : List LaneLoc) (v : Nat → Nat) : (storesTo ls v).map Prod.fst = (memLocs ls).map fun x => x.2 := by
  unfold storesTo
  rw [List.map_map]
  rfl

/-- What picks the writes out of a list of places, each with its lane's value. -/
theorem filterMap_storesTo {f : LaneLoc × Nat → Option (Nat × Nat × Nat)} {n : Nat}
    (hmem : ∀ l va pa nc x, f ((l, va, .mem pa nc), x) = some (pa, n, x)) (hpeer : ∀ l va r x, f ((l, va, .peer r), x) = none)
    (ls : List LaneLoc) (v : Nat → Nat) :
    (ls.map fun l => (l, v l.1)).filterMap f = (storesTo ls v).map fun w => (w.1, n, w.2) := by
  unfold storesTo memLocs
  rw [List.filterMap_map, List.map_map, List.map_filterMap]
  refine List.filterMap_congr fun x _ => ?_
  obtain ⟨l, va, loc⟩ := x
  cases loc with
  | mem pa nc => exact hmem l va pa nc (v l)
  | peer r => exact hpeer l va r (v l)

theorem State.gstores_eq (u : State) (sid n : Nat) (ls : List LaneLoc) (v : Nat → Nat) :
    u.gstores sid n (ls.map fun l => (l, v l.1)) =
      if memLocs ls = [] then u.puts (some (sid / 256)) ((storesTo ls v).map fun w => (w.1, n, w.2))
      else (u.puts (some (sid / 256)) ((storesTo ls v).map fun w => (w.1, n, w.2))).noteGwct sid (u.gwct (leasedOf ls)) := by
  have hnil : ((storesTo ls v).map fun w => (w.1, n, w.2)) = [] ↔ memLocs ls = [] := by simp [storesTo]
  have hid : (ls.map fun l => (l, v l.1)).map (fun w => w.1) = ls := by rw [List.map_map]; exact List.map_id ls
  unfold State.gstores
  rw [filterMap_storesTo (fun _ _ _ _ _ => rfl) (fun _ _ _ _ => rfl), hid]
  dsimp only
  by_cases h : memLocs ls = []
  · rw [if_pos h, if_pos (hnil.mpr h)]
    rfl
  · rw [if_neg h, if_neg (mt hnil.mp h)]
    rfl

/-- The machine after a row's stores, the time that they bring being `g`. -/
structure RowStores (s v : State) (ls : List LaneLoc) (n : Nat) (val : Nat → Nat) (g : Option Nat) : Prop where
  completed : Completed s v ls g
  caches : CachesStored s v n ((memLocs ls).map fun x => x.2)
  bytes : v.hbyte = storeAll n (storesTo ls val) s.hbyte
  sectors : SectorsLeft s v n ((memLocs ls).map fun x => x.2)

/-- A row's slot that goes on leaves what its stores have left. -/
theorem RowStores.next {s v : State} {ls : List LaneLoc} {n : Nat} {val : Nat → Nat} {g : Option Nat} (h : RowStores s v ls n val g)
    (k : Nat) : RowStores s (v.next k) ls n val g := ⟨h.completed, h.caches, h.bytes, h.sectors⟩

theorem State.noteGwct_eq (u : State) (k G : Nat) :
    u.noteGwct k G = (u.setSeat k { u.seat k with gwct := laterGwct (some G) (u.seat k).gwct }).setCore (k / 256)
      { u.core (k / 256) with gwct := laterGwct (some G) (u.core (k / 256)).gwct } := rfl

theorem State.noteGwct_core_gwct (u : State) {k : Nat} (G : Nat) (h : k / 256 < 64) :
    ((u.noteGwct k G).core (k / 256)).gwct = laterGwct (some G) (u.core (k / 256)).gwct := by
  rw [State.noteGwct_eq, State.core_setCore_self _ _ h]

theorem CachesFollow.noteGwct {s u : State} {n : Nat} {pas : List Nat} (h : CachesFollow s u n pas) (G : Nat) :
    CachesFollow s (u.noteGwct s.cur G) n pas :=
  (h.congr (u' := u.setSeat s.cur { u.seat s.cur with gwct := laterGwct (some G) (u.seat s.cur).gwct }) rfl rfl rfl).gwct _

/-- Cores replaced beside what the slot did. -/
theorem Slot.with_cores {r u : State} {w : Seat} (h : Slot r u w) (cs : Vector CoreUnit 64) :
    Slot { r with cores := cs } { u with cores := cs } w :=
  h.rebase rfl rfl rfl (by conv_lhs => rw [h.rest])

/-- The seat and its core receive a completion time. -/
theorem Slot.noteGwct {r u : State} {w : Seat} {k : Nat} (h : Slot r u w) (hk : r.cur = k) (hw : w.resident = true) (G : Nat) :
    Slot { r with cores := (u.noteGwct k G).cores } (u.noteGwct k G) { w with gwct := laterGwct (some G) w.gwct } :=
  (h.seatGwct hk hw (some G)).with_cores _

theorem Holds4.noteGwct {u : State} {k : Nat} {l : Vector Latch 4} {p : Vector Word 4} (h : Holds4 u k l p) (G : Nat) :
    Holds4 (u.noteGwct k G) k l p :=
  (Holds4.setSeat (s := u) (t := { u.seat k with gwct := laterGwct (some G) (u.seat k).gwct }) h.1 h.2.1 h.2.2).congr rfl

/-- The stores of a row's slot, after it has read its operands. -/
theorem State.gstores_ok {s r v0 : State} {w : Seat} {n : Nat} {ls : List LaneLoc} {l : Vector Latch 4} {p : Vector Word 4}
    (val : Nat → Nat) (hmem : MemOk s) (hsame : SameHomes s v0) (hslot : Slot r v0 w) (hcur : r.cur = s.cur)
    (hw : w.resident = true) (hg : w.gwct = s.now.gwct) (hlats : Holds4 v0 s.cur l p)
    (hin : ∀ x ∈ memLocs ls, x.2 % 32 + n ≤ 32) :
    let v := v0.gstores s.cur n (ls.map fun l => (l, val l.1))
    ∃ g, RowStores s v ls n val g ∧ Holds4 v s.cur l p ∧
      Slot { r with hbm := v.hbm, cores := v.cores, hpois := v.hpois, hue := v.hue, elided := v.elided } v { w with gwct := g } := by
  intro v
  have hin' : ∀ x ∈ storesTo ls val, x.1 % 32 + n ≤ 32 := fun x hx => by
    obtain ⟨y, hy, rfl⟩ := List.mem_map.mp hx
    exact hin y hy
  obtain ⟨hputs, hcaches⟩ := State.puts_ok (hsame.caches n) (hsame.mem hmem) hin'
  have hsectors := SectorsLeft.of_putted hputs hin'
  rw [List.nil_append, storesTo_fst] at hcaches
  rw [storesTo_fst] at hsectors
  have hgwcts : ∀ k, ((v0.puts (some (s.cur / 256)) ((storesTo ls val).map fun w => (w.1, n, w.2))).core k).gwct =
      (s.core k).gwct := fun k => by rw [hputs.gwcts, State.core_congr hsame.cores]
  have hbytes := hputs.bytes
  rw [hsame.bytes] at hbytes
  have hv := v0.gstores_eq s.cur n ls val
  by_cases hnil : memLocs ls = []
  · rw [if_pos hnil] at hv
    refine ⟨s.now.gwct, ?_, ?_, ?_⟩
    · unfold v
      rw [hv]
      have hreceives : ∀ old, Receives s ls old old := fun old =>
        ⟨fun _ => rfl, by simp [hnil], fun l va pa hm => absurd (mem_memLocs.mpr ⟨va, false, hm⟩) (by simp [hnil] : (l, pa) ∉ memLocs ls),
          fun h e => ⟨h, e, le_rfl⟩⟩
      exact ⟨⟨hreceives _, fun _ => by rw [hgwcts]; exact hreceives _⟩, hcaches.stored, hbytes, hsectors.congr hsame.hpois⟩
    · unfold v
      rw [hv]
      exact hputs.rest.holds4 hlats
    · unfold v
      rw [hv, ← hg]
      exact hslot.homes hputs.rest
  · rw [if_neg hnil, State.gwct_congr hsame.time hsame.leases] at hv
    refine ⟨laterGwct (some (s.gwct (leasedOf ls))) s.now.gwct, ?_, ?_, ?_⟩
    · unfold v
      rw [hv]
      refine ⟨⟨Receives.all s hnil _, fun hc => ?_⟩, (hcaches.noteGwct _).stored, hbytes, hsectors.congr hsame.hpois⟩
      rw [State.noteGwct_core_gwct _ _ hc, hgwcts]
      exact Receives.all s hnil _
    · unfold v
      rw [hv]
      exact (hputs.rest.holds4 hlats).noteGwct _
    · unfold v
      rw [hv, ← hg]
      exact (hslot.homes hputs.rest).noteGwct hcur hw _

/-! ### STG -/

/-- An element's size divides a page, and an element that is aligned stays within its sector. -/
theorem Seat.size_dvd {t : Seat} {load : Bool} {f : BitVec 4} (h : t.takesF load f) : t.size f ∣ 8 := by
  unfold Seat.takesF at h
  unfold Seat.size
  cases hm : t.modw.getLsbD 15
  · have : ∀ f : BitVec 4, 2 ^ (f.toNat % 4) ∣ 8 := by decide
    exact this f
  · rw [hm, if_pos rfl] at h
    have : ∀ ty : BitVec 4, ty ≠ 13 → tyBits ty / 8 ∣ 8 := by decide
    exact this _ h.2

theorem within_sector {n pa : Nat} (hn : n ∣ 8) (h : pa % n = 0) : pa % 32 + n ≤ 32 := by
  obtain ⟨k, hk⟩ := hn.trans (by decide : 8 ∣ 32)
  obtain ⟨j, rfl⟩ := Nat.dvd_of_mod_eq_zero h
  have h32 : n * j % (n * k) = n * (j % k) := Nat.mul_mod_mul_left _ _ _
  have hk0 : 0 < k := by
    rcases Nat.eq_zero_or_pos k with rfl | h0
    · omega
    · exact h0
  have hlt : j % k + 1 ≤ k := Nat.mod_lt _ hk0
  rw [hk, h32, ← Nat.mul_succ]
  exact Nat.mul_le_mul_left _ hlt

theorem State.Places.within {s s1 : State} {as : List (Nat × Word)} {n : Nat} {ls : List LaneLoc} (h : s.Places as n ls s1)
    (hn : n ∣ 8) : ∀ x ∈ memLocs ls, x.2 % 32 + n ≤ 32 := fun x hx =>
  within_sector hn (h.aligned (hn.trans (by decide)) x hx)

/-- Settles O30: STG reads its operands and makes its stores, each within its sector. -/
theorem globalStores : Obligations.GlobalStores := by
  unfold Obligations.GlobalStores
  intro s d a b f e r ls s1 hmem ht h t i n as hglobal
  have hplaces := State.global_places hglobal
  obtain ⟨v0, hreads, hslot, hlats⟩ := h.reads (sameSlots_of_answers hplaces.state)
  have hsame := Slot.sameHomes hplaces.state hslot
  have hcur : ({ s1 with rows := r.rows } : State).cur = s.cur := (sameSlots_of_answers hplaces.state).cur
  obtain ⟨g, hstores, hlats2, hslot2⟩ := State.gstores_ok (ls := ls) (n := n) (fun l => (vget 0 (s.dataVal t d) l).toNat) hmem hsame
    hslot hcur h.resident rfl hlats (hplaces.within (Seat.size_dvd ht))
  have hnext := hslot2.next hcur h.resident
  refine ⟨_, g, ?_, Holds4.kept (hnext.cur.trans hcur) hlats2.next, (hstores.next s.cur).completed, (hstores.next s.cur).caches, hnext,
    (hstores.next s.cur).bytes, (hstores.next s.cur).sectors⟩
  show execStg d a b f s = _
  unfold execStg
  rw [h.mem_run (by simp only [storeOp, Seat.fBad_of_takesF ht, Seat.cb4_of_takesF ht]; rfl) rfl]
  unfold State.global at hglobal
  show s.close s.cur (s.gcheck s.now.bind.part (s.cur / 256 / 8) (some s.cur) as (as.filter fun x => decide (x.2.toNat % n ≠ 0)) n true false
    (storeOps n as fun l => vget 0 (s.dataVal t d) l) >>= _) = _
  rw [hglobal]
  simp only [hreads, bind, Except.bind]
  rfl

end Sys2Proof.Machine

/-! ATOMG, CASG, REDG and FADDX: the lanes' updates one after the other, and the arrivals of contributions (09 R241, R242;
04 R113, R115). -/
namespace Sys2Proof.Machine

/-! ### One update -/

/-- Nothing but the bytes of HBM, the caches and the count of elided sectors is another. -/
def BytesOnly (u v : State) : Prop := v = { u with hbm := v.hbm, cores := v.cores, elided := v.elided }

theorem BytesOnly.trans {u v w : State} (h : BytesOnly u v) (h' : BytesOnly v w) : BytesOnly u w := by
  unfold BytesOnly at h h' ⊢
  rw [h', h]

/-- Bytes and caches changed beside what the slot did. -/
theorem Slot.bytesOnly {r u v : State} {w : Seat} (h : Slot r u w) (hv : BytesOnly u v) :
    Slot { r with hbm := v.hbm, cores := v.cores, elided := v.elided } v w := by
  refine h.rebase rfl rfl rfl ?_
  unfold BytesOnly at hv
  rw [hv]
  conv_lhs => rw [h.rest]

/-- A store of fewer bytes than a sector writes none whole. -/
theorem State.puts_one (s : State) (c : Option Nat) {n : Nat} (hn : n < 32) (pa v : Nat) :
    s.puts c [(pa, n, v)] = (s.put c pa n v).elide [paSector pa] := by
  have h := s.puts_eq c n [(pa, v)]
  have hnone : s.wholeSectors n [pa] = [] := by
    refine List.eq_nil_iff_forall_not_mem.mpr fun x hx => ?_
    unfold State.wholeSectors at hx
    have hcov := (coversSector_iff n [pa] x).mp (Bool.and_eq_true_iff.mp (List.mem_filter.mp hx).2).2
    obtain ⟨a, ha, h0, -⟩ := hcov 0 (by omega)
    obtain ⟨b, hb, -, h31⟩ := hcov 31 (by omega)
    rw [List.mem_singleton] at ha hb
    omega
  simpa only [List.map_cons, List.map_nil, List.foldl_cons, List.foldl_nil, hnone, State.unmark] using h

/-- What one lane's update leaves, its seat's completion time apart. -/
def State.atomPut (u : State) (c n pa v : Nat) : State := ((u.elide [paSector pa]).put (some c) pa n v).elide [paSector pa]

theorem State.atomLane_mem (u : State) (sid : Nat) {n : Nat} (hn : n < 32) (new : Nat → Nat) (pa : Nat) (nc : Bool) :
    u.atomLane sid n new (.mem pa nc) =
      ((u.atomPut (sid / 256) n pa (new (readBytes u.hbyte pa n))).noteGwct sid (u.gwct (leased pa nc)), readBytes u.hbyte pa n) := by
  unfold State.atomLane State.atomPut
  dsimp only
  rw [State.puts_one _ _ hn, State.hread_eq_readBytes]
  rfl

theorem State.elide_only (s : State) (secs : List Nat) : BytesOnly s (s.elide secs) := by
  unfold BytesOnly
  rfl

theorem State.put_only (s : State) (c : Option Nat) (pa n v : Nat) : BytesOnly s (s.put c pa n v) := by
  unfold BytesOnly
  rw [State.put_rest]

theorem State.atomPut_only (u : State) (c n pa v : Nat) : BytesOnly u (u.atomPut c n pa v) :=
  ((State.elide_only _ _).trans (State.put_only _ _ _ _ _)).trans (State.elide_only _ _)

theorem State.noteGwct_hbyte (u : State) (k G : Nat) : (u.noteGwct k G).hbyte = u.hbyte := rfl

/-- The machine part way through the updates of a slot's lanes: `done` are the lanes' accesses so far. -/
structure Updating (s r v : State) (w : Seat) (n : Nat) (l : Vector Latch 4) (p : Vector Word 4) (done : List LaneLoc) (g : Option Nat) :
    Prop where
  mem : MemOk v
  slot : Slot { r with hbm := v.hbm, cores := v.cores, elided := v.elided } v { w with gwct := g }
  lats : Holds4 v s.cur l p
  caches : CachesFollow s v n ((memLocs done).map fun x => x.2)
  leases : v.leases = s.leases
  seat : Receives s done s.now.gwct g
  core : s.cur / 256 < 64 → Receives s done (s.core (s.cur / 256)).gwct (v.core (s.cur / 256)).gwct

theorem Updating.write {s r v : State} {w : Seat} {n : Nat} {l : Vector Latch 4} {p : Vector Word 4} {done : List LaneLoc} {g : Option Nat}
    (h : Updating s r v w n l p done g) (hcur : r.cur = s.cur) (hw : w.resident = true) (k : Nat) (va : Word) {pa : Nat} (nc : Bool)
    (hin : pa % 32 + n ≤ 32) (x : Nat) :
    Updating s r ((v.atomPut (s.cur / 256) n pa x).noteGwct s.cur (v.gwct (leased pa nc))) w n l p (done ++ [(k, va, .mem pa nc)])
        (laterGwct (some (s.gwct (leased pa nc))) g) ∧
      ((v.atomPut (s.cur / 256) n pa x).noteGwct s.cur (v.gwct (leased pa nc))).hbyte = storeBytes v.hbyte pa n x := by
  have hgwct : v.gwct (leased pa nc) = s.gwct (leased pa nc) := State.gwct_congr h.caches.time h.leases _
  have honly := v.atomPut_only (s.cur / 256) n pa x
  have helided : MemOk (v.elide [paSector pa]) := memOk_elide _ _ h.mem
  have hbyte : (v.atomPut (s.cur / 256) n pa x).hbyte = storeBytes v.hbyte pa n x := State.put_hbyte helided _ _ _ _
  have hput : CachesFollow s (v.atomPut (s.cur / 256) n pa x) n ((memLocs (done ++ [(k, va, .mem pa nc)])).map fun x => x.2) := by
    rw [memLocs_append, List.map_append]
    exact ((h.caches.congr (u' := v.elide [paSector pa]) rfl rfl rfl).put helided hin x).congr rfl rfl rfl
  have hcoreg : ((v.atomPut (s.cur / 256) n pa x).core (s.cur / 256)).gwct = (v.core (s.cur / 256)).gwct :=
    (v.elide [paSector pa]).put_gwct _ _ _ _ _
  rw [hgwct]
  refine ⟨{ mem := ?_, slot := ?_, lats := ?_, caches := hput.noteGwct _, leases := ?_, seat := h.seat.write k pa va nc, core := fun hc => ?_ },
    (State.noteGwct_hbyte _ _ _).trans hbyte⟩
  · exact memOk_noteGwct _ _ _ (memOk_elide _ _ (memOk_put _ _ _ _ _ helided))
  · exact (h.slot.bytesOnly honly).noteGwct hcur hw _
  · exact Holds4.noteGwct (h.lats.congr (by rw [honly])) _
  · show (v.atomPut (s.cur / 256) n pa x).leases = s.leases
    rw [honly]
    exact h.leases
  · rw [State.noteGwct_core_gwct _ _ hc, hcoreg]
    exact (h.core hc).write k pa va nc

/-! ### The lanes in turn -/

/-- What the lanes' updates leave, one after the other, and what each lane found. -/
theorem State.atomLanes {s r : State} {w : Seat} {n : Nat} {l : Vector Latch 4} {p : Vector Word 4} (hn : n < 32) (hcur : r.cur = s.cur)
    (hw : w.resident = true) (new : Nat → Nat → Nat) (ls : List LaneLoc) (hin : ∀ x ∈ memLocs ls, x.2 % 32 + n ≤ 32)
    (hnodup : (ls.map fun x => x.1).Nodup) {v : State} {done : List LaneLoc} {g : Option Nat} (h : Updating s r v w n l p done g)
    (acc : List (Nat × Nat)) :
    ∃ v' g' vs, ls.foldl (fun (r : State × List (Nat × Nat)) x =>
        ((r.1.atomLane s.cur n (new x.1) x.2.2).1, r.2 ++ [(x.1, (r.1.atomLane s.cur n (new x.1) x.2.2).2)])) (v, acc) = (v', acc ++ vs) ∧
      Updating s r v' w n l p (done ++ ls) g' ∧ v'.hbyte = (atomics n new (memLocs ls) v.hbyte).1 ∧
      (∀ x ∈ memLocs ls, laneOf vs x.1 = (atomics n new (memLocs ls) v.hbyte).2 x.1) ∧
      ∀ k va w, (k, va, .peer (.data w)) ∈ ls → laneOf vs k = w.toNat % 2 ^ (8 * n) := by
  induction ls generalizing v done g acc with
  | nil => exact ⟨v, g, [], by simp, by simpa using h, rfl, nofun, nofun⟩
  | cons x ls ih =>
    obtain ⟨k, va, loc⟩ := x
    rw [List.map_cons, List.nodup_cons] at hnodup
    obtain ⟨hnot, hnodup⟩ := hnodup
    have hne : ∀ {k' va' loc'}, (k', va', loc') ∈ ls → k' ≠ k := fun hmem he =>
      hnot (List.mem_map.mpr ⟨_, hmem, he⟩)
    cases loc with
    | mem pa nc =>
      have hlocs : memLocs ((k, va, .mem pa nc) :: ls) = (k, pa) :: memLocs ls := rfl
      rw [hlocs] at hin
      obtain ⟨hpa, hin⟩ := List.forall_mem_cons.mp hin
      obtain ⟨hupd, hbyte⟩ := h.write hcur hw k va nc hpa (new k (readBytes v.hbyte pa n))
      obtain ⟨v', g', vs, hfold, hupd', hbyte', hold, hpeer⟩ := ih hin hnodup hupd (acc ++ [(k, readBytes v.hbyte pa n)])
      refine ⟨v', g', (k, readBytes v.hbyte pa n) :: vs, ?_, by simpa using hupd', ?_, ?_, ?_⟩
      · rw [List.foldl_cons, State.atomLane_mem _ _ hn, hfold, List.append_assoc]
        rfl
      · rw [hbyte', hbyte, hlocs]
        rfl
      · intro x hx
        rw [hlocs] at hx
        rw [hlocs, atomics, laneOf_cons]
        dsimp only
        by_cases hk : x.1 = k
        · rw [if_pos hk, if_pos hk]
        · rw [if_neg hk, if_neg hk, ← hbyte]
          exact hold x ((List.mem_cons.mp hx).resolve_left (fun e => hk (by rw [e])))
      · intro k' va' w hmem
        have hmem' := (List.mem_cons.mp hmem).resolve_left nofun
        rw [laneOf_cons, if_neg (hne hmem')]
        exact hpeer k' va' w hmem'
    | peer ans =>
      have hlocs : memLocs ((k, va, .peer ans) :: ls) = memLocs ls := rfl
      rw [hlocs] at hin ⊢
      have hupd : Updating s r v w n l p (done ++ [(k, va, .peer ans)]) g :=
        { h with
          caches := by rw [memLocs_append]; simpa [memLocs] using h.caches
          seat := h.seat.peer k va ans
          core := fun hc => (h.core hc).peer k va ans }
      have hstay : (v.atomLane s.cur n (new k) (.peer ans)).1 = v := by cases ans <;> rfl
      obtain ⟨v', g', vs, hfold, hupd', hbyte', hold, hpeer⟩ := ih hin hnodup hupd
        (acc ++ [(k, (v.atomLane s.cur n (new k) (.peer ans)).2)])
      refine ⟨v', g', (k, (v.atomLane s.cur n (new k) (.peer ans)).2) :: vs, ?_, by simpa using hupd', hbyte', ?_, ?_⟩
      · rw [List.foldl_cons]
        dsimp only
        rw [hstay, hfold, List.append_assoc]
        rfl
      · intro x hx
        obtain ⟨va', nc', hmem⟩ := mem_memLocs.mp hx
        rw [laneOf_cons, if_neg (hne hmem)]
        exact hold x hx
      · intro k' va' w hmem
        rw [laneOf_cons]
        rcases List.mem_cons.mp hmem with he | hmem'
        · obtain ⟨rfl, rfl, rfl⟩ : k' = k ∧ va' = va ∧ .data w = ans := by simpa using he
          rw [if_pos rfl]
          rfl
        · rw [if_neg (hne hmem')]
          exact hpeer k' va' w hmem'

end Sys2Proof.Machine

/-! The global atomics that return or drop old values (09 R241, R242). -/
namespace Sys2Proof.Machine

/-! ### The run (09 R241, R242) -/

section
variable {s r s1 : State} {d : Dst} {a b : Src} {e : PortEntry} {i : LaneIn} {cas : Bool} {f : Nat} {ls : List LaneLoc}

/-- The lanes' accesses of an atomic. -/
def LaneIn.atomAddrs (i : LaneIn) : List (Nat × Word) := i.lanes.map fun l => (l, vget 0 i.a l)

theorem LaneIn.nodup_atomAddrs (i : LaneIn) : (i.atomAddrs.map Prod.fst).Nodup := by
  have hid : i.atomAddrs.map Prod.fst = i.lanes := by
    unfold LaneIn.atomAddrs
    rw [List.map_map]
    exact List.map_id _
  rw [hid]
  exact List.nodup_range.filter _

/-- The checks of a global atomic have passed. -/
def State.AtomChecked (s : State) (i : LaneIn) (cas : Bool) (f : Nat) (ls : List LaneLoc) (s1 : State) : Prop :=
  let n := tyBits s.now.ety / 8
  s.global i.atomAddrs (i.atomAddrs.filter fun x => decide (x.2.toNat % n ≠ 0)) n true true (i.atomOps cas s.now.ety f i.atomAddrs) ls s1

/-- What a global atomic does once its checks have passed. -/
theorem LaneReady.atomG_run (h : LaneReady s (atomOp cas d a b false f s.now) e r)
    (hi : s.laneIn s.now (atomOp cas d a b false f s.now) e.v = i) (hg : s.AtomChecked i cas f ls s1) {v0 : State}
    (hreads : State.slotReads s.cur s.now (atomOp cas d a b false f s.now) s1 = .ok v0) (ret : Bool) :
    s.atomG cas ret false d a b f = s.close s.cur (
      if f = 9 then
        let s2 := ls.foldl (fun (s' : State) l => match l.2.2 with
          | .mem pa nc => s'.arrive
              { addr := pa, v := BitVec.ofNat 32 (i.elemB s.now.ety l.1), sid := some s.cur, who := .row s.cur s.now.bind.lid
                part := s.now.bind.part, since := s'.time.toNat, nc := nc }
          | .peer _ => s') v0
        .ok ((s2.setSeat s.cur (s2.seat s.cur).dropLatches).next s.cur)
      else
        let x := ls.foldl (fun (r : State × List (Nat × Nat)) l =>
          ((r.1.atomLane s.cur (tyBits s.now.ety / 8) (s.now.updates i cas f l.1) l.2.2).1,
            r.2 ++ [(l.1, (r.1.atomLane s.cur (tyBits s.now.ety / 8) (s.now.updates i cas f l.1) l.2.2).2)])) (v0, [])
        if ret then do
          let s3 ← x.1.putLoad s.cur s.now d (fun l => extend (isSigned s.now.ety) (tyBits s.now.ety / 8) (laneOf x.2 l))
          return s3.next s.cur
        else .ok ((x.1.setSeat s.cur (x.1.seat s.cur).dropLatches).next s.cur)) := by
  unfold State.atomG
  rw [h.mem_run rfl hi]
  unfold State.AtomChecked State.global at hg
  have hupdate : (fun l old => update cas f s.now.ety old (i.elemB s.now.ety l) (i.cmpD s.now.ety l)) = s.now.updates i cas f := by
    funext l old
    exact update_eq _ _ _ _ _ _
  show s.close s.cur (s.gcheck s.now.bind.part (s.cur / 256 / 8) (some s.cur) i.atomAddrs
    (i.atomAddrs.filter fun x => decide (x.2.toNat % (tyBits s.now.ety / 8) ≠ 0)) (tyBits s.now.ety / 8) true true
    (i.atomOps cas s.now.ety f i.atomAddrs) >>= _) = _
  rw [hg]
  simp only [hreads, bind, Except.bind, update_eq]
  rfl

/-- A machine with the caches, the clock and the bytes of another. -/
theorem CachesStored.congr {s u u' : State} {n : Nat} {pas : List Nat} (h : CachesStored s u n pas) (hc : u'.cores = u.cores)
    (ht : u'.time = u.time) (hb : u'.hbyte = u.hbyte) : CachesStored s u' n pas := by
  have hcore := State.core_congr hc
  have hcached : ∀ k pa, u'.cached k pa = u.cached k pa := fun k pa => by unfold State.cached; rw [hcore, ht]
  unfold CachesStored at h ⊢
  simp only [hcore, hcached, hb]
  exact h

theorem Completed.congr {s u u' : State} {ls : List LaneLoc} {g : Option Nat} (h : Completed s u ls g) (hc : u'.cores = u.cores) :
    Completed s u' ls g := by
  unfold Completed at h ⊢
  dsimp only at h ⊢
  rw [State.core_congr hc]
  exact h

/-- A slot's own doing changes neither homes nor caches. -/
theorem Slot.homes_kept {r u : State} {w : Seat} (h : Slot r u w) :
    u.cores = r.cores ∧ u.time = r.time ∧ u.hbyte = r.hbyte ∧ u.hbm = r.hbm ∧ u.elided = r.elided := by
  rw [h.rest]
  exact ⟨rfl, rfl, rfl, rfl, rfl⟩

/-- What a global atomic's updates leave, once the slot has ended. -/
structure Updated (s r u : State) (w : Seat) (n : Nat) (ls : List LaneLoc) (g : Option Nat) (bytes : Nat → Byte) : Prop where
  completed : Completed s u ls g
  caches : CachesStored s u n ((memLocs ls).map fun x => x.2)
  slot : Slot { r with hbm := u.hbm, cores := u.cores, elided := u.elided } u w
  bytes : u.hbyte = bytes

theorem Updating.ended {s r v u : State} {w w' : Seat} {n : Nat} {l : Vector Latch 4} {p : Vector Word 4} {ls : List LaneLoc}
    {g : Option Nat} (h : Updating s r v w n l p ls g)
    (hu : Slot { r with hbm := v.hbm, cores := v.cores, elided := v.elided } u w') {bytes : Nat → Byte} (hb : v.hbyte = bytes) :
    Updated s r u w' n ls g bytes := by
  obtain ⟨hcores, htime, hbyte, hhbm, helided⟩ := hu.homes_kept
  have hv := h.slot.homes_kept
  refine ⟨Completed.congr ⟨h.seat, h.core⟩ hcores, h.caches.stored.congr hcores (htime.trans hv.2.1.symm) (hbyte.trans hv.2.2.1.symm),
    ?_, (hbyte.trans hv.2.2.1.symm).trans hb⟩
  rw [hhbm, hcores, helided]
  exact hu

theorem loaded_atomic {n : Nat} (sg : Bool) (h0 : 0 < n) (h8 : n ≤ 8) (w : Word) :
    Loaded n sg (fun j => w.extractLsb' (8 * j) 8) (extend sg n (w.toNat % 2 ^ (8 * n))) := by
  refine (loaded_extend sg h0 h8 (Nat.mod_lt _ (Nat.two_pow_pos _))).congr fun j hj => ?_
  apply BitVec.eq_of_getLsbD_eq
  intro i hi
  rw [BitVec.getLsbD_extractLsb', BitVec.getLsbD_ofNat, Nat.testBit_div_two_pow, Nat.testBit_mod_two_pow,
    decide_eq_true hi, decide_eq_true (by omega : i + 8 * j < 8 * n), Nat.add_comm]
  simp only [Bool.true_and]
  rfl

section
variable {as : List (Nat × Word)} (h : LaneReady s (atomOp cas d a b false f s.now) e r)
  (hi : s.laneIn s.now (atomOp cas d a b false f s.now) e.v = i) (hg : s.AtomChecked i cas f ls s1) (hmem : MemOk s)
include h hg hmem

/-- The lanes' updates after the slot has read its operands: what they leave, and what each lane found. -/
theorem LaneReady.atomG_updates :
    ∃ v0 v g vs, State.slotReads s.cur s.now (atomOp cas d a b false f s.now) s1 = .ok v0 ∧
      ls.foldl (fun (r : State × List (Nat × Nat)) l =>
          ((r.1.atomLane s.cur (tyBits s.now.ety / 8) (s.now.updates i cas f l.1) l.2.2).1,
            r.2 ++ [(l.1, (r.1.atomLane s.cur (tyBits s.now.ety / 8) (s.now.updates i cas f l.1) l.2.2).2)])) (v0, []) = (v, vs) ∧
      Updating s { s1 with rows := r.rows } v s.now (tyBits s.now.ety / 8) s.now.lat s.now.latpois ls g ∧
      v.hbyte = (atomics (tyBits s.now.ety / 8) (s.now.updates i cas f) (memLocs ls) s.hbyte).1 ∧
      (∀ x ∈ memLocs ls, laneOf vs x.1 = (atomics (tyBits s.now.ety / 8) (s.now.updates i cas f) (memLocs ls) s.hbyte).2 x.1) ∧
      ∀ k va w, (k, va, .peer (.data w)) ∈ ls → laneOf vs k = w.toNat % 2 ^ (8 * (tyBits s.now.ety / 8)) := by
  have hplaces := State.global_places hg
  obtain ⟨v0, hreads, hslot, hlats⟩ := h.reads (sameSlots_of_answers hplaces.state)
  have hsame := Slot.sameHomes hplaces.state hslot
  obtain ⟨hcores, htime, hbyte, hhbm, helided⟩ := hslot.homes_kept
  have hstart : Updating s { s1 with rows := r.rows } v0 s.now (tyBits s.now.ety / 8) s.now.lat s.now.latpois [] s.now.gwct :=
    { mem := hsame.mem hmem
      slot := by rw [hhbm, hcores, helided]; exact hslot
      lats := hlats
      caches := hsame.caches _
      leases := hsame.leases
      seat := Receives.nil s _
      core := fun _ => by rw [State.core_congr hsame.cores]; exact Receives.nil s _ }
  have hdvd : tyBits s.now.ety / 8 ∣ 8 := by
    obtain ⟨h0, h8, -⟩ := atomTy_bytes (f := f) (ty := s.now.ety) (by simpa [atomOp] using h.accepts.1)
    have : ∀ ty : BitVec 4, 0 < tyBits ty / 8 → tyBits ty / 8 ∣ 8 := by decide
    exact this _ h0
  obtain ⟨v, g, vs, hfold, hupd, hbytes, hold, hpeer⟩ := State.atomLanes (r := { s1 with rows := r.rows })
    (Nat.lt_of_le_of_lt (Nat.le_of_dvd (by decide) hdvd) (by decide)) (sameSlots_of_answers hplaces.state).cur h.resident
    (s.now.updates i cas f) ls (hplaces.within hdvd)
    (hplaces.lanes i.nodup_atomAddrs) hstart []
  rw [hsame.bytes] at hbytes hold
  exact ⟨v0, v, g, vs, hreads, hfold, hupd, hbytes, hold, hpeer⟩

include hi

theorem LaneReady.atomG_returns (hf : f ≠ 9) (hd : d.nw = true ∨ s.now.uniform = true ∨ d.dr.toNat ≠ 31) :
    let n := tyBits s.now.ety / 8
    let q := atomics n (s.now.updates i cas f) (memLocs ls) s.hbyte
    ∃ u v g, s.atomG cas true false d a b f = .next u ∧ LatchesGone u ∧
      Updated s { s1 with rows := r.rows } u ({ s.now with gwct := g }.result s.now d v).advance n ls g q.1 ∧
      (∀ x ∈ memLocs ls, Loaded n (isSigned s.now.ety) (fun j => BitVec.ofNat 8 (q.2 x.1 / 2 ^ (8 * j))) (v x.1)) ∧
      ∀ l va w, (l, va, .peer (.data w)) ∈ ls → Loaded n (isSigned s.now.ety) (fun j => w.extractLsb' (8 * j) 8) (v l) := by
  intro n q
  obtain ⟨h0, h8, -⟩ := atomTy_bytes (f := f) (ty := s.now.ety) (by simpa [atomOp] using h.accepts.1)
  have hcur : ({ s1 with rows := r.rows } : State).cur = s.cur := (sameSlots_of_answers (State.global_places hg).state).cur
  obtain ⟨v0, v, g, vs, hreads, hfold, hupd, hbytes, hold, hpeer⟩ := h.atomG_updates hg hmem
  obtain ⟨u, hput, hslot, hgone⟩ := hupd.slot.putLoad hcur h.resident s.now d
    (fun l => extend (isSigned s.now.ety) (tyBits s.now.ety / 8) (laneOf vs l)) hd
  refine ⟨u.next s.cur, fun l => extend (isSigned s.now.ety) (tyBits s.now.ety / 8) (laneOf vs l), g, ?_, hgone,
    hupd.ended hslot hbytes, fun x hx => ?_, fun l va w hw => ?_⟩
  · rw [h.atomG_run hi hg hreads, if_neg hf]
    simp only [hfold, if_true, bind, Except.bind, hput]
    rfl
  · dsimp only
    rw [hold x hx]
    exact loaded_extend _ h0 h8 (atomics_lt _ _ _ _ _)
  · dsimp only
    rw [hpeer l va w hw]
    exact loaded_atomic _ h0 h8 w

theorem LaneReady.atomG_silent (hf : f ≠ 9) :
    ∃ u g, s.atomG cas false false d a b f = .next u ∧ LatchesGone u ∧
      Updated s { s1 with rows := r.rows } u { s.now with gwct := g }.advance (tyBits s.now.ety / 8) ls g
        (atomics (tyBits s.now.ety / 8) (s.now.updates i cas f) (memLocs ls) s.hbyte).1 := by
  have hcur : ({ s1 with rows := r.rows } : State).cur = s.cur := (sameSlots_of_answers (State.global_places hg).state).cur
  obtain ⟨v0, v, g, vs, hreads, hfold, hupd, hbytes, -, -⟩ := h.atomG_updates hg hmem
  obtain ⟨hslot, hgone⟩ := hupd.slot.dropped hcur h.resident
  refine ⟨_, g, ?_, hgone, hupd.ended hslot hbytes⟩
  rw [h.atomG_run hi hg hreads, if_neg hf]
  simp only [hfold, Bool.false_eq_true, if_false]
  rfl

end

end

end Sys2Proof.Machine

/-! FADDX: contributions arrive at their units (04 R113, R115; 09 R241, R242). -/
namespace Sys2Proof.Machine

/-! ### Contributions (04 R113, R115) -/

/-- A contribution that needs a fresh accumulator waits: its unit has none free, or an earlier arrival there waits for one. -/
def State.Blocked (s : State) (c : Contrib) : Prop :=
  s.unitRoom c.addr = false ∨ ∃ o ∈ s.contribs, s.homeOf o.addr = s.homeOf c.addr ∧ s.accum o.addr = none ∧ s.contribFrozen o = false

/-- A row's contribution has entered its unit, its word's accumulator being `a` before. -/
def State.entered (s : State) (c : Contrib) (sid : Nat) (a : Accum) : State :=
  ({ s with accums := Sparse.set none s.accums c.addr (some (a.add c.v.toNat)) } : State).noteGwct sid (s.gwct (leased c.addr c.nc))

section
variable {v : State} {c : Contrib} {sid : Nat} (hsid : c.sid = some sid) (hfree : v.contribFrozen c = false)
include hsid hfree

theorem State.arrive_of_turn (hturn : v.turn v.contribs c.addr = true) :
    v.arrive c = ((v.contribute c.addr c.v.toNat).map fun u => u.noteGwct sid (v.gwct (leased c.addr c.nc))).getD
      { v with contribs := v.contribs ++ [c] } := by
  unfold State.arrive State.perform
  simp only [hturn, hfree, Bool.not_true, Bool.or_false, Bool.false_eq_true, if_false]
  rw [hsid]

theorem State.arrive_open {a : Accum} (ha : v.accum c.addr = some a) : v.arrive c = v.entered c sid a := by
  rw [State.arrive_of_turn hsid hfree (by simp [State.turn, ha])]
  unfold State.contribute
  rw [ha]
  rfl

theorem State.arrive_fresh (ha : v.accum c.addr = none) (hb : ¬v.Blocked c) :
    v.arrive c = v.entered c sid (({} : Accum).add (readBytes v.hbyte c.addr 4)) := by
  unfold State.Blocked at hb
  rw [not_or, Bool.not_eq_false] at hb
  obtain ⟨hroom, hold⟩ := hb
  rw [State.arrive_of_turn hsid hfree (by
    unfold State.turn
    rw [ha, Option.isSome_none, Bool.false_or, Bool.not_eq_true', Bool.eq_false_iff, Ne, List.any_eq_true]
    rintro ⟨o, ho, hwaits⟩
    exact hold ⟨o, ho, by simpa [and_assoc] using hwaits⟩)]
  unfold State.contribute
  rw [ha, hroom, State.hread_eq_readBytes]
  rfl

omit hsid hfree in
theorem State.arrive_waits (ha : v.accum c.addr = none) (hb : v.Blocked c) : v.arrive c = { v with contribs := v.contribs ++ [c] } := by
  have hnone : v.perform v.contribs c = none := by
    unfold State.perform
    rcases hb with hroom | ⟨o, ho, hhome, hnone, hfrozen⟩
    · unfold State.contribute
      simp [ha, hroom]
    · have hturn : v.turn v.contribs c.addr = false := by
        unfold State.turn
        rw [ha, Option.isSome_none, Bool.false_or, Bool.not_eq_false', List.any_eq_true]
        exact ⟨o, ho, by simp [hhome, hnone, hfrozen]⟩
      rw [hturn]
      rfl
  unfold State.arrive
  rw [hnone]
  rfl

/-- A contribution arrives in one of two ways: it enters, or it waits. -/
theorem State.arrive_cases :
    (∃ a, v.arrive c = v.entered c sid a) ∨ v.arrive c = { v with contribs := v.contribs ++ [c] } := by
  cases ha : v.accum c.addr with
  | some a => exact .inl ⟨a, State.arrive_open hsid hfree ha⟩
  | none =>
    by_cases hb : v.Blocked c
    · exact .inr (State.arrive_waits ha hb)
    · exact .inl ⟨_, State.arrive_fresh hsid hfree ha hb⟩

end

theorem State.entered_accum_self (s : State) (c : Contrib) (sid : Nat) (a : Accum) :
    (s.entered c sid a).accum c.addr = some (a.add c.v.toNat) :=
  Sparse.get_set_self none s.accums c.addr nofun

theorem State.entered_accum_ne (s : State) (c : Contrib) (sid : Nat) (a : Accum) {pa : Nat} (h : pa ≠ c.addr) :
    (s.entered c sid a).accum pa = s.accum pa :=
  Sparse.get_set_ne none s.accums _ h

/-- The completion time at one core, and nowhere else. -/
theorem State.entered_core (s : State) (c : Contrib) (sid : Nat) (a : Accum) (k : Nat) :
    (∃ g, (s.entered c sid a).core k = { s.core k with gwct := g }) ∧ (k ≠ sid / 256 → (s.entered c sid a).core k = s.core k) := by
  unfold State.entered
  rw [State.noteGwct_eq]
  have hne : k ≠ sid / 256 → (s.entered c sid a).core k = s.core k := fun h => State.core_setCore_ne _ _ h
  refine ⟨?_, hne⟩
  by_cases hk : k = sid / 256
  · by_cases h64 : k < 64
    · rw [← hk, State.core_setCore_self _ _ h64]
      exact ⟨_, rfl⟩
    · rw [← hk, State.setCore_none _ _ (by omega)]
      exact ⟨(s.core k).gwct, rfl⟩
  · exact ⟨(s.core k).gwct, hne hk⟩

/-- The issuer's completion time is no earlier than now, than the word's lease, nor than the one that it had. -/
theorem State.entered_gwct (s : State) (c : Contrib) {sid : Nat} (a : Accum) (hres : (s.seat sid).resident = true) :
    ∃ g, ((s.entered c sid a).seat sid).gwct = some g ∧ s.time.toNat ≤ g ∧ (c.nc = false → s.leaseOf c.addr ≤ g) ∧
      ∀ h, (s.seat sid).gwct = some h → h ≤ g := by
  obtain ⟨g, hg, hG, hold⟩ := laterGwct_some (s.gwct (leased c.addr c.nc)) (s.seat sid).gwct
  obtain ⟨htime, hlease⟩ := s.gwct_ge (leased c.addr c.nc)
  refine ⟨g, ?_, htime.trans hG, fun hnc => (hlease c.addr ?_).trans hG, hold⟩
  · rw [← hg]
    exact congrArg Seat.gwct (State.seat_setSeat_self s sid
      (t := { s.seat sid with gwct := laterGwct (some (s.gwct (leased c.addr c.nc))) (s.seat sid).gwct }) hres)
  · rw [hnc]
    exact List.mem_singleton_self _

theorem State.arrive_arrives {v : State} {c : Contrib} {sid : Nat} (hsid : c.sid = some sid) (hfree : v.contribFrozen c = false) :
    Arrives v (v.arrive c) c := by
  have hperformed : ∀ {u a}, u = v.entered c sid a → u.accum c.addr = some (a.add c.v.toNat) ∧ u.contribs = v.contribs ∧
      ∀ sid, c.sid = some sid → (v.seat sid).resident = true → ∃ g, (u.seat sid).gwct = some g ∧ v.time.toNat ≤ g ∧
        (c.nc = false → v.leaseOf c.addr ≤ g) ∧ ∀ h, (v.seat sid).gwct = some h → h ≤ g := by
    rintro u a rfl
    refine ⟨v.entered_accum_self _ _ _, rfl, fun k hk hres => ?_⟩
    obtain rfl : sid = k := Option.some.inj (hsid.symm.trans hk)
    exact v.entered_gwct c a hres
  unfold Arrives
  refine ⟨fun a ha => hperformed (State.arrive_open hsid hfree ha), fun ha hb => hperformed (State.arrive_fresh hsid hfree ha hb),
    fun ha hb => ?_, ?_⟩
  · rw [State.arrive_waits ha hb]
    exact ⟨rfl, rfl⟩
  · rcases State.arrive_cases hsid hfree with ⟨a, h⟩ | h <;> rw [h]
    · exact ⟨fun pa hpa => v.entered_accum_ne _ _ _ hpa, fun k => (v.entered_core c sid a k).1, rfl⟩
    · exact ⟨fun pa _ => rfl, fun k => ⟨(v.core k).gwct, rfl⟩, rfl⟩

/-! ### A slot's contributions in turn -/

/-- The contribution of a lane that reaches memory. -/
def State.contribOf (s : State) (i : LaneIn) (x : LaneLoc) : Option Contrib :=
  match x.2.2 with
  | .mem pa nc => some { addr := pa, v := BitVec.ofNat 32 (i.elemB s.now.ety x.1), sid := some s.cur, who := .row s.cur s.now.bind.lid
                         part := s.now.bind.part, since := s.time.toNat, nc := nc }
  | .peer _ => none

/-- The machine part way through the arrivals of a slot. -/
structure Contributing (s r v : State) (w : Seat) : Prop where
  slot : Slot { r with accums := v.accums, contribs := v.contribs, cores := v.cores } v { w with gwct := v.now.gwct }
  core : ∀ k, ∃ g, v.core k = { s.core k with gwct := g }
  others : ∀ k, k ≠ s.cur / 256 → v.core k = s.core k

theorem Slot.gwct_kept {r u : State} {w : Seat} (h : Slot r u w) : u.now.gwct = w.gwct := by
  rw [h.seat]

/-- Accumulators replaced beside what the slot did. -/
theorem Slot.with_accums {r u : State} {w : Seat} (h : Slot r u w) (as : List (Nat × Option Accum)) :
    Slot { r with accums := as } { u with accums := as } w :=
  h.rebase rfl rfl rfl (by conv_lhs => rw [h.rest])

theorem Contributing.arrive {s r v : State} {w : Seat} (h : Contributing s r v w) (hcur : r.cur = s.cur) (hw : w.resident = true)
    {c : Contrib} (hsid : c.sid = some s.cur) (hfree : v.contribFrozen c = false) : Contributing s r (v.arrive c) w := by
  rcases State.arrive_cases hsid hfree with ⟨a, hv⟩ | hv <;> rw [hv]
  · have hslot := (h.slot.with_accums (Sparse.set none v.accums c.addr (some (a.add c.v.toNat)))).noteGwct (k := s.cur) hcur hw
      (v.gwct (leased c.addr c.nc))
    refine ⟨?_, fun k => ?_, fun k hk => ?_⟩
    · rw [show (v.entered c s.cur a).now.gwct = laterGwct (some (v.gwct (leased c.addr c.nc))) v.now.gwct from
        hslot.gwct_kept]
      exact hslot
    · obtain ⟨g, hg⟩ := (v.entered_core c s.cur a k).1
      obtain ⟨g', hg'⟩ := h.core k
      exact ⟨g, by rw [hg, hg']⟩
    · rw [(v.entered_core c s.cur a k).2 hk, h.others k hk]
  · exact ⟨h.slot.rebase rfl rfl rfl (by conv_lhs => rw [h.slot.rest]), h.core, h.others⟩

theorem State.arrive_time (v : State) (c : Contrib) : (v.arrive c).time = v.time := by
  have hcontribute : ∀ pa x u, v.contribute pa x = some u → u.time = v.time := by
    intro pa x u
    unfold State.contribute
    split
    · rintro ⟨⟩
      rfl
    · split
      · rintro ⟨⟩
        rfl
      · nofun
  have hperform : ∀ u, v.perform v.contribs c = some u → u.time = v.time := by
    intro u
    unfold State.perform
    split
    · nofun
    · intro h
      obtain ⟨u1, hu1, rfl⟩ := Option.map_eq_some_iff.mp h
      rw [← hcontribute _ _ _ hu1]
      dsimp only
      split
      · rfl
      · unfold State.ackAt
        split <;> rfl
      · rfl
  unfold State.arrive
  cases h : v.perform v.contribs c with
  | none => rfl
  | some u => exact hperform u h

/-- An unfrozen row's contribution is not held back. -/
theorem Contributing.free {s r v : State} {w : Seat} (h : Contributing s r v w) (hcur : r.cur = s.cur) (hw : w.status ≠ .frozen)
    {c : Contrib} (hsid : c.sid = some s.cur) : v.contribFrozen c = false := by
  have hseat : (v.seat s.cur).status = w.status := by
    have := congrArg Seat.status h.slot.seat
    unfold State.now at this
    rwa [h.slot.cur.trans hcur] at this
  unfold State.contribFrozen
  rw [hsid]
  simpa [hseat] using hw

/-- The contributions of a slot arrive one after the other. -/
theorem Contributing.all {s r v : State} {w : Seat} (hcur : r.cur = s.cur) (hw : w.resident = true) (hfree : w.status ≠ .frozen)
    {cs : List Contrib} (hcs : ∀ c ∈ cs, c.sid = some s.cur) (h : Contributing s r v w) :
    Contributing s r (cs.foldl State.arrive v) w ∧ ∀ k c, cs[k]? = some c →
      Arrives ((cs.take k).foldl State.arrive v) ((cs.take (k + 1)).foldl State.arrive v) c := by
  induction cs generalizing v with
  | nil => exact ⟨h, nofun⟩
  | cons c cs ih =>
    obtain ⟨hc, hcs⟩ := List.forall_mem_cons.mp hcs
    have hf := h.free hcur hfree hc
    obtain ⟨hall, harr⟩ := ih hcs (h.arrive hcur hw hc hf)
    refine ⟨hall, fun k c' hk => ?_⟩
    cases k with
    | zero =>
      obtain rfl : c = c' := Option.some.inj hk
      exact State.arrive_arrives hc hf
    | succ k => exact harr k c' hk

/-- The fold over a slot's places is the fold over the contributions among them. -/
theorem foldl_contribs {s : State} {i : LaneIn} {f : State → LaneLoc → State}
    (hmem : ∀ v l va pa nc, v.time = s.time → f v (l, va, .mem pa nc) = v.arrive
      { addr := pa, v := BitVec.ofNat 32 (i.elemB s.now.ety l), sid := some s.cur, who := .row s.cur s.now.bind.lid
        part := s.now.bind.part, since := s.time.toNat, nc := nc })
    (hpeer : ∀ v l va p, f v (l, va, .peer p) = v) (ls : List LaneLoc) {v : State} (ht : v.time = s.time) :
    ls.foldl f v = (ls.filterMap (s.contribOf i)).foldl State.arrive v := by
  induction ls generalizing v with
  | nil => rfl
  | cons x ls ih =>
    obtain ⟨l, va, loc⟩ := x
    cases loc with
    | mem pa nc =>
      rw [List.foldl_cons, hmem v l va pa nc ht, ih ((v.arrive_time _).trans ht)]
      rfl
    | peer p =>
      rw [List.foldl_cons, hpeer, ih ht]
      rfl

/-- The accesses at memory and the contributions are as many, and in the same order. -/
theorem getElem?_contribs {s : State} {i : LaneIn} {p : LaneLoc → Bool} (hp : ∀ x, p x = (s.contribOf i x).isSome) {ls : List LaneLoc}
    {k : Nat} {x : LaneLoc} (hx : (ls.filter p)[k]? = some x) : (ls.filterMap (s.contribOf i))[k]? = s.contribOf i x := by
  have hmap : (ls.filterMap (s.contribOf i)).map some = (ls.filter p).map (s.contribOf i) := by
    clear hx
    induction ls with
    | nil => rfl
    | cons y ls ih =>
      cases hy : s.contribOf i y with
      | none => rw [List.filterMap_cons_none hy, List.filter_cons_of_neg (by simp [hp, hy]), ih]
      | some c => rw [List.filterMap_cons_some hy, List.filter_cons_of_pos (by simp [hp, hy]), List.map_cons, List.map_cons, ih, hy]
  have hk := congrArg (·[k]?) hmap
  simp only [List.getElem?_map, hx, Option.map_some] at hk
  obtain ⟨c, hc, hcx⟩ := Option.map_eq_some_iff.mp hk
  rw [hc, hcx]

theorem length_contribs (s : State) (i : LaneIn) (ls : List LaneLoc) :
    (ls.filterMap (s.contribOf i)).length = (memLocs ls).length := by
  unfold memLocs
  rw [List.length_filterMap_eq_countP, List.length_filterMap_eq_countP]
  refine List.countP_congr fun x _ => ?_
  obtain ⟨l, va, loc⟩ := x
  cases loc <;> rfl

/-! ### FADDX (04 R113, R115) -/

/-- What the contributions of a FADDX slot leave. -/
structure Contributed (s r u : State) (w : Seat) (cs : List Contrib) (v0 : State) : Prop where
  slot : Slot { r with accums := u.accums, contribs := u.contribs, cores := u.cores } u w
  core : ∀ k, ∃ g, u.core k = { s.core k with gwct := g }
  others : ∀ k, k ≠ s.cur / 256 → u.core k = s.core k
  accums : u.accums = (cs.foldl State.arrive v0).accums
  contribs : u.contribs = (cs.foldl State.arrive v0).contribs
  gwct : u.now.gwct = (cs.foldl State.arrive v0).now.gwct

/-- A slot's own doing changes no accumulator and no waiting contribution. -/
theorem Slot.units_kept {r u : State} {w : Seat} (h : Slot r u w) : u.accums = r.accums ∧ u.contribs = r.contribs := by
  rw [h.rest]
  exact ⟨rfl, rfl⟩

/-- What a FADDX slot does: its lanes' contributions arrive in turn, on the machine that has read its operands. -/
theorem LaneReady.faddx {s r s1 : State} {d : Dst} {a b : Src} {e : PortEntry} {i : LaneIn} {ls : List LaneLoc}
    (h : LaneReady s (atomOp false d a b false 9 s.now) e r) (hi : s.laneIn s.now (atomOp false d a b false 9 s.now) e.v = i)
    (hg : s.AtomChecked i false 9 ls s1) (hfree : s.now.status ≠ .frozen) :
    ∃ v0, Slot { s1 with rows := r.rows } v0 s.now ∧
      (∀ k c, (ls.filterMap (s.contribOf i))[k]? = some c →
        Arrives (((ls.filterMap (s.contribOf i)).take k).foldl State.arrive v0)
          (((ls.filterMap (s.contribOf i)).take (k + 1)).foldl State.arrive v0) c) ∧
      ∀ ret, ∃ u, s.atomG false ret false d a b 9 = .next u ∧ LatchesGone u ∧
        Contributed s { s1 with rows := r.rows } u { s.now with gwct := u.now.gwct }.advance (ls.filterMap (s.contribOf i)) v0 := by
  have hs1 := (State.global_places hg).state
  have hcur : ({ s1 with rows := r.rows } : State).cur = s.cur := (sameSlots_of_answers hs1).cur
  obtain ⟨v0, hreads, hslot, -⟩ := h.reads (sameSlots_of_answers hs1)
  have hsame := Slot.sameHomes hs1 hslot
  have hstart : Contributing s { s1 with rows := r.rows } v0 s.now :=
    { slot := by
        obtain ⟨haccums, hcontribs⟩ := hslot.units_kept
        rw [haccums, hcontribs, hslot.homes_kept.1, hslot.gwct_kept]
        exact hslot
      core := fun k => ⟨(s.core k).gwct, by rw [State.core_congr hsame.cores]⟩
      others := fun k _ => State.core_congr hsame.cores k }
  have hsid : ∀ c ∈ ls.filterMap (s.contribOf i), c.sid = some s.cur := by
    intro c hc
    obtain ⟨⟨l, va, loc⟩, -, hx⟩ := List.mem_filterMap.mp hc
    cases loc <;> cases hx
    rfl
  obtain ⟨hall, harr⟩ := hstart.all hcur h.resident hfree hsid
  refine ⟨v0, hslot, harr, fun ret => ?_⟩
  obtain ⟨hdrop, hgone⟩ := hall.slot.dropped hcur h.resident
  generalize hu : (((ls.filterMap (s.contribOf i)).foldl State.arrive v0).setSeat s.cur
    (((ls.filterMap (s.contribOf i)).foldl State.arrive v0).seat s.cur).dropLatches).next s.cur = u at hdrop hgone
  have hgwct : u.now.gwct = ((ls.filterMap (s.contribOf i)).foldl State.arrive v0).now.gwct :=
    hdrop.gwct_kept.trans (Seat.advance_gwct _)
  refine ⟨_, ?_, hgone, ?_⟩
  · rw [h.atomG_run hi hg hreads, if_pos rfl, foldl_contribs (s := s) (i := i) (fun v l va pa nc ht => by rw [ht])
      (fun _ _ _ _ => rfl) ls hsame.time]
    exact congrArg Host.Outcome.next hu
  · rw [hgwct]
    subst hu
    exact ⟨hdrop, hall.core, hall.others, rfl, rfl, hgwct⟩

/-- FADDX takes elements of 32 bits. -/
theorem atomTy_faddx {ty : BitVec 4} (h : atomTy 9 ty = true) : tyBits ty = 32 := by
  revert ty
  decide

/-- Settles O31: the updates lane by lane for every operation but FADDX, and for FADDX the arrivals. -/
theorem globalAtomics : Obligations.GlobalAtomics := by
  unfold Obligations.GlobalAtomics
  intro s d a b f cas e r ls s1 hmem hcas hf12 t o w n i as new q hg h
  have hop : o d = atomOp cas d a b false f.toNat t := rfl
  rw [hop] at h
  have hg' : s.AtomChecked i cas f.toNat ls s1 := hg
  have h12 : decide (12 ≤ f.toNat) = false := decide_eq_false (by omega)
  have hlegal : f ≠ 9 → (decide (12 ≤ f.toNat) || (f == 9 && d.code != 0)) = false := fun h9 => by
    rw [h12, beq_eq_false_iff_ne.mpr h9]
    rfl
  have hne : f ≠ 9 → f.toNat ≠ 9 := fun h9 e => h9 (BitVec.eq_of_toNat_eq e)
  refine ⟨fun h9 hd => ?_, fun hd hc h9 => ?_, fun hd hc h9 hfree => ?_⟩
  · obtain ⟨u, v, g, hrun, hgone, hupd, hold, hpeer⟩ := h.atomG_returns rfl hg' hmem (hne h9) hd
    refine ⟨u, v, g, ?_, hgone, hupd.completed, hupd.caches, hupd.slot, hupd.bytes, hold, hpeer⟩
    rw [← hrun]
    cases cas with
    | false =>
      show s.atomG false true (decide (12 ≤ f.toNat) || (f == 9 && d.code != 0)) d a b f.toNat = _
      rw [hlegal h9]
    | true =>
      obtain rfl := hcas rfl
      rfl
  · subst hd hc
    obtain ⟨u, g, hrun, hgone, hupd⟩ := h.atomG_silent rfl hg' hmem (hne h9)
    refine ⟨u, g, ?_, hgone, hupd.completed, hupd.caches, hupd.slot, hupd.bytes⟩
    rw [← hrun]
    show s.atomG false false (decide (12 ≤ f.toNat)) ⟨false, 0⟩ a b f.toNat = _
    rw [h12]
  · subst hd hc h9
    obtain ⟨v0, hslot, harr, hrun⟩ := h.faddx rfl hg' hfree
    have hsame := Slot.sameHomes (State.global_places hg).state hslot
    have hs1 := (State.global_places hg).state
    obtain ⟨haccums, hcontribs⟩ := hslot.units_kept
    obtain ⟨-, -, -, hhbm, -⟩ := hslot.homes_kept
    have hbits : tyBits t.ety = 32 := atomTy_faddx (by simpa [atomOp] using h.accepts.1)
    intro j hj
    have hexec : ∃ ret, exec j s = s.atomG false ret false ⟨false, 0⟩ a b 9 := by
      rcases List.mem_cons.mp hj with rfl | hj
      · exact ⟨false, rfl⟩
      · obtain rfl := List.mem_singleton.mp hj
        exact ⟨true, rfl⟩
    obtain ⟨ret, hexec⟩ := hexec
    obtain ⟨u, hu, hgone, hdone⟩ := hrun ret
    refine ⟨u, hexec.trans hu, hgone, hdone.slot, hdone.core, hdone.others,
      fun k => ((ls.filterMap (s.contribOf i)).take k).foldl State.arrive v0, ?_, ?_, ?_, hsame.leases, hsame.time,
      hslot.gwct_kept, ?_, ?_⟩
    · exact haccums.trans (by rw [hs1])
    · exact hcontribs.trans (by rw [hs1])
    · exact hhbm.trans (by rw [hs1])
    · intro k l va pa nc hk
      have hc := getElem?_contribs (s := s) (i := i) (fun ⟨_, _, loc⟩ => by cases loc <;> rfl) hk
      have hv : BitVec.ofNat 32 (i.elemB s.now.ety l) = (vget 0 i.b l).setWidth 32 := by
        unfold LaneIn.elemB
        rw [hbits]
        exact BitVec.eq_of_toNat_eq (by simp)
      rw [← hv]
      exact harr k _ hc
    · rw [← length_contribs s i ls]
      beta_reduce
      rw [List.take_length]
      exact ⟨hdone.accums, hdone.contribs, hdone.gwct⟩

end Sys2Proof.Machine

/-! What the keel's masters write at the homes, and the header of a queue in memory (09 R254). -/
namespace Sys2Proof.Machine

/-! ### Stores that no core issues -/

/-- Nothing but the bytes of HBM, their marks and the count of elided sectors is another. -/
def StoresOnly (u v : State) : Prop := v = { u with hbm := v.hbm, hpois := v.hpois, hue := v.hue, elided := v.elided }

theorem StoresOnly.refl (u : State) : StoresOnly u u := rfl

theorem StoresOnly.trans {u v w : State} (h : StoresOnly u v) (h' : StoresOnly v w) : StoresOnly u w := by
  unfold StoresOnly at h h' ⊢
  rw [h', h]

theorem State.elide_stores (s : State) (secs : List Nat) : StoresOnly s (s.elide secs) := rfl

theorem State.unmark_stores (s : State) (secs : List Nat) : StoresOnly s (s.unmark secs) := by
  unfold State.unmark
  induction secs generalizing s with
  | nil => exact StoresOnly.refl s
  | cons c secs ih =>
    refine StoresOnly.trans ?_ (ih _)
    rfl

/-- The stores of a keel master, one after the other. -/
theorem State.put_none_fold (ws : List (Nat × Nat × Nat)) (s : State) :
    StoresOnly s (ws.foldl (fun s w => s.put none w.1 w.2.1 w.2.2) s) ∧
      (MemOk s → (ws.foldl (fun s w => s.put none w.1 w.2.1 w.2.2) s).hbyte =
        ws.foldl (fun m w => storeBytes m w.1 w.2.1 w.2.2) s.hbyte) := by
  induction ws generalizing s with
  | nil => exact ⟨StoresOnly.refl s, fun _ => rfl⟩
  | cons w ws ih =>
    obtain ⟨honly, hbyte⟩ := ih (s.put none w.1 w.2.1 w.2.2)
    have hput : StoresOnly s (s.put none w.1 w.2.1 w.2.2) := by
      show StoresOnly s (s.hwrite w.1 w.2.1 w.2.2)
      unfold StoresOnly
      rw [State.hwrite_rest]
    refine ⟨hput.trans honly, fun h => ?_⟩
    rw [List.foldl_cons, List.foldl_cons, hbyte (memOk_put _ _ _ _ _ h), State.put_hbyte h]

theorem State.puts_none_only (s : State) (ws : List (Nat × Nat × Nat)) : StoresOnly s (s.puts none ws) :=
  ((s.put_none_fold ws).1.trans (State.elide_stores _ _)).trans (State.unmark_stores _ _)

theorem State.puts_none_hbyte {s : State} (h : MemOk s) (ws : List (Nat × Nat × Nat)) :
    (s.puts none ws).hbyte = ws.foldl (fun m w => storeBytes m w.1 w.2.1 w.2.2) s.hbyte := by
  unfold State.puts
  exact (State.unmark_same _ _).2.2.trans ((s.put_none_fold ws).2 h)

/-- Eight words stored in a row, read back. -/
theorem readBytes_storeWords (m : Nat → Byte) (a : Nat) (v : Nat → Nat) {n k : Nat} (hk : k < n) :
    readBytes (((List.range n).map fun j => (a + 8 * j, 8, v j)).foldl (fun m w => storeBytes m w.1 w.2.1 w.2.2) m) (a + 8 * k) 8 =
      v k % 2 ^ 64 := by
  induction n with
  | zero => omega
  | succ n ih =>
    rw [List.range_succ, List.map_append, List.foldl_append]
    by_cases hn : k = n
    · subst hn
      exact readBytes_storeBytes _ _ _ _
    · exact (readBytes_storeBytes_disjoint _ (by dsimp only; omega)).trans (ih (by omega))

theorem storeWords_outside (m : Nat → Byte) {a : Nat} (v : Nat → Nat) {n x : Nat} (hx : x < a ∨ a + 8 * n ≤ x) :
    ((List.range n).map fun j => (a + 8 * j, 8, v j)).foldl (fun m w => storeBytes m w.1 w.2.1 w.2.2) m x = m x := by
  induction n with
  | zero => rfl
  | succ n ih =>
    rw [List.range_succ, List.map_append, List.foldl_append]
    exact (storeBytes_outside (by dsimp only; omega)).trans (ih (by omega))

/-! ### Partitions -/

theorem State.part_setPart_self (s : State) {p : Nat} (u : Part) (h : p < 8) : (s.setPart p u).part p = u := vget_vset_self h _ _ _

theorem State.part_setPart_ne (s : State) {p k : Nat} (u : Part) (h : k ≠ p) : (s.setPart p u).part k = s.part k :=
  vget_vset_ne h.symm _ _ _

/-! ### A queue's header -/

section
variable (s : State) (q : Queue)

theorem State.status_eq : s.status q = readBytes s.hbyte (q.pa + 0x0C) 4 := s.hread_eq_readBytes _ _
theorem State.claim_eq : s.claim q = readBytes s.hbyte (q.pa + 0x10) 8 := s.hread_eq_readBytes _ _
theorem State.widx_eq : s.widx q = readBytes s.hbyte (q.pa + 0x18) 8 := s.hread_eq_readBytes _ _
theorem State.ridx_eq : s.ridx q = readBytes s.hbyte (q.pa + 0x20) 8 := s.hread_eq_readBytes _ _
theorem State.doneIdx_eq : s.doneIdx q = readBytes s.hbyte (q.pa + 0x28) 8 := s.hread_eq_readBytes _ _

theorem State.slotPacket_eq (i : Nat) {k : Nat} (hk : k < 8) :
    vget 0 (s.slotPacket q i) k = BitVec.ofNat 64 (readBytes s.hbyte (q.slotPa i + 8 * k) 8) := by
  unfold State.slotPacket
  rw [vget_tab_lt hk, State.hread_eq_readBytes]

theorem State.hdrPut_only (o n v : Nat) : StoresOnly s (s.hdrPut q o n v) := s.puts_none_only _

end

theorem State.hdrPut_hbyte {s : State} (h : MemOk s) (q : Queue) (o n v : Nat) :
    (s.hdrPut q o n v).hbyte = storeBytes s.hbyte (q.pa + o) n v := State.puts_none_hbyte h _

@[simp] theorem State.setQueue_hbyte (s : State) (p : Nat) (q : Queue) : (s.setQueue p q).hbyte = s.hbyte := rfl
@[simp] theorem State.elide_hbyte (s : State) (secs : List Nat) : (s.elide secs).hbyte = s.hbyte := rfl

/-- Whether an access waits, or is cut off, is not a matter of what the homes hold. -/
theorem StoresOnly.held {u v : State} (h : StoresOnly u v) : v.held = u.held ∧ v.fenced = u.fenced := by
  unfold StoresOnly at h
  rw [h]
  exact ⟨rfl, rfl⟩

end Sys2Proof.Machine

/-! QPUT and SPAWN (09 R255; 12 R317; 10 R275). -/
namespace Sys2Proof.Machine

/-! ### QPUT's checks (09 R255, step 1) -/

/-- The checks of the sources that another operand names stand beside those of the slot's own. -/
theorem Seat.check_also {t : Seat} {sid : Nat} {uni uni' : Bool} {srcs : List (Src × Word)} {x : Src × Word} {masks : List Nat}
    (h : t.check sid uni false false false srcs (masks := masks) = .ok ()) (hd : deadCheck t uni' [x] = .ok ())
    (hp : poisCheck t uni' [x] = .ok ()) : t.check sid uni false false false srcs [(uni', x)] (masks := masks) = .ok () := by
  have hdead : [(uni', x)].forM (fun a : Bool × Src × Word => deadCheck t a.1 [a.2]) = .ok () := by
    show (deadCheck t uni' [x] >>= fun _ => .ok ()) = .ok ()
    rw [hd]
    rfl
  have hpois : [(uni', x)].forM (fun a : Bool × Src × Word => poisCheck t a.1 [a.2]) = .ok () := by
    show (poisCheck t uni' [x] >>= fun _ => .ok ()) = .ok ()
    rw [hp]
    rfl
  unfold Seat.check at h ⊢
  rw [hdead, hpois]
  exact h

/-- What QPUT takes in its fields. -/
theorem qput_legal {a b : Src} {f : BitVec 4} (ha : scalarOk a = true) (hb : b.l = false) (hn : b.n ≠ 31) (h6 : f.toNat % 8 < 6)
    (hf : f.toNat < 8 → f = 0) :
    (!scalarOk a || b.l || b.n == 31 || (f.getLsbD 3 && badScope (f.toNat % 8)) || (!f.getLsbD 3 && f.toNat % 8 != 0)) = false := by
  have hfield : ∀ f : BitVec 4, f.toNat % 8 < 6 → (f.toNat < 8 → f = 0) →
      (f.getLsbD 3 && badScope (f.toNat % 8)) = false ∧ (!f.getLsbD 3 && f.toNat % 8 != 0) = false := by decide
  obtain ⟨h1, h2⟩ := hfield f h6 hf
  rw [h1, h2, ha, hb, beq_eq_false_iff_ne.mpr hn]
  rfl

/-- The header's queue is registered, and its checks have taken no more than peers' answers. -/
theorem State.qputQueue_ok {s : State} {sid : Nat} {t : Seat} {hdr : Word} {q : Queue} {s1 : State}
    (h : s.qputQueue sid t hdr = .ok (q, s1)) :
    s.queue t.bind.part hdr = some q ∧ s1 = { s with peerReplies := s1.peerReplies, spanOut := s1.spanOut } := by
  have hends : ∀ {x : Except Stop (List LaneLoc × State)},
      Answers (fun r => r.2 = { s with peerReplies := r.2.peerReplies, spanOut := r.2.spanOut }) x →
      (x >>= fun r => match s.queue t.bind.part hdr with
        | none => freezeC vQUEUE_FOREIGN hdr
        | some q => if q.ext then freezeC vQUEUE_FOREIGN hdr else pure (q, r.2)) = Except.ok (q, s1) →
      s.queue t.bind.part hdr = some q ∧ s1 = { s with peerReplies := s1.peerReplies, spanOut := s1.spanOut } := by
    intro x hx h
    cases x with
    | error e => cases h
    | ok r =>
      have hr := hx r rfl
      simp only [bind, Except.bind] at h
      split at h
      · cases h
      · split at h <;> cases h
        exact ⟨‹_›, hr⟩
  unfold State.qputQueue at h
  dsimp only at h
  split at h
  · split at h <;> cases h
  · split at h
    · exact hends (answers_ok rfl) h
    · refine hends (fun r hr => ?_) h
      obtain ⟨-, ys, rest, out, -, rfl⟩ := State.gcheck_answers _ _ _ _ _ _ _ _ _ _ r hr
      rfl

/-- A QPUT whose operands and header have been checked: `q` is its queue, `s1` the machine with the peers' answers taken. -/
structure QputReady (s : State) (a b : Src) (f : BitVec 4) (q : Queue) (s1 : State) : Prop where
  resident : s.now.resident = true
  legal : (!scalarOk a || b.l || b.n == 31 || (f.getLsbD 3 && badScope (f.toNat % 8)) || (!f.getLsbD 3 && f.toNat % 8 != 0)) = false
  check : s.now.check s.cur true false false false [(a, 1)] [(false, b, s.now.live &&& 0xFF#64)] = .ok ()
  header : s.qputQueue s.cur s.now (s.scalar s.now a) = .ok (q, s1)

/-- The steps of QPUT from the claim on. -/
def State.qputGoes (s s1 : State) (a b : Src) (q : Queue) : Except Stop State :=
  let t := s.now
  let n := (s1.qputClaim s.cur t q).1
  let s2 := (s1.qputClaim s.cur t q).2
  if q.size ≤ n - s2.ridx q then .error (.after s2 (.park (.ring (s.scalar t a)) true))
  else if s2.widx q ≠ n || s2.slotHeld q n || s2.slotFenced q n then .error (.after s2 .stall)
  else
    let s3 := s2.qputWrite t q n (s.qputPacket t b)
    .ok ((s3.setSeat s.cur { (((s3.seat s.cur).lastUse true 1 [a]).lastUse false (t.live &&& 0xFF#64) [b]).dropLatches with
        qput := none }.advance).useFree (t.freeUsed true [(a, 1)] + t.freeUsed false [(b, t.live &&& 0xFF#64)]))

section
variable {s s1 : State} {a b : Src} {f : BitVec 4} {q : Queue}

theorem QputReady.run (h : QputReady s a b f q s1) : execQput a b f s = s.close s.cur (
    fenceWait ((!f.getLsbD 3 || s.released s.cur s.now (f.toNat % 8)) && !s1.hdrHeld q) >>= fun _ =>
      s1.qputFence s.now q >>= fun _ => s.qputGoes s1 a b q) := by
  have hres : (s.seat s.cur).resident = true := h.resident
  have hcheck : (s.seat s.cur).check s.cur true false false false [(a, 1)] [(false, b, (s.seat s.cur).live &&& 0xFF#64)]
      (masks := []) = .ok () := h.check
  have hheader : s.qputQueue s.cur (s.seat s.cur) (s.scalar (s.seat s.cur) a) = .ok (q, s1) := h.header
  unfold execQput State.run
  simp only [hres, if_true, h.legal, List.map_cons, List.map_nil, hcheck, hheader, bind, Except.bind]
  rfl

/-- The fence of QPUT's release. -/
theorem qput_fence (f : BitVec 4) (r : Bool) : (!f.getLsbD 3 || r) = true ↔ f.toNat < 8 ∨ r = true := by
  have hbit : ∀ f : BitVec 4, f.getLsbD 3 = decide (8 ≤ f.toNat) := by decide
  rw [hbit]
  by_cases h8 : f.toNat < 8 <;> simp [h8]

theorem QputReady.stalls (h : QputReady s a b f q s1)
    (hw : ¬(f.toNat < 8 ∨ s.released s.cur s.now (f.toNat % 8) = true) ∨ s1.hdrHeld q = true) :
    execQput a b f s = .next { s with stalled := true } := by
  have hfence : ((!f.getLsbD 3 || s.released s.cur s.now (f.toNat % 8)) && !s1.hdrHeld q) = false := by
    rcases hw with hw | hw
    · rw [← qput_fence, Bool.not_eq_true] at hw
      rw [hw]
      rfl
    · rw [hw, Bool.not_true, Bool.and_false]
  rw [h.run, hfence]
  rfl

/-- Once released, with a header that takes accesses and no fenced slot to claim, QPUT goes on. -/
theorem QputReady.goes (h : QputReady s a b f q s1) (hr : f.toNat < 8 ∨ s.released s.cur s.now (f.toNat % 8) = true)
    (hh : s1.hdrHeld q = false) : execQput a b f s = s.close s.cur (s1.qputFence s.now q >>= fun _ => s.qputGoes s1 a b q) := by
  rw [h.run, (qput_fence _ _).mpr hr, hh]
  rfl

theorem State.qputFence_free {t : Seat} (h : t.qput = none → s1.slotFenced q (s1.claim q) = false) : s1.qputFence t q = .ok () := by
  unfold State.qputFence
  cases hq : t.qput with
  | none => simp [h hq, failTrap]
  | some n => rfl

theorem State.qputFence_trap {t : Seat} (hq : t.qput = none) (h : s1.slotFenced q (s1.claim q) = true) :
    let va := q.base + BitVec.ofNat 64 (64 * (s1.claim q % q.size))
    s1.qputFence t q = .error (.after s1 (.trap
      { code := 0x1A, lanes := 1, addr := va, write := true, peer := va.getLsbD 63, aux := stackDie (paStack (q.slotPa (s1.claim q))) })) := by
  unfold State.qputFence
  simp [hq, h, failTrap, laneMask, cDIE_FENCED, cPAGE_FAULT]

end

/-! ### The claim (09 R255, step 2) -/

/-- A seat is another but for what `Slot` leaves open. -/
def Seat.Looks (w x : Seat) : Prop := x = w.openWith x.acc x.lat x.latpois x.xdead x.sdead

theorem Seat.Looks.resident {w x : Seat} (h : w.Looks x) : x.resident = w.resident := by
  rw [h]
  rfl

theorem Seat.Looks.lastUse {w x : Seat} (h : w.Looks x) (uni : Bool) (m : Word) (srcs : List Src) :
    w.Looks (x.lastUse uni m srcs) := by
  unfold Seat.Looks at h ⊢
  rw [Seat.lastUse_eq]
  generalize (x.lastUse uni m srcs).xdead = xd, (x.lastUse uni m srcs).sdead = sd
  rw [h]
  rfl

theorem Seat.Looks.dropLatches {w x : Seat} (h : w.Looks x) : w.Looks x.dropLatches := by
  unfold Seat.Looks at h ⊢
  rw [h]
  rfl

theorem Seat.Looks.advance {w x : Seat} (h : w.Looks x) : w.advance.Looks x.advance := by
  unfold Seat.Looks at h ⊢
  rw [h]
  unfold Seat.advance Seat.openWith
  dsimp only
  split <;> rfl

theorem Seat.Looks.withQput {w x : Seat} (h : w.Looks x) (o : Option Nat) : Seat.Looks { w with qput := o } { x with qput := o } := by
  unfold Seat.Looks at h ⊢
  rw [h]
  rfl

/-- The seat of a slot looks as the slot says. -/
theorem Slot.looks {r u : State} {w : Seat} {k : Nat} (h : Slot r u w) (hk : r.cur = k) : w.Looks (u.seat k) := by
  have hseat := h.seat
  unfold State.now at hseat
  rw [h.cur, hk] at hseat
  exact hseat

theorem Slot.accs {r u : State} {w : Seat} {k : Nat} (h : Slot r u w) (hk : r.cur = k) (hn : r.noWindow) : (u.seat k).acc = w.acc := by
  have hacc := h.acc hn
  unfold State.now at hacc
  rwa [h.cur, hk] at hacc

theorem Slot.replaced {r u : State} {w w' t : Seat} {k : Nat} (h : Slot r u w) (hk : r.cur = k) (hw : w'.resident = true)
    (ht : w'.Looks t) (ha : r.noWindow → t.acc = w'.acc) : Slot r (u.setSeat k t) w' := hk ▸ h.setSeat hw ht ha

/-- The seat at work replaced by one without latches. -/
theorem LatchesGone.replaced {u : State} {k : Nat} {t : Seat} (hc : u.cur = k) (hr : t.resident = true)
    (hl : t.lat = vrep 4 .invalid) (n : Nat) : LatchesGone ((u.setSeat k t).useFree n) := by
  subst hc
  exact LatchesGone.of (Lats.setSeat (k := u.cur) hr hl).2

/-- Bytes of the homes written beside what the slot did. -/
theorem Slot.stores {r u v : State} {w : Seat} (h : Slot r u w) (hv : StoresOnly u v) :
    Slot { r with hbm := v.hbm, hpois := v.hpois, hue := v.hue, elided := v.elided } v w := by
  refine h.rebase rfl rfl rfl ?_
  unfold StoresOnly at hv
  rw [hv]
  conv_lhs => rw [h.rest]

/-- The slot of a row's QPUT, and the machine once that is claimed. -/
structure Claimed (s1 : State) (t : Seat) (q : Queue) (n : Nat) (v : State) : Prop where
  mem : MemOk v
  slot : Slot { s1 with hbm := v.hbm, hpois := v.hpois, hue := v.hue, elided := v.elided } v { t with qput := some n }
  claim : n + 1 < 2 ^ 64 → v.claim q = if t.qput = none then n + 1 else s1.claim q
  rest : ∀ x, x < q.pa + 0x10 ∨ q.pa + 0x18 ≤ x → v.hbyte x = s1.hbyte x

theorem State.qputClaim_fst (s1 : State) (sid : Nat) (t : Seat) (q : Queue) :
    (s1.qputClaim sid t q).1 = t.qput.getD (s1.claim q) := by
  unfold State.qputClaim
  split <;> rename_i h <;> rw [h] <;> rfl

theorem Seat.with_qput {t : Seat} {o : Option Nat} (h : t.qput = o) : { t with qput := o } = t := by
  subst h
  rfl

theorem State.qputClaim_claimed {s1 : State} {k : Nat} (hmem : MemOk s1) (hk : s1.cur = k) {t : Seat} (ht : s1.now = t)
    (hres : t.resident = true) (q : Queue) : Claimed s1 t q (t.qput.getD (s1.claim q)) (s1.qputClaim k t q).2 := by
  subst hk
  have hrefl : Slot s1 s1 t := ht ▸ Slot.refl s1
  unfold State.qputClaim
  cases hq : t.qput with
  | some n => exact { mem := hmem, slot := (Seat.with_qput hq).symm ▸ hrefl, claim := fun _ => by rw [hq]; rfl, rest := fun _ _ => rfl }
  | none =>
    have hbyte := State.hdrPut_hbyte hmem q 0x10 8 (s1.claim q + 1)
    have hmem1 := memOk_hdrPut s1 q 0x10 8 (s1.claim q + 1) hmem
    have hslot := hrefl.stores (s1.hdrPut_only q 0x10 8 (s1.claim q + 1))
    dsimp only [Option.getD]
    generalize s1.hdrPut q 0x10 8 (s1.claim q + 1) = v at hbyte hslot hmem1
    have hclaimed := hslot.setSeat (t := { t with qput := some (s1.claim q) }) (w' := { t with qput := some (s1.claim q) })
      hres rfl (fun _ => rfl)
    refine { mem := memOk_setSeat _ _ _ hmem1, slot := hclaimed, claim := fun hn => ?_, rest := fun x hx => ?_ }
    · rw [if_pos hq, State.claim_eq]
      show readBytes v.hbyte _ _ = _
      rw [hbyte, readBytes_storeBytes]
      exact Nat.mod_eq_of_lt hn
    · show v.hbyte x = _
      rw [hbyte, storeBytes_outside (by omega)]

section
variable {s s1 v : State} {a b : Src} {q : Queue} {t : Seat} {n : Nat}

theorem Claimed.field (h : Claimed s1 t q n v) {o k : Nat} (ho : o + k ≤ 0x10 ∨ 0x18 ≤ o) :
    readBytes v.hbyte (q.pa + o) k = readBytes s1.hbyte (q.pa + o) k :=
  readBytes_congr fun x hx hx' => h.rest x (by omega)

theorem Claimed.ridx (h : Claimed s1 t q n v) : v.ridx q = s1.ridx q := by
  rw [State.ridx_eq, State.ridx_eq, h.field (by omega)]

theorem Claimed.widx (h : Claimed s1 t q n v) : v.widx q = s1.widx q := by
  rw [State.widx_eq, State.widx_eq, h.field (by omega)]

theorem Claimed.reach (h : Claimed s1 t q n v) : v.slotHeld q n = s1.slotHeld q n ∧ v.slotFenced q n = s1.slotFenced q n := by
  have hrest := h.slot.rest
  unfold State.slotHeld State.slotFenced State.held State.cutOff
  rw [hrest]
  exact ⟨rfl, rfl⟩

theorem Claimed.seat (h : Claimed s1 t q n v) : (v.seat s1.cur).qput = some n ∧ (v.seat s1.cur).pc = t.pc ∧
    (v.seat s1.cur).slot = t.slot ∧ (v.seat s1.cur).resident = t.resident := by
  have hseat := h.slot.seat
  unfold State.now at hseat
  rw [h.slot.cur] at hseat
  dsimp only at hseat
  rw [hseat]
  exact ⟨rfl, rfl, rfl, rfl⟩

/-- A row that waits for room parks with its slot claimed. -/
theorem Claimed.parks (h : Claimed s1 t q n v) (p : Park) :
    let u := v.stop s1.cur (.park p true)
    u.now.qput = some n ∧ u.now.pc = t.pc ∧ u.now.slot = t.slot ∧ u.claim q = v.claim q ∧ u.now.status = .parked p ∧
      LatchesGone u := by
  obtain ⟨hq, hpc, hslot, -⟩ := h.seat
  have hnow : (v.stop s1.cur (.park p true)).now = { (v.seat s1.cur).dropLatches with
      held := some ((v.seat s1.cur).lat, (v.seat s1.cur).latpois), status := .parked p, skip := 0 } := by
    unfold State.now
    rw [show (v.stop s1.cur (.park p true)).cur = s1.cur from h.slot.cur]
    exact State.seat_setSeat_self _ _ rfl
  refine ⟨by rw [hnow]; exact hq, by rw [hnow]; exact hpc, by rw [hnow]; exact hslot, rfl, by rw [hnow], LatchesGone.of ?_⟩
  rw [hnow]
  rfl

/-- A row that waits for its turn stalls with its slot claimed. -/
theorem Claimed.stalls (h : Claimed s1 t q n v) :
    let u := v.stop s1.cur .stall
    u.now.qput = some n ∧ u.now.pc = t.pc ∧ u.now.slot = t.slot ∧ u.claim q = v.claim q ∧ u.stalled = true := by
  obtain ⟨hq, hpc, hslot, -⟩ := h.seat
  have hnow : (v.stop s1.cur .stall).now = v.seat s1.cur := by
    show v.seat v.cur = _
    rw [h.slot.cur]
  exact ⟨by rw [hnow]; exact hq, by rw [hnow]; exact hpc, by rw [hnow]; exact hslot, rfl, rfl⟩

end

/-! ### The packet published (09 R255, steps 4 to 6) -/

section
variable {v : State} {q : Queue}

/-- The bytes that a packet's publication leaves: in its slot, and WIDX. -/
def publishBytes (m : Nat → Byte) (q : Queue) (n w : Nat) (pkt : Vector Word 8) : Nat → Byte :=
  storeBytes (((List.range 8).map fun k => (q.slotPa n + 8 * k, 8, (vget 0 pkt k).toNat)).foldl
    (fun m w => storeBytes m w.1 w.2.1 w.2.2) m) (q.pa + 0x18) 8 w

/-- Publication writes HBM and the partition's queues, and nothing else. -/
theorem State.qputWrite_only (t : Seat) (n : Nat) (pkt : Vector Word 8) :
    let u := v.qputWrite t q n pkt
    u = { v with hbm := u.hbm, hpois := u.hpois, hue := u.hue, parts := u.parts, elided := u.elided } ∧
      ∀ k, k ≠ t.bind.part → u.part k = v.part k := by
  unfold State.qputWrite
  dsimp only
  generalize hw : (List.range 8).map (fun k => (q.slotPa n + 8 * k, 8, (vget 0 pkt k).toNat)) = ws
  have honly : StoresOnly v (((v.puts none ws).hdrPut q 0x18 8 (n + 1)).elide (q.hdrPas.map paSector)) :=
    ((v.puts_none_only ws).trans (State.hdrPut_only _ _ _ _ _)).trans (State.elide_stores _ _)
  generalize ((v.puts none ws).hdrPut q 0x18 8 (n + 1)).elide (q.hdrPas.map paSector) = x at honly
  unfold StoresOnly at honly
  refine ⟨?_, fun k hk => ?_⟩
  · rw [honly]
    rfl
  · unfold State.setQueue
    rw [State.part_setPart_ne _ _ hk, honly]
    rfl

theorem State.qputWrite_hbyte (h : MemOk v) (t : Seat) (n : Nat) (pkt : Vector Word 8) :
    (v.qputWrite t q n pkt).hbyte = publishBytes v.hbyte q n (n + 1) pkt := by
  unfold State.qputWrite
  dsimp only
  rw [State.setQueue_hbyte, State.elide_hbyte, State.hdrPut_hbyte (memOk_puts _ _ _ h), State.puts_none_hbyte h]
  rfl

theorem publishBytes_outside (m : Nat → Byte) (n w : Nat) (pkt : Vector Word 8) {x : Nat} (h : x < q.pa + 0x18 ∨ q.pa + 0x20 ≤ x)
    (h' : x < q.slotPa n ∨ q.slotPa n + 64 ≤ x) : publishBytes m q n w pkt x = m x :=
  (storeBytes_outside (by omega)).trans (storeWords_outside _ _ (by omega))

theorem readBytes_publishBytes_widx (m : Nat → Byte) (n : Nat) {w : Nat} (pkt : Vector Word 8) (h : w < 2 ^ 64) :
    readBytes (publishBytes m q n w pkt) (q.pa + 0x18) 8 = w :=
  (readBytes_storeBytes _ _ _ _).trans (Nat.mod_eq_of_lt h)

theorem readBytes_publishBytes_slot (m : Nat → Byte) (n w : Nat) (pkt : Vector Word 8)
    (h : q.slotPa n + 64 ≤ q.pa ∨ q.pa + 64 ≤ q.slotPa n) {k : Nat} (hk : k < 8) :
    readBytes (publishBytes m q n w pkt) (q.slotPa n + 8 * k) 8 = (vget 0 pkt k).toNat := by
  refine (readBytes_storeBytes_disjoint _ (by omega)).trans ?_
  rw [readBytes_storeWords _ _ _ hk]
  exact Nat.mod_eq_of_lt (vget 0 pkt k).isLt

end

section
variable {s s1 v : State} {a b : Src} {f : BitVec 4} {q : Queue} {n : Nat}

/-- The machine after a QPUT that has published its packet. -/
def State.qputDone (s v : State) (a b : Src) (q : Queue) (n : Nat) : State :=
  let t := s.now
  let u := v.qputWrite t q n (s.qputPacket t b)
  (u.setSeat s.cur { (((u.seat s.cur).lastUse true 1 [a]).lastUse false (t.live &&& 0xFF#64) [b]).dropLatches with
    qput := none }.advance).useFree (t.freeUsed true [(a, 1)] + t.freeUsed false [(b, t.live &&& 0xFF#64)])

theorem State.qputDone_hbyte (s v : State) (a b : Src) (q : Queue) (n : Nat) :
    (s.qputDone v a b q n).hbyte = (v.qputWrite s.now q n (s.qputPacket s.now b)).hbyte := by
  unfold State.qputDone
  dsimp only
  generalize v.qputWrite s.now q n (s.qputPacket s.now b) = u
  rfl

theorem Claimed.published (h : Claimed s1 s.now q n v) (hcur : s1.cur = s.cur) (hres : s.now.resident = true) :
    let u := s.qputDone v a b q n
    Slot { s1 with hbm := u.hbm, hpois := u.hpois, hue := u.hue, parts := u.parts, elided := u.elided } u
      { s.now with qput := none }.advance ∧ LatchesGone u ∧ ∀ k, k ≠ s.now.bind.part → u.part k = s1.part k := by
  unfold State.qputDone
  dsimp only
  obtain ⟨honly, hparts⟩ := State.qputWrite_only (v := v) (q := q) s.now n (s.qputPacket s.now b)
  generalize v.qputWrite s.now q n (s.qputPacket s.now b) = u at honly hparts
  have hslot : Slot { s1 with hbm := u.hbm, hpois := u.hpois, hue := u.hue, parts := u.parts, elided := u.elided } u
      { s.now with qput := some n } :=
    h.slot.rebase rfl rfl rfl (by rw [honly]; conv_lhs => rw [h.slot.rest])
  have hucur : u.cur = s.cur := hslot.cur.trans hcur
  have hseat := hslot.seat
  unfold State.now at hseat
  rw [hucur] at hseat
  have hlooks := ((((hslot.looks hcur).lastUse true 1 [a]).lastUse false (s.now.live &&& 0xFF#64) [b]).dropLatches.withQput none).advance
  have hacc : ({ s1 with hbm := u.hbm, hpois := u.hpois, hue := u.hue, parts := u.parts, elided := u.elided } : State).noWindow →
      { (((u.seat s.cur).lastUse true 1 [a]).lastUse false (s.now.live &&& 0xFF#64) [b]).dropLatches with qput := none }.advance.acc =
        { s.now with qput := none }.advance.acc := fun hn => by
    rw [Seat.advance_acc, Seat.advance_acc, Seat.lastUse_eq, Seat.lastUse_eq (u.seat s.cur)]
    exact hslot.accs hcur hn
  have hend := (hslot.replaced hcur (by rw [Seat.resident_advance]; exact hres) hlooks hacc).useFree
    (s.now.freeUsed true [(a, 1)] + s.now.freeUsed false [(b, s.now.live &&& 0xFF#64)])
  refine ⟨hend, LatchesGone.replaced (hslot.cur.trans hcur) (hlooks.resident.trans (by rw [Seat.resident_advance]; exact hres))
    (Seat.advance_lat _) _, fun k hk => ?_⟩
  rw [show s1.part k = v.part k by rw [h.slot.rest]; rfl]
  exact hparts k hk

theorem State.qputGoes_full (hv : (s1.qputClaim s.cur s.now q).2 = v) (hn : (s1.qputClaim s.cur s.now q).1 = n)
    (h : q.size ≤ n - v.ridx q) : s.qputGoes s1 a b q = .error (.after v (.park (.ring (s.scalar s.now a)) true)) := by
  unfold State.qputGoes
  dsimp only
  rw [hv, hn, if_pos h]

theorem State.qputGoes_waits (hv : (s1.qputClaim s.cur s.now q).2 = v) (hn : (s1.qputClaim s.cur s.now q).1 = n)
    (h : n - v.ridx q < q.size) (hw : v.widx q ≠ n ∨ v.slotHeld q n = true ∨ v.slotFenced q n = true) :
    s.qputGoes s1 a b q = .error (.after v .stall) := by
  unfold State.qputGoes
  dsimp only
  rw [hv, hn, if_neg (by omega), if_pos (by simpa [or_assoc] using hw)]

theorem State.qputGoes_done (hv : (s1.qputClaim s.cur s.now q).2 = v) (hn : (s1.qputClaim s.cur s.now q).1 = n)
    (h : n - v.ridx q < q.size) (hw : v.widx q = n) (hh : v.slotHeld q n = false) (hf : v.slotFenced q n = false) :
    s.qputGoes s1 a b q = .ok (s.qputDone v a b q n) := by
  unfold State.qputGoes
  dsimp only
  rw [hv, hn, if_neg (by omega), if_neg (by simp [hw, hh, hf])]
  rfl

/-- The words of QPUT's packet. -/
theorem State.qputPacket_word (s : State) (t : Seat) (b : Src) {k : Nat} (hk : k < 8) :
    vget 0 (s.qputPacket t b) k = if t.live.getLsbD k then s.srcLane t false (vrep 64 0) 1 b k else 0 := by
  unfold State.qputPacket State.srcVal
  rw [vget_tab_lt hk, vget_tab_lt (by omega)]

end

/-! ### Spawn bins (10 R275) -/

theorem SpawnBin.flush_some {x : SpawnBin} (h : x.args ≠ []) (hp : x.pending = none) :
    x.flush = some { x with args := [], pending := some (x.launch, x.entry, x.args) } := by
  unfold SpawnBin.flush
  rw [if_neg h, hp]
  rfl

theorem SpawnBin.flush_none {x : SpawnBin} (h : x.args ≠ []) (hp : x.pending ≠ none) : x.flush = none := by
  unfold SpawnBin.flush
  rw [if_neg h, if_pos (Option.isSome_iff_ne_none.mpr hp)]

theorem SpawnBin.flush_empty {x : SpawnBin} (h : x.args = []) : x.flush = some x := by
  unfold SpawnBin.flush
  rw [if_pos h]

section
variable (x : SpawnBin) (now bint launch : Nat) (entry arg : Word)

/-- A pair that starts the pairs held is put in; one that must wait for the pending row's place is not. -/
theorem SpawnBin.add_fresh (h : ¬x.joins launch entry) :
    x.add now bint launch entry arg = if x.args ≠ [] ∧ x.pending ≠ none then none else
      some { launch := launch, entry := entry, args := [arg], fire := now + bint
             pending := if x.args = [] then x.pending else some (x.launch, x.entry, x.args) } := by
  unfold SpawnBin.add
  by_cases ha : x.args = []
  · rw [SpawnBin.flush_empty ha, ite_self]
    simp [ha]
  · have hmatch : ¬(x.launch = launch ∧ x.entry = entry) := fun hm => h ⟨ha, hm.1, hm.2⟩
    rw [if_neg hmatch, if_neg ha]
    by_cases hp : x.pending = none
    · rw [SpawnBin.flush_some ha hp, if_neg (by simp [hp])]
      rfl
    · rw [SpawnBin.flush_none ha hp, if_pos ⟨ha, hp⟩]
      rfl

theorem SpawnBin.add_joins (h : x.joins launch entry) :
    x.add now bint launch entry arg = if x.args.length < 63 then some { x with args := x.args ++ [arg] }
      else if x.pending ≠ none then none
      else some { x with args := [], pending := some (launch, entry, x.args ++ [arg]) } := by
  obtain ⟨ha, hl, he⟩ := h
  have hne : x.args ++ [arg] ≠ [] := by simp
  have hlen : (x.args ++ [arg]).length < 64 ↔ x.args.length < 63 := by rw [List.length_append]; exact Nat.succ_lt_succ_iff
  unfold SpawnBin.add
  rw [if_pos ⟨hl, he⟩]
  simp only [bind, Option.bind, ha, if_false, hlen]
  by_cases h63 : x.args.length < 63
  · rw [if_pos h63, if_pos h63]
  · rw [if_neg h63, if_neg h63]
    by_cases hp : x.pending = none
    · rw [if_neg (by simp [hp]), SpawnBin.flush_some (x := { x with args := x.args ++ [arg] }) hne hp, ← hl, ← he]
    · rw [if_pos hp, SpawnBin.flush_none (x := { x with args := x.args ++ [arg] }) hne hp]

theorem SpawnBin.add_none (h : x.add now bint launch entry arg = none) : x.full launch entry := by
  by_cases hj : x.joins launch entry
  · rw [SpawnBin.add_joins _ _ _ _ _ _ hj] at h
    by_cases h63 : x.args.length < 63
    · simp [h63] at h
    · by_cases hp : x.pending = none
      · simp [h63, hp] at h
      · exact ⟨hp, .inl ⟨hj, by omega⟩⟩
  · rw [SpawnBin.add_fresh _ _ _ _ _ _ hj] at h
    by_cases hw : x.args ≠ [] ∧ x.pending ≠ none
    · exact ⟨hw.2, .inr ⟨hw.1, hj⟩⟩
    · rw [if_neg hw] at h
      cases h

theorem SpawnBin.add_some {y : SpawnBin} (h : x.add now bint launch entry arg = some y) : x.Takes y now bint launch entry arg := by
  by_cases hj : x.joins launch entry
  · rw [SpawnBin.add_joins _ _ _ _ _ _ hj] at h
    by_cases h63 : x.args.length < 63
    · rw [if_pos h63] at h
      cases h
      refine ⟨?_, fun _ _ => rfl, fun _ hge => absurd h63 (by omega), fun hn => absurd hj hn⟩
      rintro ⟨-, ⟨-, hge⟩ | ⟨-, hn⟩⟩
      · omega
      · exact hn hj
    · by_cases hp : x.pending = none
      · simp only [h63, hp, if_false, ne_eq, not_true_eq_false] at h
        cases h
        exact ⟨fun hf => hf.1 hp, fun _ hlt => absurd hlt h63, fun _ _ => ⟨rfl, rfl⟩, fun hn => absurd hj hn⟩
      · simp [h63, hp] at h
  · rw [SpawnBin.add_fresh _ _ _ _ _ _ hj] at h
    by_cases hw : x.args ≠ [] ∧ x.pending ≠ none
    · rw [if_pos hw] at h
      cases h
    · rw [if_neg hw] at h
      cases h
      refine ⟨?_, fun hn => absurd hn hj, fun hn => absurd hn hj, fun _ => rfl⟩
      rintro ⟨hp, ⟨hn, -⟩ | ⟨ha, -⟩⟩
      · exact hj hn
      · exact hw ⟨ha, hp⟩

end

end Sys2Proof.Machine

/-! SPAWN's pairs, lane by lane (12 R317), and QPUT and SPAWN settled. -/
namespace Sys2Proof.Machine

/-! ### Pairs submitted in order (12 R317) -/

/-- The bin that a pair goes to. -/
def binOf (e : Word) : Nat := e.toNat / 16 % 16

/-- What a list of lanes' pairs leaves, `n` of them submitted and `st` the bins behind each. -/
structure Submitted (s : State) (sid : Nat) (t : Seat) (av bv : Lanes Word) (ls : List Nat) (r : State × Bool) (n : Nat)
    (st : Nat → Vector SpawnBin 16) : Prop where
  le : n ≤ ls.length
  start : st 0 = (s.core (sid / 256)).bins
  step : ∀ j l, j < n → ls[j]? = some l → (∀ k, k ≠ binOf (vget 0 av l) → vget {} (st (j + 1)) k = vget {} (st j) k) ∧
    (vget {} (st j) (binOf (vget 0 av l))).Takes (vget {} (st (j + 1)) (binOf (vget 0 av l))) s.time.toNat (s.part t.bind.part).bint
      (launchKey t.bind.part t.bind.lid) (vget 0 av l) (vget 0 bv l)
  all : n = ls.length → r.2 = false
  full : ∀ l, ls[n]? = some l → r.2 = true ∧
    (vget {} (st n) (binOf (vget 0 av l))).full (launchKey t.bind.part t.bind.lid) (vget 0 av l)
  core : r.1.core (sid / 256) = { s.core (sid / 256) with bins := st n }
  others : ∀ k, k ≠ sid / 256 → r.1.core k = s.core k
  rest : r.1 = { s with seats := r.1.seats, cores := r.1.cores }
  seats : ∀ k, k ≠ sid → r.1.seat k = s.seat k
  seat : r.1.seat sid = { s.seat sid with spawned := (s.seat sid).spawned ||| laneMask (ls.take n) }

theorem laneMask_nil : laneMask [] = 0#64 := rfl

theorem laneMask_cons (l : Nat) (ls : List Nat) : laneMask (l :: ls) = (1#64 <<< l) ||| laneMask ls := by
  have hzero : ∀ x : Word, (0 : Word) ||| x = x := fun _ => BitVec.zero_or
  have hfold : ∀ (ls : List Nat) (m : Word), ls.foldl (fun m l => m ||| (1#64 <<< l)) m = m ||| laneMask ls := by
    intro ls
    induction ls with
    | nil => intro m; exact (BitVec.or_zero).symm
    | cons k ls ih =>
      intro m
      unfold laneMask
      rw [List.foldl_cons, List.foldl_cons, ih, ih, hzero, BitVec.or_assoc]
  unfold laneMask
  rw [List.foldl_cons, hfold, hzero]
  rfl

theorem getLsbD_laneMask (ls : List Nat) {i : Nat} (hi : i < 64) : (laneMask ls).getLsbD i = decide (i ∈ ls) := by
  induction ls with
  | nil => simp [laneMask]
  | cons l ls ih =>
    rw [laneMask_cons, BitVec.getLsbD_or, ih, BitVec.getLsbD_shiftLeft, BitVec.getLsbD_one, decide_eq_true hi]
    by_cases h : i = l
    · simp [h]
    · by_cases hlt : i < l
      · simp [h, hlt]
      · simp [h, hlt, show i - l ≠ 0 by omega]

/-- The mask of the lanes of a list, as of a predicate. -/
theorem laneMask_eq_maskOf (ls : List Nat) : laneMask ls = maskOf fun l => decide (l ∈ ls) := by
  apply BitVec.eq_of_getLsbD_eq
  intro i hi
  unfold maskOf
  rw [getLsbD_laneMask _ hi, getLsbD_laneMask _ hi]
  simp [hi]

theorem Submitted.blocked {s : State} {sid : Nat} {t : Seat} {av bv : Lanes Word} {l : Nat} {ls : List Nat}
    (h : (s.bin (sid / 256) (binOf (vget 0 av l))).full (launchKey t.bind.part t.bind.lid) (vget 0 av l)) :
    Submitted s sid t av bv (l :: ls) (s, true) 0 fun _ => (s.core (sid / 256)).bins where
  le := Nat.zero_le _
  start := rfl
  step := nofun
  all := nofun
  full := fun k hk => by
    obtain rfl : l = k := Option.some.inj hk
    exact ⟨rfl, h⟩
  core := rfl
  others := fun _ _ => rfl
  rest := rfl
  seats := fun _ _ => rfl
  seat := by
    rw [List.take_zero, laneMask_nil, BitVec.or_zero]

/-- The machine once a lane's pair is in its bin. -/
def State.binned (s : State) (sid b l : Nat) (y : SpawnBin) : State :=
  (s.setBin (sid / 256) b y).setSeat sid { s.seat sid with spawned := (s.seat sid).spawned ||| (1#64 <<< l) }

theorem State.binned_seat (s : State) {sid : Nat} (b l : Nat) (y : SpawnBin) (hres : (s.seat sid).resident = true) :
    (s.binned sid b l y).seat sid = { s.seat sid with spawned := (s.seat sid).spawned ||| (1#64 <<< l) } :=
  State.seat_setSeat_self _ _ hres

/-- The bins behind a first pair and the later ones. -/
def binsAfter (v : Vector SpawnBin 16) (st : Nat → Vector SpawnBin 16) : Nat → Vector SpawnBin 16
  | 0 => v
  | n + 1 => st n

theorem Submitted.cons {s : State} {sid : Nat} {t : Seat} {av bv : Lanes Word} {l : Nat} {ls : List Nat} {y : SpawnBin}
    {r : State × Bool} {n : Nat} {st : Nat → Vector SpawnBin 16} (hc : sid / 256 < 64) (hres : (s.seat sid).resident = true)
    (hy : (s.bin (sid / 256) (binOf (vget 0 av l))).Takes y s.time.toNat (s.part t.bind.part).bint
      (launchKey t.bind.part t.bind.lid) (vget 0 av l) (vget 0 bv l))
    (h : Submitted (s.binned sid (binOf (vget 0 av l)) l y) sid t av bv ls r n st) :
    Submitted s sid t av bv (l :: ls) r (n + 1) (binsAfter (s.core (sid / 256)).bins st) := by
  have hb : binOf (vget 0 av l) < 16 := Nat.mod_lt _ (by decide)
  have hcore : (s.binned sid (binOf (vget 0 av l)) l y).core (sid / 256) =
      { s.core (sid / 256) with bins := vset (s.core (sid / 256)).bins (binOf (vget 0 av l)) y } :=
    State.core_setCore_self _ _ hc
  have hstart : st 0 = vset (s.core (sid / 256)).bins (binOf (vget 0 av l)) y := h.start.trans (by rw [hcore])
  refine
    { le := Nat.succ_le_succ h.le
      start := rfl
      step := fun j k hj hk => ?_
      all := fun hn => h.all (Nat.succ_injective hn)
      full := h.full
      core := by rw [h.core, hcore]; rfl
      others := fun k hk => (h.others k hk).trans (State.core_setCore_ne _ _ hk)
      rest := by
        rw [h.rest]
        rfl
      seats := fun k hk => (h.seats k hk).trans (State.seat_setSeat_ne _ _ hk)
      seat := ?_ }
  · cases j with
    | zero =>
      obtain rfl : l = k := Option.some.inj hk
      show (∀ k', _ → vget {} (st 0) k' = vget {} (s.core (sid / 256)).bins k') ∧
        (vget {} (s.core (sid / 256)).bins _).Takes (vget {} (st 0) _) _ _ _ _ _
      rw [hstart]
      refine ⟨fun k' hk' => vget_vset_ne (Ne.symm hk') _ _ _, ?_⟩
      rw [vget_vset_self hb]
      exact hy
    | succ j => exact h.step j k (by omega) hk
  · rw [h.seat, s.binned_seat _ _ _ hres, List.take_succ_cons, laneMask_cons, ← BitVec.or_assoc]

section
variable {s : State} {sid : Nat} {t : Seat} {av bv : Lanes Word} {l : Nat} {ls : List Nat}

theorem binOf_eq (e : Word) : (e.extractLsb' 4 4).toNat = binOf e := by
  unfold binOf
  rw [BitVec.extractLsb'_toNat, Nat.shiftRight_eq_div_pow]

theorem State.submit_none (h : (s.bin (sid / 256) (binOf (vget 0 av l))).add s.time.toNat (s.part t.bind.part).bint
    (launchKey t.bind.part t.bind.lid) (vget 0 av l) (vget 0 bv l) = none) : s.submit sid t av bv (l :: ls) = (s, true) := by
  unfold State.submit
  simp only [binOf_eq, sidCore, h]

theorem State.submit_some {y : SpawnBin} (h : (s.bin (sid / 256) (binOf (vget 0 av l))).add s.time.toNat (s.part t.bind.part).bint
    (launchKey t.bind.part t.bind.lid) (vget 0 av l) (vget 0 bv l) = some y) :
    s.submit sid t av bv (l :: ls) = (s.binned sid (binOf (vget 0 av l)) l y).submit sid t av bv ls := by
  conv_lhs => unfold State.submit
  simp only [binOf_eq, sidCore, h]
  rfl

end

theorem State.submit_submitted {sid : Nat} (t : Seat) (av bv : Lanes Word) (hc : sid / 256 < 64) (ls : List Nat) {s : State}
    (hres : (s.seat sid).resident = true) : ∃ n st, Submitted s sid t av bv ls (s.submit sid t av bv ls) n st := by
  induction ls generalizing s with
  | nil =>
    exact ⟨0, fun _ => (s.core (sid / 256)).bins,
      { le := le_rfl, start := rfl, step := nofun, all := fun _ => rfl, full := nofun, core := rfl, others := fun _ _ => rfl, rest := rfl
        seats := fun _ _ => rfl
        seat := by
          rw [List.take_nil, laneMask_nil, BitVec.or_zero]
          rfl }⟩
  | cons l ls ih =>
    cases hadd : (s.bin (sid / 256) (binOf (vget 0 av l))).add s.time.toNat (s.part t.bind.part).bint
        (launchKey t.bind.part t.bind.lid) (vget 0 av l) (vget 0 bv l) with
    | none =>
      rw [State.submit_none hadd]
      exact ⟨0, _, Submitted.blocked (SpawnBin.add_none _ _ _ _ _ _ hadd)⟩
    | some y =>
      rw [State.submit_some hadd]
      have hy := SpawnBin.add_some _ _ _ _ _ _ hadd
      obtain ⟨n, st, hsub⟩ := ih (s := s.binned sid (binOf (vget 0 av l)) l y) (by
        rw [s.binned_seat _ _ _ hres]
        exact hres)
      exact ⟨n + 1, _, Submitted.cons hc hres hy hsub⟩


/-! ### SPAWN's run (12 R317) -/

/-- A SPAWN whose operands have been checked. -/
structure SpawnReady (s : State) (a b : Src) : Prop where
  resident : s.now.resident = true
  core : s.cur / 256 < 64
  legal : (noPortLane a || noPortLane b) = false
  check : s.now.check s.cur false false false false [(a, s.now.gov), (b, s.now.gov)] = .ok ()

/-- The lanes whose entry address SPAWN does not take. -/
def State.spawnBad (s : State) (a : Src) : List Nat :=
  (List.range 64).filter fun l => s.now.gov.getLsbD l &&
    (s.srcLane s.now false (vrep 64 0) 0 a l &&& 15 != 0 || s.srcLane s.now false (vrep 64 0) 0 a l >>> 52 != 0)

/-- The lanes whose pairs SPAWN has yet to submit. -/
def State.spawnLanes (s : State) : List Nat := (List.range 64).filter fun l => s.now.gov.getLsbD l && !s.now.spawned.getLsbD l

/-- The machine after a SPAWN that has submitted its pairs. -/
def State.spawnDone (s s1 : State) (a b : Src) : State :=
  let t := s.now
  ((s1.setSeat s.cur { (s1.seat s.cur).lastUse false t.gov [a, b] with spawned := 0 }).useFree
    (t.freeUsed false [(a, t.gov), (b, t.gov)])).next s.cur

/-- Every access that the row has issued is performed. -/
def State.Performed (s : State) : Prop := (∀ x ∈ s.contribs, x.sid ≠ some s.cur) ∧ s.sinkLeft s.cur s.now = []

theorem State.performed_iff (s : State) : s.released s.cur s.now 2 = true ↔ s.Performed := by
  unfold State.released State.allDone State.contribsDone State.leaseScope State.Performed
  simp

section
variable {s : State} {a b : Src}

theorem SpawnReady.run (h : SpawnReady s a b) : execSpawn a b s = s.close s.cur (
    (match s.spawnBad a with
      | [] => .ok ()
      | l :: _ => .error (.trap { code := cLANDING, lanes := laneMask (s.spawnBad a), addr := vget 0 (s.srcVal s.now false (vrep 64 0) 0 a) l })) >>=
    fun _ => fenceWait (lanesOf s.now.gov = [] || s.released s.cur s.now 2) >>= fun _ =>
      let r := s.submit s.cur s.now (s.srcVal s.now false (vrep 64 0) 0 a) (s.srcVal s.now false (vrep 64 0) 1 b) s.spawnLanes
      if r.2 then .error (.after r.1 .stall) else .ok (s.spawnDone r.1 a b)) := by
  have hres : (s.seat s.cur).resident = true := h.resident
  have hcheck : (s.seat s.cur).check s.cur false false false false [(a, (s.seat s.cur).gov), (b, (s.seat s.cur).gov)] = .ok () := h.check
  have hlanes : (lanesOf (s.seat s.cur).gov).filter (fun l => !(s.seat s.cur).spawned.getLsbD l) = s.spawnLanes := by
    unfold lanesOf State.spawnLanes
    rw [List.filter_filter]
    refine List.filter_congr fun l _ => ?_
    rw [Bool.and_comm]
    rfl
  have hbad : (lanesOf (s.seat s.cur).gov).filter (fun l => vget 0 (s.srcVal (s.seat s.cur) false (vrep 64 0) 0 a) l &&& 15 != 0 ||
      vget 0 (s.srcVal (s.seat s.cur) false (vrep 64 0) 0 a) l >>> 52 != 0) = s.spawnBad a := by
    unfold lanesOf State.spawnBad
    rw [List.filter_filter]
    refine List.filter_congr fun l hl => ?_
    unfold State.srcVal
    rw [vget_tab_lt (List.mem_range.mp hl), Bool.and_comm]
    rfl
  unfold execSpawn State.run
  simp only [hres, if_true, h.legal, hcheck, hlanes, hbad, bind, Except.bind]
  cases s.spawnBad a <;> rfl

/-- The first lane with a bad entry address traps for all of them. -/
theorem SpawnReady.traps (h : SpawnReady s a b) {l : Nat} (hl : l ∈ s.spawnBad a) :
    ∃ l, l ∈ s.spawnBad a ∧ (∀ k, k < l → k ∉ s.spawnBad a) ∧ execSpawn a b s =
      .next (s.raise s.cur { code := 0x04, lanes := laneMask (s.spawnBad a), addr := s.srcLane s.now false (vrep 64 0) 0 a l }) := by
  have hrun := h.run
  have hsorted : (s.spawnBad a).Pairwise (· < ·) := List.pairwise_lt_range.filter _
  have hrange : ∀ l ∈ s.spawnBad a, l < 64 := fun l hl => List.mem_range.mp (List.mem_filter.mp hl).1
  generalize s.spawnBad a = bad at hl hrun hsorted hrange
  cases bad with
  | nil => cases hl
  | cons l rest =>
    refine ⟨l, List.mem_cons_self, fun k hk hmem => ?_, ?_⟩
    · rcases List.mem_cons.mp hmem with rfl | hmem
      · omega
      · exact absurd (List.rel_of_pairwise_cons hsorted hmem) (by omega)
    · rw [hrun]
      dsimp only
      unfold State.srcVal
      rw [vget_tab_lt (hrange l List.mem_cons_self)]
      rfl

theorem SpawnReady.stalls (h : SpawnReady s a b) (hbad : s.spawnBad a = []) (hp : ¬s.Performed) (hg : s.now.gov ≠ 0) :
    execSpawn a b s = .next { s with stalled := true } := by
  have hlanes : lanesOf s.now.gov ≠ [] := by
    intro he
    refine hg (BitVec.eq_of_getLsbD_eq fun i hi => ?_)
    have hnot : i ∉ lanesOf s.now.gov := by rw [he]; exact List.not_mem_nil
    unfold lanesOf at hnot
    rw [List.mem_filter, not_and] at hnot
    simpa using hnot (List.mem_range.mpr hi)
  have hrel : s.released s.cur s.now 2 = false := by rw [Bool.eq_false_iff, Ne, State.performed_iff]; exact hp
  rw [h.run, hbad, hrel, decide_eq_false hlanes]
  rfl

theorem SpawnReady.goes (h : SpawnReady s a b) (hbad : s.spawnBad a = []) (hp : s.Performed) :
    execSpawn a b s = s.close s.cur (
      let r := s.submit s.cur s.now (s.srcVal s.now false (vrep 64 0) 0 a) (s.srcVal s.now false (vrep 64 0) 1 b) s.spawnLanes
      if r.2 then .error (.after r.1 .stall) else .ok (s.spawnDone r.1 a b)) := by
  have hrel : s.released s.cur s.now 2 = true := s.performed_iff.mpr hp
  rw [h.run, hbad, hrel, Bool.or_true]
  rfl

/-- The machine with some pairs submitted has its bins and the seat's record of them, and nothing else, of its own. -/
theorem Submitted.slot {av bv : Lanes Word} {ls : List Nat} {r : State × Bool} {n : Nat} {st : Nat → Vector SpawnBin 16}
    (h : Submitted s s.cur s.now av bv ls r n st) :
    Slot { s with cores := r.1.cores } r.1 { s.now with spawned := s.now.spawned ||| laneMask (ls.take n) } := by
  have hrest := h.rest
  have hrows : r.1.rows = s.rows := by rw [hrest]
  have hcur : r.1.cur = s.cur := by rw [hrest]
  have hnow : r.1.now = { s.now with spawned := s.now.spawned ||| laneMask (ls.take n) } := by
    unfold State.now
    rw [hcur, h.seat]
  have hframe : r.1 = { ({ s with cores := r.1.cores } : State) with seats := r.1.seats, rows := r.1.rows, freeCtr := r.1.freeCtr } := by
    conv_lhs => rw [hrest]
    rw [hrest]
  exact
    { rest := hframe
      bytes := sameBytes_of hframe
      others := h.seats
      rows := fun _ => hrows
      window := fun hn => by
        unfold State.noWindow State.row at hn ⊢
        rw [hrows, hcur]
        exact hn
      acc := fun _ => by rw [hnow]
      seat := by rw [hnow] }

/-- What a SPAWN that has submitted all its pairs leaves of the seat. -/
theorem Submitted.done {av bv : Lanes Word} {ls : List Nat} {r : State × Bool} {n : Nat} {st : Nat → Vector SpawnBin 16}
    (h : Submitted s s.cur s.now av bv ls r n st) (hres : s.now.resident = true) (a b : Src) :
    let u := s.spawnDone r.1 a b
    Slot { s with cores := u.cores } u { s.now with spawned := 0 }.advance ∧ LatchesKept s u := by
  unfold State.spawnDone
  dsimp only
  have hslot := h.slot
  generalize hx : ({ (r.1.seat s.cur).lastUse false s.now.gov [a, b] with spawned := 0 } : Seat) = x
  have hseat : x = { s.now with xdead := x.xdead, sdead := x.sdead, spawned := 0 } := by
    rw [← hx, Seat.lastUse_eq, h.seat]
    rfl
  have hlooks : Seat.Looks { s.now with spawned := 0 } x := by
    unfold Seat.Looks
    rw [hseat]
    rfl
  have hset := (hslot.replaced (k := s.cur) (w' := { s.now with spawned := 0 }) rfl hres hlooks (fun _ => by rw [hseat])).useFree
    (s.now.freeUsed false [(a, s.now.gov), (b, s.now.gov)])
  have hheld : Holds4 ((r.1.setSeat s.cur x).useFree (s.now.freeUsed false [(a, s.now.gov), (b, s.now.gov)])) s.cur s.now.lat
      s.now.latpois :=
    Holds4.congr (Holds4.setSeat (s := r.1) (k := s.cur) (t := x) (hlooks.resident.trans hres) (by rw [hseat]) (by rw [hseat])) rfl
  exact ⟨hset.next rfl hres, Holds4.kept (hset.next rfl hres).cur hheld.next⟩

end

/-- Settles O35: QPUT's claim, waits and publication, and SPAWN's pairs lane by lane. -/
theorem submissions : Obligations.Submissions := by
  unfold Obligations.Submissions
  refine ⟨?_, ?_⟩
  · intro s a b f q s1 hmem hres hpart ha hb hn31 h6 hf hcheck hdead hpois hq released n va ready waits
    have hready : QputReady s a b f q s1 := ⟨hres, qput_legal ha hb hn31 h6 hf, Seat.check_also hcheck hdead hpois, hq⟩
    obtain ⟨-, hs1⟩ := State.qputQueue_ok hq
    have hcur : s1.cur = s.cur := by rw [hs1]
    have hnow : s1.now = s.now := by rw [hs1]; rfl
    have hmem1 : MemOk s1 := by rw [hs1]; exact hmem
    have hclaimed := State.qputClaim_claimed hmem1 hcur hnow hres q
    have hfst := s1.qputClaim_fst s.cur s.now q
    generalize hv : (s1.qputClaim s.cur s.now q).2 = v at hclaimed
    have hn : s.now.qput = none → n = s1.claim q := fun hnone => by unfold n; rw [hnone]; rfl
    change Claimed s1 s.now q n v at hclaimed
    change (s1.qputClaim s.cur s.now q).1 = n at hfst
    clear_value n
    refine ⟨hready.stalls, fun hr hh hnone hfenced => ?_, fun hlt hgo => ?_⟩
    · unfold va
      rw [hn hnone] at hfenced ⊢
      show execQput a b f s = _
      rw [hready.goes hr hh, State.qputFence_trap hnone hfenced]
      rfl
    · obtain ⟨hr, hh, hfree⟩ := hgo
      have hfence : s1.qputFence s.now q = .ok () := State.qputFence_free fun hnone => by
        rw [← hn hnone]
        exact hfree hnone
      have hexec : exec (.qput a b f) s = s.close s.cur (s.qputGoes s1 a b q) := by
        show execQput a b f s = _
        rw [hready.goes hr hh, hfence]
        rfl
      obtain ⟨hheld, hfenced⟩ := hclaimed.reach
      refine ⟨fun hroom hturn hslot hdie hapart => ?_, fun hfull => ?_, fun hroom hwait => ?_⟩
      · obtain ⟨hend, hgone, hparts⟩ := hclaimed.published (a := a) (b := b) hcur hres
        have hbytes : (s.qputDone v a b q n).hbyte = publishBytes v.hbyte q n (n + 1) (s.qputPacket s.now b) :=
          (State.qputDone_hbyte _ _ _ _ _ _).trans (State.qputWrite_hbyte hclaimed.mem _ _ _)
        refine ⟨_, ?_, hgone, hend, ?_, ?_, fun k hk => ?_, hparts, fun x hx hx' => ?_⟩
        · rw [hexec, State.qputGoes_done hv hfst (by rw [hclaimed.ridx]; exact hroom) (hclaimed.widx.trans hturn)
            (hheld.trans hslot) (hfenced.trans hdie)]
          rfl
        · rw [State.widx_eq, hbytes, readBytes_publishBytes_widx _ _ _ hlt]
        · rw [← hclaimed.claim hlt, State.claim_eq, State.claim_eq, hbytes]
          exact readBytes_congr fun x hx hx' => publishBytes_outside _ _ _ _ (by omega) (by omega)
        · rw [State.slotPacket_eq _ _ _ hk, hbytes, readBytes_publishBytes_slot _ _ _ _ hapart hk, BitVec.ofNat_toNat,
            BitVec.setWidth_eq, State.qputPacket_word _ _ _ hk]
        · rw [hbytes, publishBytes_outside _ _ _ _ (by omega) hx', hclaimed.rest x (by omega)]
      · obtain ⟨hq, hpc, hslot, hclaim, hstat, hgone⟩ := hclaimed.parks (.ring (s.scalar s.now a))
        refine ⟨_, ⟨?_, hq, hpc, hslot, hclaim.trans (hclaimed.claim hlt)⟩, hstat, hgone⟩
        rw [hexec, State.qputGoes_full hv hfst (by rw [hclaimed.ridx]; exact hfull), hcur]
        rfl
      · obtain ⟨hq, hpc, hslot, hclaim, hstalled⟩ := hclaimed.stalls
        refine ⟨_, ⟨?_, hq, hpc, hslot, hclaim.trans (hclaimed.claim hlt)⟩, hstalled⟩
        rw [hexec, State.qputGoes_waits hv hfst (by rw [hclaimed.ridx]; exact hroom)
          (by rw [hclaimed.widx, hheld, hfenced]; exact hwait), hcur]
        rfl
  · intro s a b hres hcur hpa hpb h6a h6b t c hcheck entry bad lanes key done core
    have hready : SpawnReady s a b := ⟨hres, by omega, by simp only [noPortLane, hpa, h6a, hpb, h6b]; rfl, hcheck⟩
    have hmem : ∀ l, l ∈ s.spawnBad a ↔ l < 64 ∧ bad l = true := fun l => by
      unfold State.spawnBad
      rw [List.mem_filter, List.mem_range]
    have hbad64 : ∀ l, bad l = true → l < 64 := fun l hl => BitVec.lt_of_getLsbD (Bool.and_eq_true_iff.mp hl).1
    refine ⟨fun ⟨l, hl, hb⟩ => ?_, fun hgood => ?_⟩
    · obtain ⟨l, hl, hleast, hexec⟩ := hready.traps ((hmem l).mpr ⟨hl, hb⟩)
      refine ⟨l, ((hmem l).mp hl).2, fun k hk => ?_, hexec⟩
      by_contra hk'
      have hk1 : bad k = true := by simpa using hk'
      exact hleast k hk ((hmem k).mpr ⟨hbad64 k hk1, hk1⟩)
    · have hnil : s.spawnBad a = [] := List.eq_nil_iff_forall_not_mem.mpr fun l hl => by
        obtain ⟨hl, hb⟩ := (hmem l).mp hl
        rw [hgood l hl] at hb
        cases hb
      refine ⟨fun hd hg => hready.stalls hnil hd hg, fun hd => ?_⟩
      have hgoes := hready.goes hnil hd
      obtain ⟨n, st, hsub⟩ := State.submit_submitted s.now (s.srcVal s.now false (vrep 64 0) 0 a) (s.srcVal s.now false (vrep 64 0) 1 b)
        hready.core s.spawnLanes hres
      have hval : ∀ j l, lanes[j]? = some l → vget 0 (s.srcVal s.now false (vrep 64 0) 0 a) l = entry l ∧
          vget 0 (s.srcVal s.now false (vrep 64 0) 1 b) l = s.srcLane t false (vrep 64 0) 1 b l := fun j l hl => by
        have hl64 : l < 64 := List.mem_range.mp (List.mem_filter.mp (List.mem_of_getElem? hl)).1
        unfold State.srcVal
        rw [vget_tab_lt hl64, vget_tab_lt hl64]
        exact ⟨rfl, rfl⟩
      have hlanes : s.spawnLanes = lanes := rfl
      rw [hlanes] at hsub hgoes
      generalize s.submit s.cur s.now (s.srcVal s.now false (vrep 64 0) 0 a) (s.srcVal s.now false (vrep 64 0) 1 b) lanes = r at hgoes hsub
      refine ⟨n, st, hsub.le, hsub.start, fun j l hj hl => ?_, fun hall => ?_, fun l hl => ?_⟩
      · obtain ⟨ha, hb⟩ := hval j l hl
        have hstep := hsub.step j l hj hl
        rw [ha, hb] at hstep
        exact hstep
      · obtain ⟨hslot, hkept⟩ := hsub.done hres a b
        refine ⟨s.spawnDone r.1 a b, ?_, hkept, hslot, hsub.core, hsub.others⟩
        show execSpawn a b s = _
        rw [hgoes]
        dsimp only
        rw [hsub.all hall]
        rfl
      · obtain ⟨hwait, hfull⟩ := hsub.full l hl
        rw [(hval n l hl).1] at hfull
        refine ⟨hfull, { r.1 with stalled := true }, ?_, ⟨hsub.core, hsub.others⟩, hsub.seats, ?_, ?_⟩
        · show execSpawn a b s = _
          rw [hgoes]
          dsimp only
          rw [hwait]
          rfl
        · conv_lhs => rw [hsub.rest]
        · rw [← laneMask_eq_maskOf]
          show r.1.seat r.1.cur = _
          rw [show r.1.cur = s.cur by rw [hsub.rest], hsub.seat]
          rfl

end Sys2Proof.Machine

/-! Errors of memory met by the keel's readers (14 R362): what they leave, and that there are none where no sector is marked. -/
namespace Sys2Proof.Machine

/-- A machine that has met errors: marks and health counts of the stacks, and records of the event rings, are its own. -/
structure Met (s r : State) : Prop where
  rest : r = { s with hue := r.hue, hpois := r.hpois, hbmStacks := r.hbmStacks, parts := r.parts }
  parts : ∀ p, r.part p = { s.part p with ering := (r.part p).ering, ehead := (r.part p).ehead, elost := (r.part p).elost }
  clean : s.hue = [] → r = s

theorem Met.refl (s : State) : Met s s := ⟨rfl, fun _ => rfl, fun _ => rfl⟩

theorem Met.trans {s r r' : State} (h : Met s r) (h' : Met r r') : Met s r' where
  rest := by
    have h1 := h.rest
    have h2 := h'.rest
    rw [h1] at h2
    exact h2
  parts := fun p => by
    have h1 := h.parts p
    have h2 := h'.parts p
    rw [h1] at h2
    exact h2
  clean := fun hs => by
    have hr := h.clean hs
    rw [h'.clean (by rw [hr]; exact hs), hr]

/-- A fold of steps that each meet errors. -/
theorem Met.foldl {α : Type} {f : State → α → State} (hf : ∀ s x, Met s (f s x)) (xs : List α) (s : State) : Met s (xs.foldl f s) := by
  induction xs generalizing s with
  | nil => exact Met.refl s
  | cons x xs ih => exact (hf s x).trans (ih _)

theorem State.addDieEv_met (s : State) (d : Nat) (r : EvRec) :
    s.addDieEv d r = { s with parts := (s.addDieEv d r).parts } ∧ ∀ p, (s.addDieEv d r).part p = { s.part p with
      ering := ((s.addDieEv d r).part p).ering, ehead := ((s.addDieEv d r).part p).ehead, elost := ((s.addDieEv d r).part p).elost } := by
  have hset : ∀ q u, (∀ p, u = { s.part q with ering := u.ering, ehead := u.ehead, elost := u.elost } → (s.setPart q u).part p =
      { s.part p with ering := ((s.setPart q u).part p).ering, ehead := ((s.setPart q u).part p).ehead
                      elost := ((s.setPart q u).part p).elost }) := by
    intro q u p hu
    by_cases hp : p = q ∧ q < 8
    · obtain ⟨rfl, h8⟩ := hp
      rw [State.part_setPart_self _ _ h8]
      exact hu
    · have hsame : (s.setPart q u).part p = s.part p := by
        unfold State.setPart State.part
        rw [vget_vset, if_neg (by rintro ⟨rfl, h8⟩; exact hp ⟨rfl, h8⟩)]
      rw [hsame]
  unfold State.addDieEv
  split
  · unfold State.addEv
    dsimp only
    split <;> exact ⟨rfl, fun p => hset _ _ p rfl⟩
  · exact ⟨rfl, fun _ => rfl⟩

theorem State.secUE_clean {s : State} (h : s.hue = []) (pa : Nat) : s.secUE pa = false := by
  unfold State.secUE
  rw [h]
  rfl

/-- An error's record behind what it has done to the marks and the stacks. -/
theorem Met.addDieEv {s w : State} (h : w = { s with hue := w.hue, hpois := w.hpois, hbmStacks := w.hbmStacks }) (hs : s.hue ≠ [])
    (d : Nat) (r : EvRec) : Met s (w.addDieEv d r) := by
  obtain ⟨hrest, hparts⟩ := w.addDieEv_met d r
  have hpart : ∀ p, w.part p = s.part p := fun p => by rw [h]; rfl
  generalize w.addDieEv d r = x at hrest hparts
  refine ⟨?_, fun p => ?_, fun hn => absurd hn hs⟩
  · rw [h] at hrest
    rw [hrest]
  · have hp := hparts p
    rw [hpart] at hp
    exact hp

theorem State.meetUE_met (s : State) (pa : Nat) : Met s (s.meetUE pa) := by
  unfold State.meetUE
  dsimp only
  cases h : s.secUE pa with
  | false => exact Met.refl s
  | true =>
    rw [Bool.not_true, if_neg (by decide)]
    refine Met.addDieEv ?_ (fun hn => ?_) _ _
    · split <;> rfl
    · rw [s.secUE_clean hn] at h
      cases h

theorem State.metWalk_met (p d : Nat) (va : Word) (n : Nat) (s : State) : Met s (s.metWalk p d va n) := by
  induction n generalizing s with
  | zero => exact Met.refl s
  | succ n ih =>
    unfold State.metWalk
    split
    · exact (s.meetUE_met _).trans (ih _)
    · exact Met.refl s

theorem State.metWalks_met (s : State) (p : Nat) (vas : List Word) : Met s (s.metWalks p vas) :=
  Met.foldl (fun s va => State.metWalk_met p _ va 4 s) vas s

theorem State.metHeader_met (s : State) (p : Nat) (hdr : Word) : Met s (s.metHeader p hdr) := by
  unfold State.metHeader
  dsimp only
  have h1 := s.metWalks_met p [hdr]
  split
  · refine h1.trans (Met.trans ?_ (State.metWalks_met _ _ _))
    split
    · exact Met.foldl State.meetUE_met _ _
    · exact Met.refl _
  · exact h1

theorem State.metQueue_met (s : State) (q : Queue) : Met s (s.metQueue q) := by
  unfold State.metQueue
  dsimp only
  have h1 : Met s (q.hdrPas.foldl State.meetUE s) := Met.foldl State.meetUE_met _ _
  split
  · exact Met.refl s
  · split
    · exact h1
    · exact h1.trans (Met.foldl State.meetUE_met _ _)

section
variable {s r : State} (h : Met s r)
include h

theorem Met.queue (p : Nat) (hdr : Word) : r.queue p hdr = s.queue p hdr := by
  unfold State.queue
  rw [h.parts]

theorem Met.hbyte : r.hbyte = s.hbyte := by
  rw [h.rest]
  rfl

end

end Sys2Proof.Machine

/-! Queue registration, halts cleared, submission from outside and a counter unfrozen (09 R254, R256, R263; 12 R311). -/
namespace Sys2Proof.Machine

/-! ### What a header's capture holds (09 R254) -/

theorem State.hread_one (s : State) (pa : Nat) : s.hread pa 1 = (s.hbyte pa).toNat := by
  unfold State.hread State.hread
  omega

/-- Where a header is captured, and what of it. -/
structure Captured (r : State) (p : Nat) (hdr : Word) (c : Queue) : Prop where
  header : c.hdr = hdr
  aligned : hdr &&& 63 = 0
  base_aligned : c.base &&& 63 = 0
  log2n_ge : 2 ≤ c.log2n
  log2n_le : c.log2n ≤ 16
  phys : r.physOf p hdr = some c.pa
  base : c.base = BitVec.ofNat 64 (r.hread c.pa 8)
  kind : c.kind = BitVec.ofNat 8 (r.hread (c.pa + 9) 1)
  engine : c.engine = BitVec.ofNat 8 (r.hread (c.pa + 10) 1)
  ok : r.hdrOk c.pa = true
  clean : r.secPois c.pa = false
  clean' : r.secPois (c.pa + 32) = false

theorem State.capture_captured {r : State} {p : Nat} {hdr : Word} {c : Queue} (h : r.capture p hdr = some c) : Captured r p hdr c := by
  unfold State.capture at h
  obtain ⟨pa, hpa, h⟩ := Option.bind_eq_some_iff.mp h
  dsimp only at h
  split at h
  · cases h
  · rename_i hcond
    obtain ⟨pages, -, h⟩ := Option.bind_eq_some_iff.mp h
    cases h
    simp only [not_or, not_not, not_lt, Bool.not_eq_true] at hcond
    obtain ⟨halign, hbase, hge, hle, hok, hclean, hclean'⟩ := hcond
    exact ⟨rfl, halign, hbase, hge, hle, hpa, rfl, rfl, rfl, by simpa using hok, hclean, hclean'⟩

theorem State.hdrOk_iff {r : State} {pa : Nat} (h : r.hdrOk pa = true) :
    (r.hbyte (pa + 9)).toNat % 4 ≠ 3 ∧ (r.hbyte (pa + 9)).toNat / 4 % 32 = 0 ∧ r.hbyte (pa + 0x0B) = 0 ∧
      (∀ j, j < 16 → r.hbyte (pa + 0x30 + j) = 0) ∧ ((r.hbyte (pa + 9)).toNat % 4 = 0 → r.hbyte (pa + 0x0A) = 0) := by
  unfold State.hdrOk at h
  simp only [State.hread_one, Bool.and_eq_true, Bool.or_eq_true, decide_eq_true_eq] at h
  obtain ⟨⟨⟨⟨⟨h3, h32⟩, hb⟩, -⟩, h16⟩, hengine⟩ := h
  refine ⟨h3, h32, BitVec.eq_of_toNat_eq hb, fun j hj => ?_, fun h0 => BitVec.eq_of_toNat_eq (hengine.resolve_left (absurd h0))⟩
  rw [State.hread_eq_readBytes] at h16
  rw [← readBytes_byte r.hbyte 16 (pa + 0x30) hj, h16, Nat.zero_div]
  rfl

/-! ### Queues of a partition -/

theorem State.queue_hdr {s : State} {p : Nat} {hdr : Word} {q : Queue} (h : s.queue p hdr = some q) : q.hdr = hdr := by
  have := List.find?_some h
  simpa using this

/-- A queue replaced is found by its header's address. -/
theorem State.queue_setQueue {s : State} {p : Nat} {hdr : Word} {q q' : Queue} (hp : p < 8) (h : s.queue p hdr = some q)
    (hq : q'.hdr = hdr) : (s.setQueue p q').queue p hdr = some q' := by
  unfold State.queue State.setQueue
  rw [State.part_setPart_self _ _ hp]
  unfold State.queue at h
  dsimp only
  generalize (s.part p).queues = qs at h
  induction qs with
  | nil => cases h
  | cons x qs ih =>
    rw [List.map_cons, List.find?_cons]
    by_cases hx : x.hdr = hdr
    · simp [hx, hq]
    · rw [List.find?_cons_of_neg (by simpa using hx)] at h
      rw [if_neg (by rw [hq]; exact hx)]
      simp only [beq_eq_false_iff_ne.mpr hx]
      exact ih h

theorem State.part_setQueue_ne (s : State) {p k : Nat} (q : Queue) (h : k ≠ p) : (s.setQueue p q).part k = s.part k :=
  s.part_setPart_ne _ h

/-! ### Registration (09 R254) -/

section
variable {s r : State} {p : Nat} {hdr : Word} (hr : s.metHeader p hdr = r) (he : (s.part p).en = true)
include hr he

theorem State.register_waits (h : r.hdrOpen p hdr = false ∨ r.walksWait p hdr = true) : s.register p hdr = r := by
  unfold State.register
  simp only [he, hr]
  rw [if_neg (by decide), if_pos (by rcases h with h | h <;> simp [h])]

theorem State.register_adds {c : Queue} (h : ¬(r.hdrOpen p hdr = false ∨ r.walksWait p hdr = true)) (hq : r.queue p hdr = none)
    (hc : r.capture p hdr = some c) : s.register p hdr = r.setPart p { r.part p with queues := (r.part p).queues ++ [c] } := by
  unfold State.register
  simp only [he, hr, hq, hc]
  rw [if_neg (by decide), if_neg (by simpa using h)]

theorem State.register_keeps (h : r.queue p hdr ≠ none ∨ r.capture p hdr = none) : s.register p hdr = r := by
  unfold State.register
  simp only [he, hr]
  rw [if_neg (by decide)]
  split
  · rfl
  · split
    · simp_all
    · rfl

end

/-- A header can be read where its page is mapped, and its stacks and dies take accesses. -/
theorem State.hdrOpen_iff (r : State) (p : Nat) (hdr : Word) : r.hdrOpen p hdr = true ↔ ∃ pa, r.physOf p hdr = some pa ∧
    ∀ a ∈ [pa, pa + 32], r.held a = false ∧ r.fenced.getLsbD (paStack a / 3) = false := by
  unfold State.hdrOpen State.cutOff stackDie
  cases r.physOf p hdr with
  | none => simp
  | some pa =>
    simp only [Option.some.injEq, exists_eq_left', List.forall_mem_cons, List.not_mem_nil, false_implies, implies_true, and_true,
      Bool.and_eq_true, Bool.not_eq_true']
    tauto

/-! ### A halt (09 R263) -/

/-- A queue has halted with a code, and the supervisor has been told. -/
structure Halts (r u : State) (p : Nat) (q : Queue) (code : Nat) : Prop where
  rest : u = { r with hbm := u.hbm, hpois := u.hpois, hue := u.hue, parts := u.parts, elided := u.elided }
  hbyte : u.hbyte = storeBytes r.hbyte (q.pa + 0x0C) 4 (r.status q / 2 % 2 * 2 + 1 + code * 256)
  reports : p < 8 → (u.part p).reports = (r.part p).reports ++ [.halt q.hdr (r.ridx q) code]

theorem State.halt_halts {r : State} (h : MemOk r) (p : Nat) (q : Queue) (code : Nat) : Halts r (r.halt p q code) p q code := by
  unfold State.halt
  have honly := r.hdrPut_only q 0x0C 4 (r.status q / 2 % 2 * 2 + 1 + code * 256)
  have hbyte := State.hdrPut_hbyte h q 0x0C 4 (r.status q / 2 % 2 * 2 + 1 + code * 256)
  generalize r.hdrPut q 0x0C 4 (r.status q / 2 % 2 * 2 + 1 + code * 256) = w at honly hbyte
  unfold StoresOnly at honly
  refine ⟨?_, hbyte, fun hp => ?_⟩
  · rw [honly]
    rfl
  · unfold State.report
    rw [State.part_setPart_self _ _ hp, honly]
    rfl

theorem Halts.status {r u : State} {p : Nat} {q : Queue} {code : Nat} (h : Halts r u p q code) (hc : code < 2 ^ 24) :
    u.status q = r.status q / 2 % 2 * 2 + 1 + code * 256 := by
  rw [State.status_eq, h.hbyte, readBytes_storeBytes]
  exact Nat.mod_eq_of_lt (by omega)

theorem Halts.ridx {r u : State} {p : Nat} {q : Queue} {code : Nat} (h : Halts r u p q code) : u.ridx q = r.ridx q := by
  rw [State.ridx_eq, State.ridx_eq, h.hbyte]
  exact readBytes_storeBytes_disjoint _ (by omega)

/-! ### Clearing a halt (09 R263) -/

/-- A registered queue's halt cleared: STATUS.HALT, and the queue as captured again. -/
theorem State.clearHalt_clears {s r : State} {p : Nat} {hdr : Word} {q : Queue} (hr : s.metHeader p hdr = r) (hq : s.queue p hdr = some q)
    (hheld : r.hdrHeld q = false) (hwalks : r.walksWait p hdr = false) :
    ∃ q1, s.clearHalt p hdr = (r.hdrPut q 0x0C 4 (r.status q / 2 * 2)).setQueue p q1 ∧ q1.hdr = q.hdr ∧ q1.stalled = false ∧
      q1.told = none ∧ q1.frozen = q.frozen ∧ q1.run = q.run ∧ q1.pa = q.pa ∧ ∀ c, r.capture p hdr = some c → q1.base = c.base ∧
        q1.log2n = c.log2n ∧ q1.pages = c.pages ∧ q1.kind = c.kind ∧ q1.engine = c.engine := by
  unfold State.clearHalt
  simp only [hq, hr, hheld, hwalks, Bool.or_self, Bool.false_eq_true, if_false]
  cases hc : r.capture p hdr with
  | none => exact ⟨q.unstall, rfl, rfl, rfl, rfl, rfl, rfl, rfl, nofun⟩
  | some c =>
    refine ⟨{ q with base := c.base, log2n := c.log2n, pages := c.pages, kind := c.kind, engine := c.engine }.unstall, rfl, rfl, rfl, rfl,
      rfl, rfl, rfl, fun c' hc' => ?_⟩
    cases hc'
    exact ⟨rfl, rfl, rfl, rfl, rfl⟩

theorem State.clearHalt_waits {s r : State} {p : Nat} {hdr : Word} {q : Queue} (hr : s.metHeader p hdr = r) (hq : s.queue p hdr = some q)
    (h : r.hdrHeld q = true ∨ r.walksWait p hdr = true) : s.clearHalt p hdr = r := by
  unfold State.clearHalt
  simp only [hq, hr]
  rw [if_pos (Bool.or_eq_true_iff.mpr h)]

/-- Bytes of the homes written, then a queue of the partition replaced. -/
theorem StoresOnly.setQueue {r w : State} (h : StoresOnly r w) (p : Nat) (q : Queue) :
    w.setQueue p q = { r with hbm := (w.setQueue p q).hbm, hpois := (w.setQueue p q).hpois, hue := (w.setQueue p q).hue
                              parts := (w.setQueue p q).parts, elided := (w.setQueue p q).elided } := by
  unfold StoresOnly at h
  rw [h]
  rfl

theorem StoresOnly.part {r w : State} (h : StoresOnly r w) (p : Nat) : w.part p = r.part p := by
  unfold StoresOnly at h
  rw [h]
  rfl

theorem StoresOnly.queue {r w : State} (h : StoresOnly r w) (p : Nat) (hdr : Word) : w.queue p hdr = r.queue p hdr := by
  unfold State.queue
  rw [h.part]

/-! ### Submission from outside (09 R256) -/

/-- The machine with an external writer's packet and index in place. -/
def State.submitted (s : State) (q : Queue) (pkt : Vector Word 8) (w : Nat) : State :=
  (s.puts none ((List.range 8).map fun k => (q.slotPa (s.widx q) + 8 * k, 8, (vget 0 pkt k).toNat))).hdrPut q 0x18 8 w

theorem State.submitted_only (s : State) (q : Queue) (pkt : Vector Word 8) (w : Nat) : StoresOnly s (s.submitted q pkt w) :=
  (s.puts_none_only _).trans (State.hdrPut_only _ _ _ _ _)

theorem State.submitted_hbyte {s : State} (h : MemOk s) (q : Queue) (pkt : Vector Word 8) (w : Nat) :
    (s.submitted q pkt w).hbyte = publishBytes s.hbyte q (s.widx q) w pkt := by
  unfold State.submitted
  rw [State.hdrPut_hbyte (memOk_puts _ _ _ h), State.puts_none_hbyte h]
  rfl

section
variable {s : State} {p : Nat} {hdr : Word} {q : Queue} (hq : s.queue p hdr = some q) (pkt : Vector Word 8) (w : Word)
include hq

theorem State.submitExt_closed (h : (s.part p).en = false ∨ q.ext = false) : s.submitExt p hdr pkt w = s := by
  unfold State.submitExt
  simp only [hq]
  rw [if_pos (by rcases h with h | h <;> simp [h])]

theorem State.submitExt_fenced (he : (s.part p).en = true) (hx : q.ext = true) (h : s.hdrFenced q = true ∨ s.slotFenced q (s.widx q) = true) :
    s.submitExt p hdr pkt w = s.answer .refused := by
  unfold State.submitExt
  simp only [hq]
  rw [if_neg (by simp [he, hx]), if_pos (Bool.or_eq_true_iff.mpr h)]

theorem State.submitExt_held (he : (s.part p).en = true) (hx : q.ext = true) (hf : ¬(s.hdrFenced q = true ∨ s.slotFenced q (s.widx q) = true))
    (h : s.hdrHeld q = true ∨ s.slotHeld q (s.widx q) = true) : s.submitExt p hdr pkt w = s := by
  unfold State.submitExt
  simp only [hq]
  rw [if_neg (by simp [he, hx]), if_neg (mt Bool.or_eq_true_iff.mp hf), if_pos (Bool.or_eq_true_iff.mpr h)]

theorem State.submitExt_stores (he : (s.part p).en = true) (hx : q.ext = true)
    (hf : ¬(s.hdrFenced q = true ∨ s.slotFenced q (s.widx q) = true)) (h : ¬(s.hdrHeld q = true ∨ s.slotHeld q (s.widx q) = true)) :
    s.submitExt p hdr pkt w = let v := s.submitted q pkt w.toNat
      if v.badWidx q && !v.halted q then v.halt p q 0x0A else v := by
  unfold State.submitExt
  simp only [hq]
  rw [if_neg (by simp [he, hx]), if_neg (mt Bool.or_eq_true_iff.mp hf), if_neg (mt Bool.or_eq_true_iff.mp h)]
  rfl

end

section
variable {s : State} {q : Queue} (hmem : MemOk s) (pkt : Vector Word 8) (w : Word)
  (hapart : q.slotPa (s.widx q) + 64 ≤ q.pa ∨ q.pa + 64 ≤ q.slotPa (s.widx q))
include hmem

theorem State.submitted_widx : (s.submitted q pkt w.toNat).widx q = w.toNat := by
  rw [State.widx_eq, State.submitted_hbyte hmem, readBytes_publishBytes_widx _ _ _ w.isLt]

include hapart

theorem State.submitted_field {o k : Nat} (ho : o + k ≤ 0x18 ∨ 0x20 ≤ o) (hk : o + k ≤ 0x40) :
    readBytes (s.submitted q pkt w.toNat).hbyte (q.pa + o) k = readBytes s.hbyte (q.pa + o) k := by
  rw [State.submitted_hbyte hmem]
  exact readBytes_congr fun x hx hx' => publishBytes_outside _ _ _ _ (by omega) (by omega)

theorem State.submitted_ridx : (s.submitted q pkt w.toNat).ridx q = s.ridx q := by
  rw [State.ridx_eq, State.ridx_eq, State.submitted_field hmem pkt w hapart (by omega) (by omega)]

theorem State.submitted_status : (s.submitted q pkt w.toNat).status q = s.status q := by
  rw [State.status_eq, State.status_eq, State.submitted_field hmem pkt w hapart (by omega) (by omega)]

theorem State.submitted_bad : (s.submitted q pkt w.toNat).badWidx q = true ↔
    w.toNat < q.back.getD (s.ridx q) ∨ q.back.getD (s.ridx q) + 2 ^ q.log2n < w.toNat := by
  unfold State.badWidx
  rw [State.submitted_ridx hmem pkt w hapart, State.submitted_widx hmem]
  rw [Bool.or_eq_true, decide_eq_true_iff, decide_eq_true_iff]
  rfl

theorem State.submitted_slot {k : Nat} (hk : k < 8) :
    readBytes (s.submitted q pkt w.toNat).hbyte (q.slotPa (s.widx q) + 8 * k) 8 = (vget 0 pkt k).toNat := by
  rw [State.submitted_hbyte hmem, readBytes_publishBytes_slot _ _ _ _ hapart hk]

end

/-! ### A counter's freeze cleared (12 R311) -/

theorem State.counter_setCounter {s : State} {p : Nat} (hp : p < 8) (hwf : Sparse.wf {} (s.part p).counters = true) (n : Nat) (c : Counter) :
    (s.setCounter p n c).counter p n = c := by
  unfold State.counter State.setCounter
  rw [State.part_setPart_self _ _ hp]
  exact (Sparse.get_set {} hwf n n c).trans (if_pos rfl)

/-- Where no task is left, the cleared counter takes none. -/
theorem State.clearFrozen_idle {s : State} {p n : Nat} (hp : p < 8) (hwf : Sparse.wf {} (s.part p).counters = true)
    (hf : (s.counter p n).frozen = true)
    (hnil : (if (s.counter p n).atTask then (s.counter p n).pend.tail else (s.counter p n).pend) = []) :
    s.clearFrozen p n = s.setCounter p n
      { s.counter p n with frozen := false, atTask := false, pend := [], hold := false, told := none } := by
  unfold State.clearFrozen
  simp only [hf, if_true, hnil]
  unfold State.takeTask
  simp only [State.counter_setCounter hp hwf]

/-! ### The obligation -/

/-- Settles O42: what registration, the clearing of a halt, a submission from outside and the clearing of a freeze leave. -/
theorem queueUpkeep : Obligations.QueueUpkeep := by
  unfold Obligations.QueueUpkeep
  intro s p hdr hmem refused r waits
  have hmet : Met s r := s.metHeader_met p hdr
  have hmemr : MemOk r := memOk_metHeader _ _ _ hmem
  have hport : s.commanded = true → ∀ f, s.byPort f = f s := fun hc f => if_pos hc
  refine ⟨hmet.clean, ?_, fun hc pkt w n i hi => ?_, fun hc => ⟨fun hen => ?_, fun hen => ⟨fun hw => ?_, fun c hcap => ?_, fun hno => ?_⟩,
    fun hnone => ?_, fun q hq => ⟨fun hw => ?_, fun hheld hwalks => ?_, fun pkt w => ⟨fun hclosed => ?_, fun he hx => ?_⟩⟩, fun n => ?_⟩⟩
  · exact r.hdrOpen_iff p hdr
  · have hno : ∀ f, s.byPort f = refused := fun f => if_neg (by rw [hc]; decide)
    simp only [List.mem_cons, List.not_mem_nil, or_false] at hi
    rcases hi with rfl | rfl | rfl | rfl <;> exact congrArg Host.Outcome.next (hno _)
  · show Host.Outcome.next (s.byPort _) = _
    rw [hport hc]
    unfold State.register
    rw [hen]
    rfl
  · show Host.Outcome.next (s.byPort _) = _
    rw [hport hc, State.register_waits rfl hen hw]
  · have h := State.capture_captured hcap
    obtain ⟨h3, h32, hb, h16, hengine⟩ := State.hdrOk_iff h.ok
    have hkind : c.kind = r.hbyte (c.pa + 9) := h.kind.trans (by rw [State.hread_one, BitVec.ofNat_toNat, BitVec.setWidth_eq])
    have hengine' : c.engine = r.hbyte (c.pa + 10) := h.engine.trans (by rw [State.hread_one, BitVec.ofNat_toNat, BitVec.setWidth_eq])
    refine ⟨h.header, h.aligned, h.base_aligned, h.log2n_ge, h.log2n_le, h.phys, ?_, hkind, ?_, ?_, hb, h16, fun h0 => ?_, h.clean, h.clean',
      hengine', fun hw hnone => ?_⟩
    · rw [h.base, State.hread_eq_readBytes]
    · rw [hkind]
      exact h3
    · rw [hkind]
      apply BitVec.eq_of_toNat_eq
      rw [BitVec.extractLsb'_toNat, Nat.shiftRight_eq_div_pow]
      exact h32
    · rw [hengine']
      exact hengine (by rw [← hkind]; exact h0)
    · show Host.Outcome.next (s.byPort _) = _
      rw [hport hc, State.register_adds rfl hen hw hnone hcap]
  · show Host.Outcome.next (s.byPort _) = _
    rw [hport hc, State.register_keeps rfl hen hno]
  · show Host.Outcome.next (s.byPort _) = _
    rw [hport hc]
    unfold State.clearHalt
    rw [hnone]
  · show Host.Outcome.next (s.byPort _) = _
    rw [hport hc, State.clearHalt_waits rfl hq hw]
  · obtain ⟨q1, hclear, hhdr, hstalled, htold, hfrozen, hrun, hpa, hcapture⟩ := State.clearHalt_clears rfl hq hheld hwalks
    have honly := r.hdrPut_only q 0x0C 4 (r.status q / 2 * 2)
    have hbyte := State.hdrPut_hbyte hmemr q 0x0C 4 (r.status q / 2 * 2)
    have hexec : exec (.queueHaltClear p hdr) s = .next ((r.hdrPut q 0x0C 4 (r.status q / 2 * 2)).setQueue p q1) := by
      show Host.Outcome.next (s.byPort _) = _
      rw [hport hc, hclear]
    rw [← State.setQueue_hbyte _ p q1] at hbyte
    have hparts : ∀ k, k ≠ p.val → ((r.hdrPut q 0x0C 4 (r.status q / 2 * 2)).setQueue p q1).part k = r.part k := fun k hk =>
      (State.part_setQueue_ne _ _ hk).trans (honly.part k)
    have hqueue : (r.hdrPut q 0x0C 4 (r.status q / 2 * 2)).queue p hdr = some q := by rw [honly.queue, hmet.queue, hq]
    refine ⟨_, hexec, honly.setQueue p q1, fun x hx => ?_, ?_, hparts, q1,
      State.queue_setQueue p.isLt hqueue (hhdr.trans (State.queue_hdr hq)), hstalled, htold, hfrozen, hrun, hpa, hcapture⟩
    · rw [hbyte, storeBytes_outside (by omega)]
    · have hlt := readBytes_lt r.hbyte 4 (q.pa + 0x0C)
      rw [hbyte, readBytes_storeBytes, State.status_eq]
      exact Nat.mod_eq_of_lt (by omega)
  · show Host.Outcome.next (s.byPort _) = _
    rw [hport hc, State.submitExt_closed hq pkt w hclosed]
  · refine ⟨fun hf => ?_, fun hf hh => ?_, fun hf hh hapart => ?_⟩
    · show Host.Outcome.next (s.byPort _) = _
      rw [hport hc, State.submitExt_fenced hq pkt w he hx hf]
      rfl
    · show Host.Outcome.next (s.byPort _) = _
      rw [hport hc, State.submitExt_held hq pkt w he hx hf hh]
    · intro at' bad
      have hexec : exec (.extQueueSubmit p hdr pkt w) s = .next (let v := s.submitted q pkt w.toNat
          if v.badWidx q && !v.halted q then v.halt p q 0x0A else v) := by
        show Host.Outcome.next (s.byPort _) = _
        rw [hport hc, State.submitExt_stores hq pkt w he hx hf hh]
      dsimp only at hexec
      have hbad : (s.submitted q pkt w.toNat).badWidx q = true ↔ bad := State.submitted_bad hmem pkt w hapart
      have honly := s.submitted_only q pkt w.toNat
      have hwidx := State.submitted_widx (q := q) hmem pkt w
      have hridx := State.submitted_ridx hmem pkt w hapart
      have hstatus := State.submitted_status hmem pkt w hapart
      have hslot : ∀ k, k < 8 → readBytes (s.submitted q pkt w.toNat).hbyte (q.slotPa (s.widx q) + 8 * k) 8 = (vget 0 pkt k).toNat :=
        fun k hk => State.submitted_slot hmem pkt w hapart hk
      have hmemv : MemOk (s.submitted q pkt w.toNat) := memOk_hdrPut _ _ _ _ _ (memOk_puts _ _ _ hmem)
      generalize s.submitted q pkt w.toNat = v at hexec hbad honly hwidx hridx hstatus hslot hmemv
      have hpacket : ∀ u : State, u.hbyte = v.hbyte ∨ Halts v u p q 0x0A → ∀ k, k < 8 →
          vget 0 (u.slotPacket q (s.widx q)) k = vget 0 pkt k := by
        intro u hu k hk
        rw [State.slotPacket_eq _ _ _ hk, show readBytes u.hbyte _ 8 = (vget 0 pkt k).toNat from ?_, BitVec.ofNat_toNat, BitVec.setWidth_eq]
        rcases hu with hu | hu
        · rw [hu, hslot k hk]
        · rw [hu.hbyte, readBytes_storeBytes_disjoint _ (by omega), hslot k hk]
      have hhalted : v.halted q = s.halted q := by unfold State.halted; rw [hstatus]
      by_cases hcond : (v.badWidx q && !v.halted q) = true
      · have hhalts := State.halt_halts hmemv p q 0x0A
        rw [if_pos hcond] at hexec
        generalize v.halt p q 0x0A = u at hexec hhalts
        refine ⟨u, hexec, ?_, hhalts.ridx.trans hridx, ?_, hpacket u (.inr hhalts), fun hn => ?_, fun _ _ => ⟨?_, ?_⟩⟩
        · rw [← hwidx, State.widx_eq, State.widx_eq, hhalts.hbyte]
          exact readBytes_storeBytes_disjoint _ (by omega)
        · have hrest := hhalts.rest
          unfold StoresOnly at honly
          rw [honly] at hrest
          exact hrest
        · exact absurd (hbad.mp (Bool.and_eq_true_iff.mp hcond).1) hn
        · rw [hhalts.status (by decide), hstatus]
        · rw [hhalts.reports p.isLt, honly.part, State.queue_hdr hq, hridx]
      · rw [if_neg hcond] at hexec
        have hrest := honly
        unfold StoresOnly at hrest
        have hparts : v.parts = s.parts := by rw [hrest]
        refine ⟨v, hexec, hwidx, hridx, ?_, hpacket v (.inl rfl), fun _ => ⟨hparts, hstatus⟩, fun hb hno => ?_⟩
        · rw [hparts]
          exact hrest
        · exact absurd (Bool.and_eq_true_iff.mpr ⟨hbad.mpr hb, by rw [hhalted, hno]; rfl⟩) hcond
  · intro c
    refine ⟨fun hf => ?_, fun hf hnil hwf => ?_⟩
    · show Host.Outcome.next (s.byPort _) = _
      rw [hport hc]
      unfold State.clearFrozen
      dsimp only
      rw [if_neg (by rw [show (s.counter p n).frozen = false from hf]; decide)]
    · show Host.Outcome.next (s.byPort _) = _
      rw [hport hc, State.clearFrozen_idle p.isLt hwf hf hnil]
      rfl

end Sys2Proof.Machine

/-! The codes that a packet fails, and the checks of a girth packet (09 R261, R263). -/
namespace Sys2Proof.Machine

/-! ### The lowest code (09 R263) -/

theorem lowest_from (cs : List Nat) (m : Option Nat) :
    (cs.foldl (fun m c => some (min c (m.getD c))) m = none ↔ m = none ∧ cs = []) ∧
      ∀ c, cs.foldl (fun m c => some (min c (m.getD c))) m = some c →
        (m = some c ∨ c ∈ cs) ∧ (∀ d ∈ cs, c ≤ d) ∧ ∀ d, m = some d → c ≤ d := by
  induction cs generalizing m with
  | nil => exact ⟨by simp, fun c hc => ⟨.inl hc, nofun, fun d hd => by rw [List.foldl_nil, hd] at hc; exact (Option.some.inj hc).ge⟩⟩
  | cons x cs ih =>
    obtain ⟨hnone, hsome⟩ := ih (some (min x (m.getD x)))
    refine ⟨by simpa using hnone, fun c hc => ?_⟩
    obtain ⟨hfrom, hle, hm⟩ := hsome c hc
    have hmin := hm _ rfl
    refine ⟨?_, List.forall_mem_cons.mpr ⟨hmin.trans (min_le_left _ _), hle⟩, fun d hd => ?_⟩
    · rcases hfrom with hfrom | hfrom
      · have hc := Option.some.inj hfrom
        cases m with
        | none => exact .inr (List.mem_cons.mpr (.inl (hc.symm.trans (min_self x))))
        | some d =>
          rcases min_choice x d with hx | hx
          · exact .inr (List.mem_cons.mpr (.inl (hc.symm.trans hx)))
          · exact .inl (congrArg some (hx.symm.trans hc))
      · exact .inr (List.mem_cons_of_mem _ hfrom)
    · rw [hd] at hmin
      exact hmin.trans (min_le_right _ _)

theorem lowest_none {cs : List Nat} : lowest cs = none ↔ cs = [] := by
  unfold lowest
  rw [(lowest_from cs none).1]
  simp

/-- A packet fails no code, or one that is the lowest. -/
theorem lowest_iff {cs : List Nat} {fails : Nat → Prop} (hf : ∀ c, c ∈ cs ↔ fails c) :
    (∀ c, Lowest fails c ↔ lowest cs = some c) ∧ ((∀ c, ¬fails c) ↔ lowest cs = none) := by
  have hsome : ∀ c, lowest cs = some c → Lowest fails c := fun c hc => by
    obtain ⟨hmem, hle, -⟩ := (lowest_from cs none).2 c hc
    exact ⟨(hf c).mp (hmem.resolve_left nofun), fun d hd hfail => absurd (hle d ((hf d).mpr hfail)) (by omega)⟩
  refine ⟨fun c => ⟨fun h => ?_, hsome c⟩, ?_⟩
  · cases hl : lowest cs with
    | none =>
      have hmem := (hf c).mpr h.1
      rw [lowest_none.mp hl] at hmem
      cases hmem
    | some d =>
      have hd := hsome d hl
      rcases Nat.lt_trichotomy c d with hlt | rfl | hlt
      · exact absurd h.1 (hd.2 c hlt)
      · rfl
      · exact absurd hd.1 (h.2 d hlt)
  · rw [lowest_none]
    constructor
    · intro h
      exact List.eq_nil_iff_forall_not_mem.mpr fun c hc => h c ((hf c).mp hc)
    · rintro rfl c hc
      exact absurd ((hf c).mpr hc) List.not_mem_nil

/-- The codes of a list of checks. -/
theorem mem_codes {l : List (Nat × Bool)} {c : Nat} :
    c ∈ l.filterMap (fun (c : Nat × Bool) => if c.2 then some c.1 else none) ↔ (c, true) ∈ l := by
  rw [List.mem_filterMap]
  constructor
  · rintro ⟨⟨d, b⟩, hmem, h⟩
    cases b
    · cases h
    · cases h
      exact hmem
  · exact fun h => ⟨_, h, rfl⟩

/-! ### The ranges of a girth packet (09 R261) -/

/-- The bases of the ranges that a packet names. -/
def girthBases (k : Vector Word 8) : List Word :=
  let cmd := pktField k 0 1
  [pktWord k 8] ++ (if cmd = 0x10 ∨ cmd = 0x12 ∨ cmd = 0x13 then [pktWord k 0x10] else []) ++
    (if cmd = 0x12 ∨ cmd = 0x13 then [pktWord k 0x18] else []) ++
    if cmd = 0x13 then [pktWord k 0x18 + BitVec.ofNat 64 (4 * pktField k 4 4)] else []

theorem girthRanges_size {k : Vector Word 8} {x : Word × Nat × Bool} (h : x ∈ girthRanges k) : x.2.1 = 4 * pktField k 4 4 := by
  unfold girthRanges at h
  split at h <;> simp only [List.mem_cons, List.not_mem_nil, or_false] at h <;> rcases h with rfl | rfl | rfl | rfl <;> rfl

/-- Two ranges of a list meet. -/
theorem anyMeet_iff (rs : List (Word × Nat × Bool)) :
    anyMeet rs = true ↔ ∃ (i j : Nat) (x y : Word × Nat × Bool), i < j ∧ rs[i]? = some x ∧ rs[j]? = some y ∧ rangesMeet x y = true := by
  induction rs with
  | nil => simp [anyMeet]
  | cons r rs ih =>
    unfold anyMeet
    rw [Bool.or_eq_true, List.any_eq_true, ih]
    constructor
    · rintro (⟨y, hy, hmeet⟩ | ⟨i, j, x, y, hij, hx, hy, hmeet⟩)
      · obtain ⟨j, hj⟩ := List.getElem?_of_mem hy
        exact ⟨0, j + 1, r, y, by omega, rfl, hj, hmeet⟩
      · exact ⟨i + 1, j + 1, x, y, by omega, hx, hy, hmeet⟩
    · rintro ⟨i, j, x, y, hij, hx, hy, hmeet⟩
      obtain ⟨j, rfl⟩ : ∃ j', j = j' + 1 := ⟨j - 1, by omega⟩
      cases i with
      | zero =>
        obtain rfl : r = x := Option.some.inj hx
        exact .inl ⟨y, List.mem_of_getElem? hy, hmeet⟩
      | succ i => exact .inr ⟨i, j, x, y, by omega, hx, hy, hmeet⟩

theorem girthRanges_bases (k : Vector Word 8) : (girthRanges k).map (fun x => x.1) = girthBases k := by
  unfold girthRanges girthBases
  change _ = [pktWord k 8] ++ (if pktKind k = 0x10 ∨ pktKind k = 0x12 ∨ pktKind k = 0x13 then [pktWord k 0x10] else []) ++
    (if pktKind k = 0x12 ∨ pktKind k = 0x13 then [pktWord k 0x18] else []) ++
    if pktKind k = 0x13 then [pktWord k 0x18 + BitVec.ofNat 64 (4 * pktField k 4 4)] else []
  split
  · rename_i h; simp [h]
  · rename_i h; simp [h]
  · rename_i h; simp [h, girthN]
  · rename_i h1 h2 h3
    have h1' : pktKind k ≠ 0x10 := h1
    have h2' : pktKind k ≠ 0x12 := h2
    have h3' : pktKind k ≠ 0x13 := h3
    simp [h1', h2', h3']

theorem girthConsts_eq (cmd : Nat) : girthConsts cmd =
    if cmd = 0x10 ∨ cmd = 0x11 then 1 else if cmd = 0x12 then 3 else if cmd = 0x13 then 7 else 0 := by
  unfold girthConsts
  split
  · rfl
  · rfl
  · rfl
  · rfl
  · rename_i h1 h2 h3 h4
    rw [if_neg (by rintro (h | h) <;> contradiction), if_neg h3, if_neg h4]

theorem doneBad_iff (f : Nat) : doneBad (BitVec.ofNat 32 f) = true ↔ f / 2 ^ 12 % 2 ^ 19 ≠ 0 := by
  have hval : ((BitVec.ofNat 32 f).extractLsb' 12 19).toNat = f / 2 ^ 12 % 2 ^ 19 := by
    rw [BitVec.extractLsb'_toNat, BitVec.toNat_ofNat, Nat.shiftRight_eq_div_pow]
    omega
  unfold doneBad
  rw [bne_iff_ne, Ne, ← BitVec.toNat_inj, hval]
  rfl

/-- Some base of a packet has a property. -/
theorem any_girthRanges (k : Vector Word 8) (f : Word → Bool) :
    ((girthRanges k).any fun x => f x.1) = true ↔ ∃ a ∈ girthBases k, f a = true := by
  rw [← girthRanges_bases, List.any_eq_true]
  simp only [List.mem_map, exists_exists_and_eq_and]

theorem anyMeet_girthRanges (k : Vector Word 8) : anyMeet (girthRanges k) = true ↔
    ∃ (i j : Nat) (a b : Word), i < j ∧ (girthBases k)[i]? = some a ∧ (girthBases k)[j]? = some b ∧
      a.toNat < b.toNat + 4 * pktField k 4 4 ∧ b.toNat < a.toNat + 4 * pktField k 4 4 := by
  rw [anyMeet_iff, ← girthRanges_bases]
  have hmeet : ∀ x ∈ girthRanges k, ∀ y ∈ girthRanges k, rangesMeet x y = true ↔
      x.1.toNat < y.1.toNat + 4 * pktField k 4 4 ∧ y.1.toNat < x.1.toNat + 4 * pktField k 4 4 := fun x hx y hy => by
    unfold rangesMeet
    rw [girthRanges_size hx, girthRanges_size hy, Bool.and_eq_true, decide_eq_true_iff, decide_eq_true_iff]
  simp only [List.getElem?_map, Option.map_eq_some_iff]
  constructor
  · rintro ⟨i, j, x, y, hij, hx, hy, h⟩
    exact ⟨i, j, x.1, y.1, hij, ⟨x, hx, rfl⟩, ⟨y, hy, rfl⟩, (hmeet x (List.mem_of_getElem? hx) y (List.mem_of_getElem? hy)).mp h⟩
  · rintro ⟨i, j, _, _, hij, ⟨x, hx, rfl⟩, ⟨y, hy, rfl⟩, h⟩
    exact ⟨i, j, x, y, hij, hx, hy, (hmeet x (List.mem_of_getElem? hx) y (List.mem_of_getElem? hy)).mpr h⟩

/-! ### The codes of a girth packet (09 R263) -/

section
variable (k : Vector Word 8) (ok : Bool)

theorem girthFails_kind : (decide (pktKind k < 0x10) || decide (0x15 < pktKind k)) = true ↔ girthFails k ok 0x01 := by
  rw [Bool.or_eq_true, decide_eq_true_iff, decide_eq_true_iff]
  rfl

theorem girthFails_reserved : (pktField k 1 1 != 0 || pktField k 2 2 != 0 || doneBad (BitVec.ofNat 32 (pktField k 0x20 4)) ||
    (!(pktKind k == 0x10 || pktKind k == 0x12 || pktKind k == 0x13) && pktWord k 0x10 != 0) ||
    (!(pktKind k == 0x12 || pktKind k == 0x13) && pktWord k 0x18 != 0) ||
    (List.range 7).any fun j => decide (girthConsts (pktKind k) ≤ j) && pktField k (0x24 + 4 * j) 4 != 0) = true ↔
      girthFails k ok 0x02 := by
  show _ ↔ pktField k 1 1 ≠ 0 ∨ pktField k 2 2 ≠ 0 ∨ pktField k 0x20 4 / 2 ^ 12 % 2 ^ 19 ≠ 0 ∨
    ¬(pktKind k = 0x10 ∨ pktKind k = 0x12 ∨ pktKind k = 0x13) ∧ pktWord k 0x10 ≠ 0 ∨
    ¬(pktKind k = 0x12 ∨ pktKind k = 0x13) ∧ pktWord k 0x18 ≠ 0 ∨
    ∃ j, (if pktKind k = 0x10 ∨ pktKind k = 0x11 then 1 else if pktKind k = 0x12 then 3 else if pktKind k = 0x13 then 7 else 0) ≤ j ∧
      j < 7 ∧ pktField k (0x24 + 4 * j) 4 ≠ 0
  have hconsts : ((List.range 7).any fun j => decide (girthConsts (pktKind k) ≤ j) && pktField k (0x24 + 4 * j) 4 != 0) = true ↔
      ∃ j, girthConsts (pktKind k) ≤ j ∧ j < 7 ∧ pktField k (0x24 + 4 * j) 4 ≠ 0 := by
    rw [List.any_eq_true]
    refine exists_congr fun j => ?_
    rw [List.mem_range, Bool.and_eq_true, decide_eq_true_iff, bne_iff_ne]
    tauto
  rw [Bool.or_eq_true, Bool.or_eq_true, Bool.or_eq_true, Bool.or_eq_true, Bool.or_eq_true, hconsts, doneBad_iff, ← girthConsts_eq]
  simp only [bne_iff_ne, Bool.and_eq_true, Bool.not_eq_true', Bool.or_eq_false_iff, beq_eq_false_iff_ne, not_or, or_assoc, and_assoc, ne_eq]

theorem girthFails_misaligned : ((girthRanges k).any fun r => r.1 &&& 3 != 0) = true ↔ girthFails k ok 0x03 := by
  rw [any_girthRanges k fun a => a &&& 3 != 0]
  simp only [bne_iff_ne]
  rfl

theorem girthFails_empty : (girthN k == 0) = true ↔ girthFails k ok 0x05 := by
  rw [beq_iff_eq]
  rfl

theorem girthFails_overlap : anyMeet (girthRanges k) = true ↔ girthFails k ok 0x07 := anyMeet_girthRanges k

theorem girthFails_stack : (!ok || (girthRanges k).any fun r => r.1.getLsbD 63) = true ↔ girthFails k ok 0x08 := by
  rw [Bool.or_eq_true, any_girthRanges k fun a => a.getLsbD 63, Bool.not_eq_true']
  rfl

/-- The codes that the check of a girth packet finds are those that it fails. -/
theorem mem_girthCodes (c : Nat) : c ∈ girthCodes k ok ↔ girthFails k ok c := by
  unfold girthCodes
  rw [mem_codes]
  simp only [List.mem_cons, Prod.mk.injEq, List.not_mem_nil, or_false]
  constructor
  · rintro (⟨rfl, h⟩ | ⟨rfl, h⟩ | ⟨rfl, h⟩ | ⟨rfl, h⟩ | ⟨rfl, h⟩ | ⟨rfl, h⟩)
    · exact (girthFails_kind k ok).mp h.symm
    · exact (girthFails_reserved k ok).mp h.symm
    · exact (girthFails_misaligned k ok).mp h.symm
    · exact (girthFails_empty k ok).mp h.symm
    · exact (girthFails_overlap k ok).mp h.symm
    · exact (girthFails_stack k ok).mp h.symm
  · intro h
    have hcode : c = 1 ∨ c = 2 ∨ c = 3 ∨ c = 5 ∨ c = 7 ∨ c = 8 := by
      unfold girthFails at h
      dsimp only at h
      split at h <;> simp at h ⊢
    rcases hcode with rfl | rfl | rfl | rfl | rfl | rfl
    · exact .inl ⟨rfl, ((girthFails_kind k ok).mpr h).symm⟩
    · exact .inr (.inl ⟨rfl, ((girthFails_reserved k ok).mpr h).symm⟩)
    · exact .inr (.inr (.inl ⟨rfl, ((girthFails_misaligned k ok).mpr h).symm⟩))
    · exact .inr (.inr (.inr (.inl ⟨rfl, ((girthFails_empty k ok).mpr h).symm⟩)))
    · exact .inr (.inr (.inr (.inr (.inl ⟨rfl, ((girthFails_overlap k ok).mpr h).symm⟩))))
    · exact .inr (.inr (.inr (.inr (.inr ⟨rfl, ((girthFails_stack k ok).mpr h).symm⟩))))

end

end Sys2Proof.Machine

/-! What the keel's masters do to a queue beside halting it: freezing it, making it wait, and telling the supervisor (09 R260, R263;
13 R331, R332). -/
namespace Sys2Proof.Machine

/-! ### Partitions (13 R320) -/

@[simp] theorem State.setPart_hbyte (s : State) (p : Nat) (u : Part) : (s.setPart p u).hbyte = s.hbyte := rfl

/-- A violation's record, where the ring has room. -/
theorem State.addVio_vring (s : State) {p : Nat} (r : VioRec) (hp : p < 8) (h : (s.part p).vring.length < 64) :
    ((s.addVio p r).part p).vring = (s.part p).vring ++ [r] := by
  unfold State.addVio
  rw [if_pos h, State.part_setPart_self _ _ hp]

/-- A record changes the violation ring of its partition and nothing else. -/
theorem State.addVio_rest (s : State) (p : Nat) (r : VioRec) :
    s.addVio p r = { s with parts := (s.addVio p r).parts } ∧
      (p < 8 → (s.addVio p r).part p = { s.part p with
        vring := ((s.addVio p r).part p).vring, vhead := ((s.addVio p r).part p).vhead, vlost := ((s.addVio p r).part p).vlost }) := by
  unfold State.addVio
  dsimp only
  split
  · exact ⟨rfl, fun hp => by rw [State.part_setPart_self _ _ hp]⟩
  · exact ⟨rfl, fun hp => by rw [State.part_setPart_self _ _ hp]⟩

theorem State.addVio_queue (s : State) {p : Nat} (r : VioRec) (hp : p < 8) (hdr : Word) : (s.addVio p r).queue p hdr = s.queue p hdr := by
  unfold State.queue
  rw [(s.addVio_rest p r).2 hp]

theorem State.setQueue_part (s : State) {p : Nat} (q : Queue) (hp : p < 8) :
    (s.setQueue p q).part p = { s.part p with queues := ((s.setQueue p q).part p).queues } := by
  unfold State.setQueue
  rw [State.part_setPart_self _ _ hp]

/-! ### A queue frozen (13 R331, R332) -/

/-- A queue has frozen at a slot with a violation. -/
structure Froze (r u : State) (p : Nat) (q : Queue) (slot code : Nat) (codes : BitVec 16) (addr : Word) : Prop where
  rest : u = { r with parts := u.parts }
  queue : ∀ q', r.queue p q.hdr = some q' → u.queue p q.hdr = some { q with frozen := true }
  vring : (r.part p).vring.length < 64 → ∃ v : VioRec, (u.part p).vring = (r.part p).vring ++ [v] ∧ v.code = code ∧ v.codes = codes ∧
    v.addr = addr ∧ v.mkind = (if q.sort = 0 then 5 else q.sort) ∧ v.owner = q.hdr ∧ v.pc = BitVec.ofNat 64 slot

theorem State.freezeQueue_froze (r : State) {p : Nat} (hp : p < 8) (q : Queue) (slot code : Nat) (codes : BitVec 16) (addr : Word) :
    Froze r (r.freezeQueue p q slot code codes addr) p q slot code codes addr := by
  unfold State.freezeQueue
  have hpart := r.setQueue_part { q with frozen := true } hp
  refine ⟨?_, fun q' hq => ?_, fun hroom => ⟨_, (State.addVio_vring _ _ hp (by rw [hpart]; exact hroom)).trans (by rw [hpart]), rfl, rfl, rfl,
    rfl, rfl, rfl⟩⟩
  · conv_lhs => rw [(State.addVio_rest _ _ _).1]
    rfl
  · rw [State.addVio_queue _ _ hp]
    exact State.queue_setQueue hp hq rfl

/-! ### A master that waits for a page (09 R260) -/

/-- The supervisor has been told of a page, if it had not been. -/
structure Told (r u : State) (p : Nat) (told : Option Word) (hdr : Word) (slot : Nat) (va : Word) : Prop where
  rest : u = { r with parts := u.parts, elided := u.elided }
  part : p < 8 → u.part p = { r.part p with
    reports := (r.part p).reports ++ if told = some va then [] else [.fault hdr slot va] }

theorem State.tell_told (r : State) (p d : Nat) (told : Option Word) (hdr : Word) (slot : Nat) (va : Word) :
    Told r (r.tell p d told hdr slot va) p told hdr slot va := by
  unfold State.tell
  by_cases h : told = some va
  · rw [if_pos h]
    exact ⟨rfl, fun _ => by rw [if_pos h, List.append_nil]⟩
  · rw [if_neg h]
    refine ⟨rfl, fun hp => ?_⟩
    rw [if_neg h]
    exact State.part_setPart_self _ _ hp

/-- A queue that waits for a page. -/
structure Stalled (r u : State) (p : Nat) (q : Queue) (va : Word) : Prop where
  rest : u = { r with parts := u.parts, elided := u.elided }
  queue : ∀ q', r.queue p q.hdr = some q' → u.queue p q.hdr = some { q with stalled := true, told := some va }
  reports : (u.part p).reports = (r.part p).reports ++ if q.told = some va then [] else [.fault q.hdr (r.ridx q) va]

theorem State.stallQueue_stalled (r : State) {p : Nat} (hp : p < 8) (q : Queue) (va : Word) : Stalled r (r.stallQueue p q va) p q va := by
  unfold State.stallQueue
  have hpart := r.setQueue_part { q with stalled := true, told := some va } hp
  have htold := (r.setQueue p { q with stalled := true, told := some va }).tell_told p (r.walker p) q.told q.hdr (r.ridx q) va
  generalize (r.setQueue p { q with stalled := true, told := some va }).tell p (r.walker p) q.told q.hdr (r.ridx q) va = u at htold
  refine ⟨?_, fun q' hq => ?_, ?_⟩
  · rw [htold.rest]
    rfl
  · unfold State.queue
    rw [htold.part hp]
    exact State.queue_setQueue hp hq rfl
  · rw [htold.part hp, hpart]

/-! ### Sectors counted for elision (21 R386) -/

theorem Halts.of_elided {r u : State} {e : Vector Nat 8} {p : Nat} {q : Queue} {code : Nat}
    (h : Halts { r with elided := e } u p q code) : Halts r u p q code := ⟨h.rest, h.hbyte, h.reports⟩

end Sys2Proof.Machine

/-! A girth command performed: its elements' values, its stores, and XCLOSE (09 R262; 04 R114). -/
namespace Sys2Proof.Machine

/-! ### What the count of elided sectors leaves alone (21 R386) -/

section
variable (s : State) (e : Vector Nat 8)

theorem State.hwrite_elided (pa n v : Nat) : ({ s with elided := e } : State).hwrite pa n v = { s.hwrite pa n v with elided := e } := by
  induction n generalizing s pa v with
  | zero => rfl
  | succ n ih => exact ih (s.hput pa (BitVec.ofNat 8 v)) (pa + 1) (v / 256)

theorem State.put_fold_elided (ws : List (Nat × Nat × Nat)) :
    ws.foldl (fun s w => s.put none w.1 w.2.1 w.2.2) ({ s with elided := e } : State) =
      { ws.foldl (fun s w => s.put none w.1 w.2.1 w.2.2) s with elided := e } := by
  induction ws generalizing s with
  | nil => rfl
  | cons w ws ih =>
    rw [List.foldl_cons, List.foldl_cons, ← ih]
    exact congrArg (fun u => ws.foldl (fun s w => State.put s none w.1 w.2.1 w.2.2) u) (s.hwrite_elided e _ _ _)

theorem State.unmark_elided (secs : List Nat) : ({ s with elided := e } : State).unmark secs = { s.unmark secs with elided := e } := by
  unfold State.unmark
  induction secs generalizing s with
  | nil => rfl
  | cons c secs ih =>
    rw [List.foldl_cons, List.foldl_cons, ← ih]
    rfl

/-- A keel master's stores are the same whatever has been counted. -/
theorem State.puts_none_elided (ws : List (Nat × Nat × Nat)) :
    ∃ e', ({ s with elided := e } : State).puts none ws = { s.puts none ws with elided := e' } := by
  have hputs : ∀ u : State, u.puts none ws = ((ws.foldl (fun s w => s.put none w.1 w.2.1 w.2.2) u).elide
      (ws.map fun w => paSector w.1)).unmark (((ws.map fun w => paSector w.1).eraseDups).filter fun c =>
        (u.secPois (c * 32) || u.secUE (c * 32)) && coversSector (ws.map fun w => (w.1, w.2.1)) c) := fun u => rfl
  rw [hputs, hputs, State.put_fold_elided]
  generalize ws.foldl (fun s w => s.put none w.1 w.2.1 w.2.2) s = v
  have helide : ∃ e', ({ v with elided := e } : State).elide (ws.map fun w => paSector w.1) =
      { v.elide (ws.map fun w => paSector w.1) with elided := e' } := ⟨_, rfl⟩
  obtain ⟨e', he⟩ := helide
  rw [he]
  exact ⟨e', State.unmark_elided _ _ _⟩

theorem State.walkFrom_elided (base va level off : Nat) :
    ({ s with elided := e } : State).walkFrom base va level off = s.walkFrom base va level off := by
  have hread : ∀ a, ({ s with elided := e } : State).hread a 8 = s.hread a 8 := fun a => by
    rw [State.hread_eq_readBytes, State.hread_eq_readBytes]
    rfl
  induction level generalizing off with
  | zero =>
    unfold State.walkFrom
    simp only [hread]
    rfl
  | succ l ih =>
    unfold State.walkFrom
    simp only [hread, ih]
    rfl

theorem State.physOf_elided (p : Nat) (va : Word) : ({ s with elided := e } : State).physOf p va = s.physOf p va := by
  unfold State.physOf State.xlate State.walk
  simp only [State.walkFrom_elided]
  rfl

end

/-! ### An element's stores (09 R262) -/

section
variable (s : State) (p : Nat) (k : Vector Word 8) (i : Nat)

theorem State.elemPas_eq : s.elemPas p k i = (girthBases k).map fun b => s.elemPa p b i := by
  unfold State.elemPas
  rw [← girthRanges_bases, List.map_map]
  rfl

/-- What an element's stores are, by the command; those of XCLOSE apart. -/
theorem State.elemWrites_eq (hk : 0x10 ≤ pktKind k) (hk' : pktKind k < 0x15)
    (hclean : pktKind k < 0x14 → ∀ a ∈ s.elemPas p k i, s.secPois a = false) :
    s.elemWrites p k i = (s.girthStores p k i).map fun w => (w.1, 4, w.2) := by
  have hpois : (girthReads (pktKind k) && (s.elemPas p k i).any s.secPois) = false := by
    unfold girthReads
    by_cases h : pktKind k < 0x14
    · rw [Bool.and_eq_false_iff]
      exact .inr (List.any_eq_false.mpr fun a ha => by rw [hclean h a ha]; decide)
    · rw [decide_eq_false h]
      rfl
  have hpas := s.elemPas_eq p k i
  have hkind : pktField k 0 1 = pktKind k := rfl
  unfold State.elemWrites State.girthStores
  dsimp only
  rw [hpois, hpas]
  unfold girthBases
  rw [hkind]
  have hcmd : pktKind k = 0x10 ∨ pktKind k = 0x11 ∨ pktKind k = 0x12 ∨ pktKind k = 0x13 ∨ pktKind k = 0x14 := by omega
  rcases hcmd with h | h | h | h | h <;> rw [h] <;>
    simp [State.hread_eq_readBytes, girthElem, gadd, gsub, gmul, gdiv, gsqrt, gone]

end

/-- Addresses read whose sectors have no error: none is met (14 R362). -/
theorem State.meet_clean {s : State} {as : List Nat} (h : ∀ a ∈ as, s.secUE a = false) :
    as.foldl (fun (s : State) a => if s.secUE a then s.meetUE a else s) s = s := by
  induction as with
  | nil => rfl
  | cons a as ih =>
    obtain ⟨ha, has⟩ := List.forall_mem_cons.mp h
    rw [List.foldl_cons, if_neg (by rw [ha]; decide)]
    exact ih has

/-! ### A command performed (09 R262) -/

/-- No operand of a command has an error or a mark. -/
def State.GirthClean (s : State) (p : Nat) (k : Vector Word 8) : Prop :=
  pktKind k < 0x14 → ∀ j, j < pktField k 4 4 → ∀ a ∈ s.elemPas p k j, s.secUE a = false ∧ s.secPois a = false

/-- The stores of a command, element by element. -/
def State.girthAll (s : State) (p : Nat) (k : Vector Word 8) : List (Nat × Nat) :=
  (List.range (pktField k 4 4)).flatMap (s.girthStores p k)

/-- What a command's performance leaves: `e` is the latest lease of what it wrote. -/
structure GirthDone (s u : State) (p : Nat) (k : Vector Word 8) (e : Nat) : Prop where
  rest : u = { s with hbm := u.hbm, hpois := u.hpois, hue := u.hue, accums := u.accums, elided := u.elided }
  hbyte : u.hbyte = storeAll 4 (s.girthAll p k) s.hbyte
  time : s.time.toNat ≤ e
  leases : ∀ w ∈ s.girthAll p k, s.leaseOf w.1 ≤ e
  accums : pktKind k ≠ 0x15 → u.accums = s.accums
  closed : pktKind k = 0x15 → Sparse.wf none s.accums = true → ∀ x, u.accum x =
    if (List.range (pktField k 4 4)).any fun j => s.elemPa p (pktWord k 8) j == x then none else s.accum x

section
variable (s : State) (e : Vector Nat 8) (p : Nat) (k : Vector Word 8)

theorem State.elemPa_elided (b : Word) (i : Nat) : ({ s with elided := e } : State).elemPa p b i = s.elemPa p b i := by
  unfold State.elemPa
  rw [State.physOf_elided]

theorem State.elemPas_elided (i : Nat) : ({ s with elided := e } : State).elemPas p k i = s.elemPas p k i := by
  rw [State.elemPas_eq, State.elemPas_eq]
  simp only [State.elemPa_elided]

theorem State.girthStores_elided (i : Nat) : ({ s with elided := e } : State).girthStores p k i = s.girthStores p k i := by
  unfold State.girthStores
  simp only [State.elemPa_elided]
  rfl

theorem State.girthAll_elided : ({ s with elided := e } : State).girthAll p k = s.girthAll p k := by
  unfold State.girthAll
  rw [show ({ s with elided := e } : State).girthStores p k = s.girthStores p k from funext (s.girthStores_elided e p k)]

/-- Where no operand has an error, reading them meets none. -/
theorem State.elemsMeet_clean (h : s.GirthClean p k) : ∃ e', s.elemsMeet p k = { s with elided := e' } := by
  unfold State.elemsMeet
  by_cases hreads : pktKind k < 0x14
  · rw [if_pos (show girthReads (pktKind k) = true from decide_eq_true hreads)]
    dsimp only
    rw [State.meet_clean fun a ha => ?_]
    · exact ⟨_, rfl⟩
    · obtain ⟨j, hj, ha⟩ := List.mem_flatMap.mp ha
      exact (h hreads j (List.mem_range.mp hj) a ha).1
  · rw [if_neg (by unfold girthReads; rw [decide_eq_false hreads]; decide)]
    exact ⟨s.elided, rfl⟩

/-- The writes of all elements. -/
theorem State.elemWrites_all (hk : 0x10 ≤ pktKind k) (hk' : pktKind k < 0x15) (h : s.GirthClean p k) :
    (List.range (girthN k)).flatMap (s.elemWrites p k) = (s.girthAll p k).map fun w => (w.1, 4, w.2) := by
  unfold State.girthAll
  rw [List.map_flatMap]
  refine List.flatMap_congr fun j hj => ?_
  exact s.elemWrites_eq p k j hk hk' fun h14 a ha => (h h14 j (List.mem_range.mp hj) a ha).2

/-- XCLOSE's writes. -/
theorem State.closeWrites_eq (hk : pktKind k = 0x15) : s.closeWrites p k = (s.girthAll p k).map fun w => (w.1, 4, w.2) := by
  unfold State.closeWrites State.girthAll
  rw [List.map_flatMap, List.filterMap_eq_flatMap_toList]
  refine List.flatMap_congr fun j hj => ?_
  unfold State.girthStores
  dsimp only
  rw [hk]
  cases s.accum (s.elemPa p (pktWord k 8) j) <;> rfl

theorem foldl_storeWords (ws : List (Nat × Nat)) (m : Nat → Byte) :
    (ws.map fun w => (w.1, 4, w.2)).foldl (fun m w => storeBytes m w.1 w.2.1 w.2.2) m = storeAll 4 ws m := by
  unfold storeAll
  rw [List.foldl_map]

theorem State.gwct_stores : s.time.toNat ≤ s.gwct (((s.girthAll p k).map fun w => (w.1, 4, w.2)).map fun w => w.1) ∧
    ∀ w ∈ s.girthAll p k, s.leaseOf w.1 ≤ s.gwct (((s.girthAll p k).map fun w => (w.1, 4, w.2)).map fun w => w.1) := by
  obtain ⟨htime, hlease⟩ := s.gwct_ge (((s.girthAll p k).map fun w => (w.1, 4, w.2)).map fun w => w.1)
  refine ⟨htime, fun w hw => hlease _ ?_⟩
  rw [List.map_map]
  exact List.mem_map_of_mem (f := fun w : Nat × Nat => w.1) hw

/-- XCLOSE's stores are those of the open accumulators. -/
theorem State.mem_girthAll_close (hk : pktKind k = 0x15) (x : Nat) : x ∈ (s.girthAll p k).map (fun w => w.1) ↔
    ∃ j, j < pktField k 4 4 ∧ s.elemPa p (pktWord k 8) j = x ∧ s.accum x ≠ none := by
  have helem : ∀ j, x ∈ (s.girthStores p k j).map (fun w => w.1) ↔ s.elemPa p (pktWord k 8) j = x ∧ s.accum x ≠ none := by
    intro j
    unfold State.girthStores
    dsimp only
    rw [hk]
    cases h : s.accum (s.elemPa p (pktWord k 8) j) with
    | none =>
      refine ⟨fun hx => absurd hx List.not_mem_nil, ?_⟩
      rintro ⟨rfl, hne⟩
      exact absurd h hne
    | some a =>
      show x ∈ [s.elemPa p (pktWord k 8) j] ↔ _
      rw [List.mem_singleton]
      constructor
      · rintro rfl
        exact ⟨rfl, by rw [h]; nofun⟩
      · exact fun hx => hx.1.symm
  unfold State.girthAll
  rw [List.map_flatMap, List.mem_flatMap]
  refine exists_congr fun j => ?_
  rw [List.mem_range, helem]

theorem State.closed_accums (hk : pktKind k = 0x15) (hwf : Sparse.wf none s.accums = true) (x : Nat) :
    Sparse.get none (((s.girthAll p k).map fun w => (w.1, 4, w.2)).foldl (fun m (w : Nat × Nat × Nat) => Sparse.set none m w.1 none)
      s.accums) x = if (List.range (pktField k 4 4)).any fun j => s.elemPa p (pktWord k 8) j == x then none else s.accum x := by
  have hfold : ((s.girthAll p k).map fun w => (w.1, 4, w.2)).foldl (fun m (w : Nat × Nat × Nat) => Sparse.set none m w.1 none) s.accums =
      ((s.girthAll p k).map fun w => w.1).foldl (fun m x => Sparse.set none m x none) s.accums := by
    rw [List.foldl_map, List.foldl_map]
  rw [hfold, Sparse.get_sets none hwf]
  have hmem := s.mem_girthAll_close p k hk x
  by_cases hany : ((List.range (pktField k 4 4)).any fun j => s.elemPa p (pktWord k 8) j == x) = true
  · rw [if_pos hany, ite_eq_left_iff, hmem]
    intro hno
    obtain ⟨j, hj, hx⟩ := List.any_eq_true.mp hany
    by_contra hne
    exact hno ⟨j, List.mem_range.mp hj, beq_iff_eq.mp hx, hne⟩
  · rw [if_neg hany, if_neg]
    · rfl
    · rw [hmem]
      rintro ⟨j, hj, hx, -⟩
      exact hany (List.any_eq_true.mpr ⟨j, List.mem_range.mpr hj, beq_iff_eq.mpr hx⟩)

end

/-- A command performed, whatever had been counted before; no operand was poisoned. -/
theorem State.girthPerform_done {s : State} (hmem : MemOk s) (e : Vector Nat 8) (p : Nat) {k : Vector Word 8} (hk : 0x10 ≤ pktKind k)
    (hk' : pktKind k ≤ 0x15) (hclean : s.GirthClean p k) :
    let x := ({ s with elided := e } : State).girthPerform p k
    GirthDone s x.1 p k x.2.1 ∧ x.2.2 = false := by
  have hmeme : ∀ e', MemOk ({ s with elided := e' } : State) := fun e' => hmem
  have hcleane : ({ s with elided := e } : State).GirthClean p k := fun h j hj a ha => by
    rw [State.elemPas_elided] at ha
    exact hclean h j hj a ha
  unfold State.girthPerform
  by_cases h15 : pktKind k = 0x15
  · rw [if_pos h15]
    dsimp only
    rw [State.closeWrites_eq _ p k h15, State.girthAll_elided]
    generalize hacc : ((s.girthAll p k).map fun w => (w.1, 4, w.2)).foldl (fun m (w : Nat × Nat × Nat) => Sparse.set none m w.1 none)
      s.accums = accs
    have honly := ({ s with elided := e, accums := accs } : State).puts_none_only ((s.girthAll p k).map fun w => (w.1, 4, w.2))
    have hbyte := State.puts_none_hbyte (s := { s with elided := e, accums := accs }) hmem ((s.girthAll p k).map fun w => (w.1, 4, w.2))
    rw [foldl_storeWords] at hbyte
    generalize ({ s with elided := e, accums := accs } : State).puts none ((s.girthAll p k).map fun w => (w.1, 4, w.2)) = u at honly hbyte
    unfold StoresOnly at honly
    refine ⟨⟨?_, hbyte, (s.gwct_stores p k).1, (s.gwct_stores p k).2, fun h => absurd h15 h, fun _ hwf x => ?_⟩, rfl⟩
    · rw [honly]
    · have haccum : u.accum x = Sparse.get none accs x := by rw [honly]; rfl
      rw [haccum, ← hacc, s.closed_accums p k h15 hwf]
  · obtain ⟨e', he'⟩ := State.elemsMeet_clean _ p k hcleane
    have hcleane' : ({ s with elided := e' } : State).GirthClean p k := fun h j hj a ha => by
      rw [State.elemPas_elided] at ha
      exact hclean h j hj a ha
    rw [if_neg h15]
    dsimp only
    rw [he']
    change GirthDone s (({ s with elided := e' } : State).puts none _) p k (({ s with elided := e' } : State).gwct _) ∧ _ = false
    rw [State.elemWrites_all _ p k hk (by omega) hcleane', State.girthAll_elided]
    have honly := ({ s with elided := e' } : State).puts_none_only ((s.girthAll p k).map fun w => (w.1, 4, w.2))
    have hbyte := State.puts_none_hbyte (hmeme e') ((s.girthAll p k).map fun w => (w.1, 4, w.2))
    rw [foldl_storeWords] at hbyte
    generalize ({ s with elided := e' } : State).puts none ((s.girthAll p k).map fun w => (w.1, 4, w.2)) = u at honly hbyte
    unfold StoresOnly at honly
    refine ⟨⟨?_, hbyte, (s.gwct_stores p k).1, (s.gwct_stores p k).2, fun _ => ?_, fun h => absurd h h15⟩, ?_⟩
    · rw [honly]
    · rw [honly]
    · unfold girthReads
      rw [Bool.and_eq_false_iff]
      by_cases h14 : pktKind k < 0x14
      · refine .inr (List.any_eq_false.mpr fun j hj => ?_)
        rw [Bool.not_eq_true, List.any_eq_false]
        intro a ha
        rw [(hcleane' h14 j (List.mem_range.mp hj) a ha).2]
        decide
      · exact .inl (decide_eq_false h14)

end Sys2Proof.Machine

/-! The steps of a girth queue and of a task stream (09 R261, R263; 12 R314). -/
namespace Sys2Proof.Machine

/-! ### What a check's code can be (09 R263) -/

theorem worst_code {vs : List (Verdict Unit)} {c : Nat} (h : worst vs = .code c) : .code c ∈ vs := by
  induction vs with
  | nil => cases h
  | cons v vs ih =>
    unfold worst at h
    split at h
    · exact List.mem_cons_of_mem _ (ih h)
    · cases h
    · cases h
    · cases h
    · rw [h]
      exact List.mem_cons_self

theorem State.checkRange_code {s : State} {p d : Nat} {va : Word} {n : Nat} {k : AccKind} {fen : BitVec 8} {c : Nat}
    (h : s.checkRange p d va n k fen = .code c) : c = 0x0C := by
  unfold State.checkRange at h
  dsimp only at h
  split at h
  · cases h
  · split at h
    · cases h
    · split at h
      · cases h
        rfl
      · split at h <;> cases h

/-- The codes that only the pages of a girth packet tell. -/
theorem State.girthCheck_code {s : State} {p st : Nat} {ok : Bool} {k : Vector Word 8} {c : Nat}
    (hno : lowest (girthCodes k ok) = none) (h : s.girthCheck p st ok k = .code c) :
    c = 0x0C ∨ c = 0x08 ∧ ∃ x ∈ girthRanges k, ∃ b ∈ pagesOf x.1.toNat x.2.1,
      (s.physOf p (BitVec.ofNat 64 b)).map paStack ≠ some st := by
  unfold State.girthCheck at h
  rw [hno] at h
  dsimp only at h
  split at h
  · split at h
    · cases h
    · rename_i hall
      cases h
      refine .inr ⟨rfl, ?_⟩
      simpa only [List.all_eq_true, not_forall, exists_prop, beq_iff_eq] using hall
  · obtain ⟨r, -, hr⟩ := List.mem_map.mp (worst_code h)
    exact .inl (State.checkRange_code hr)

theorem State.girthCheck_fails {s : State} {p st : Nat} {ok : Bool} {k : Vector Word 8} {c : Nat} (h : Lowest (girthFails k ok) c) :
    s.girthCheck p st ok k = .code c := by
  unfold State.girthCheck
  rw [((lowest_iff (mem_girthCodes k ok)).1 c).mp h]

/-- A packet that passes has a command's kind. -/
theorem State.girthCheck_kind {s : State} {p st : Nat} {ok : Bool} {k : Vector Word 8} (h : s.girthCheck p st ok k = .ok ()) :
    0x10 ≤ pktKind k ∧ pktKind k ≤ 0x15 := by
  have hno : lowest (girthCodes k ok) = none := by
    cases hl : lowest (girthCodes k ok) with
    | none => rfl
    | some c =>
      unfold State.girthCheck at h
      rw [hl] at h
      cases h
  have hfail := ((lowest_iff (mem_girthCodes k ok)).2.mpr hno) 0x01
  have hkind : ¬(pktKind k < 0x10 ∨ 0x15 < pktKind k) := hfail
  omega

/-! ### The step of a girth queue (09 R261) -/

theorem exec_girth {p : Fin 8} {src : GirthSrc} {i : Instr} {cmd : Nat} (h : (i, cmd) ∈ [(Instr.axpy p src, 0x10), (.scale p src, 0x11),
    (.momentum p src, 0x12), (.adamw p src, 0x13), (.girthZero p src, 0x14), (.xclose p src, 0x15)]) (s : State) :
    exec i s = .next (s.girth p src cmd) := by
  simp only [List.mem_cons, Prod.mk.injEq, List.not_mem_nil, or_false] at h
  rcases h with ⟨rfl, rfl⟩ | ⟨rfl, rfl⟩ | ⟨rfl, rfl⟩ | ⟨rfl, rfl⟩ | ⟨rfl, rfl⟩ | ⟨rfl, rfl⟩ <;> rfl

section
variable {s m r : State} {p : Nat} {hdr : Word} {q : Queue} {k : Vector Word 8} {cmd : Nat}

theorem State.girthQueue_code (hq : s.queue p hdr = some q) (hsort : q.sort = 2) (hrun : q.run = none) {c : Nat}
    (ho : (s.metQueue q).offer { q with stalled := false } = .code c) : s.girthQueue p hdr 0x10 = (s.metQueue q).halt p q c := by
  unfold State.girthQueue
  rw [hrun] at ho
  rw [hq]
  dsimp only
  rw [if_neg (by rw [hsort]; decide), hrun]
  dsimp only
  rw [ho]
  rfl

theorem State.girthQueue_packet (hq : s.queue p hdr = some q) (hsort : q.sort = 2) (hrun : q.run = none)
    (ho : (s.metQueue q).offer { q with stalled := false } = .packet k) (hk : girthKind cmd (pktKind k) = true) :
    s.girthQueue p hdr cmd = (s.metQueue q).girthAccept p q k := by
  unfold State.girthQueue
  rw [hrun] at ho
  rw [hq]
  dsimp only
  rw [if_neg (by rw [hsort]; decide), hrun]
  dsimp only
  rw [ho]
  exact if_pos hk

theorem State.girthQueue_running (hq : s.queue p hdr = some q) (hsort : q.sort = 2) {x : GirthRun} (hrun : q.run = some x) :
    s.girthQueue p hdr cmd = if x.waitE + 4 ≤ s.time.toNat && !s.hdrHeld q then
      ((s.setQueue p { q with run := none }).takeDone p x.done).stepDone q else s := by
  unfold State.girthQueue
  rw [hq]
  dsimp only
  rw [if_neg (by rw [hsort]; decide), hrun]

theorem girthKind_iff {kind : Nat} : girthKind cmd kind = true ↔ kind = cmd ∨ cmd = 0x10 ∧ (kind < 0x10 ∨ 0x15 < kind) := by
  unfold girthKind
  rw [Bool.or_eq_true, Bool.and_eq_true, Bool.or_eq_true, decide_eq_true_iff, decide_eq_true_iff, beq_iff_eq, beq_iff_eq, eq_comm]

/-- The machine that has met the errors of a girth packet's pages, where it fails no code. -/
def State.girthMet (m : State) (p : Nat) (ok : Bool) (k : Vector Word 8) : State :=
  if (girthCodes k ok).isEmpty then m.metGirth p k else m

theorem State.metGirth_met (s : State) (p : Nat) (k : Vector Word 8) : Met s (s.metGirth p k) := s.metWalks_met p _

theorem State.girthMet_met (m : State) (p : Nat) (ok : Bool) (k : Vector Word 8) : Met m (m.girthMet p ok k) := by
  unfold State.girthMet
  split
  · exact m.metGirth_met p k
  · exact Met.refl m

theorem Met.stackOk (h : Met s r) (p : Nat) (q : Queue) : r.stackOk p q = s.stackOk p q := by
  unfold State.stackOk
  rw [h.parts]

/-- What the verdict of a girth packet's checks makes of its queue. -/
def State.girthJudged (r : State) (p : Nat) (q : Queue) (k : Vector Word 8) : Verdict Unit → State
  | .code c => (r.elideSlot q).halt p q c
  | .vio c cs a => (r.elideSlot q).freezeQueue p q (r.ridx q) c cs a
  | .fault a => r.stallQueue p q a
  | .wait => r
  | .ok () =>
    if r.fenced.getLsbD (stackDie q.stack) then r.halt p q 0x0C
    else if (r.stack q.stack).hBusy then r
    else
      let x := ((r.elideSlot q).stepRidx q).girthPerform p k
      (if x.2.2 then x.1.markPois q else x.1).setQueue p
        { q.unstall with run := some { done := BitVec.ofNat 32 (pktField k 0x20 4), waitE := x.2.1 } }

/-- The acceptance of a girth packet, by the verdict of its checks. -/
theorem State.girthAccept_eq {ok : Bool} (hok : m.stackOk p q = ok) (hr : m.girthMet p ok k = r) :
    m.girthAccept p q k = r.girthJudged p q k (r.girthCheck p q.stack ok k) := by
  have hmet : r.stackOk p q = ok := hr ▸ ((m.girthMet_met p ok k).stackOk p q).trans hok
  unfold State.girthMet at hr
  unfold State.girthAccept
  simp only [hok, hr, hmet]
  generalize r.girthCheck p q.stack ok k = v
  cases v <;> rfl

/-- RIDX one further, and the command performed. -/
theorem State.girthAccept_performs (hmem : MemOk r) (hk : 0x10 ≤ pktKind k) (hk' : pktKind k ≤ 0x15)
    (hclean : (r.stepRidx q).GirthClean p k) :
    GirthDone (r.stepRidx q) (((r.elideSlot q).stepRidx q).girthPerform p k).1 p k (((r.elideSlot q).stepRidx q).girthPerform p k).2.1 ∧
      (((r.elideSlot q).stepRidx q).girthPerform p k).2.2 = false := by
  have hridx : (r.elideSlot q).ridx q = r.ridx q := by
    rw [State.ridx_eq, State.ridx_eq]
    rfl
  obtain ⟨e, he⟩ : ∃ e, (r.elideSlot q).stepRidx q = { r.stepRidx q with elided := e } := by
    unfold State.stepRidx
    rw [hridx]
    exact r.puts_none_elided _ _
  rw [he]
  exact State.girthPerform_done (memOk_puts _ _ _ hmem) e p hk hk' hclean

/-- A girth queue whose command has run: DONE one further. -/
theorem State.girthQueue_done (hp : p < 8) (hmem : MemOk s) (hq : s.queue p hdr = some q) (hsort : q.sort = 2) {x : GirthRun}
    (hrun : q.run = some x) (htime : x.waitE + 4 ≤ s.time.toNat) (hheld : s.hdrHeld q = false) (hnone : x.done.getLsbD 31 = false)
    (hroom : s.doneIdx q + 1 < 2 ^ 64) :
    let u := s.girthQueue p hdr cmd
    u.queue p hdr = some { q with run := none } ∧ u.doneIdx q = s.doneIdx q + 1 ∧
      u = { s with hbm := u.hbm, hpois := u.hpois, hue := u.hue, parts := u.parts, elided := u.elided } := by
  have hwait : (decide (x.waitE + 4 ≤ s.time.toNat) && !s.hdrHeld q) = true := by
    rw [decide_eq_true htime, hheld]
    rfl
  have htake : (s.setQueue p { q with run := none }).takeDone p x.done = s.setQueue p { q with run := none } := by
    unfold State.takeDone
    rw [hnone]
    rfl
  have hidx : (s.setQueue p { q with run := none }).doneIdx q = s.doneIdx q := by
    rw [State.doneIdx_eq, State.doneIdx_eq]
    rfl
  rw [State.girthQueue_running hq hsort hrun, if_pos hwait, htake]
  unfold State.stepDone
  rw [hidx]
  have honly := (s.setQueue p { q with run := none }).hdrPut_only q 0x28 8 (s.doneIdx q + 1)
  have hbyte := State.hdrPut_hbyte (s := s.setQueue p { q with run := none }) hmem q 0x28 8 (s.doneIdx q + 1)
  generalize (s.setQueue p { q with run := none }).hdrPut q 0x28 8 (s.doneIdx q + 1) = u at honly hbyte
  refine ⟨?_, ?_, ?_⟩
  · rw [honly.queue]
    exact State.queue_setQueue hp hq (State.queue_hdr (q := q) hq)
  · rw [State.doneIdx_eq, hbyte, readBytes_storeBytes]
    exact Nat.mod_eq_of_lt (by omega)
  · unfold StoresOnly at honly
    rw [honly]
    rfl

end

/-! ### The step of a task stream (12 R314) -/

section
variable {s r : State} {p st cmd : Nat} {t : TaskRun} {rest : List TaskRun}

theorem State.girthTask_running (ht : (s.part p).tasks = t :: rest) (hst : t.stack = st) {x : GirthRun} (hrun : t.run = some x) :
    s.girthTask p st cmd =
      if x.waitE + 4 ≤ s.time.toNat then (s.setPart p { s.part p with tasks := rest }).takeDone p x.done else s := by
  have hfind : (t :: rest).find? (fun t => t.stack == st) = some t := List.find?_cons_of_pos (beq_iff_eq.mpr hst)
  have hidx : (t :: rest).findIdx (fun t => t.stack == st) = 0 := by rw [List.findIdx_cons, beq_iff_eq.mpr hst]; rfl
  unfold State.girthTask
  dsimp only
  rw [ht, hfind, hidx]
  dsimp only
  rw [hrun]
  rfl

/-- A task whose command has been performed, the latest lease of what it wrote being `e`. -/
def TaskRun.started (t : TaskRun) (e : Nat) : TaskRun :=
  { t with run := some { done := BitVec.ofNat 32 (pktField t.pkt 0x20 4), waitE := e } }

/-- What the verdict of a task's checks makes of it. -/
def State.taskJudged (r : State) (p : Nat) (t : TaskRun) (rest : List TaskRun) : Verdict Unit → State
  | .ok () => (r.girthPerform p t.pkt).1.setPart p
    { (r.girthPerform p t.pkt).1.part p with tasks := t.started (r.girthPerform p t.pkt).2.1 :: rest }
  | .code c => (r.setPart p { r.part p with tasks := rest }).refuse p t.counter c
  | .vio c cs a =>
    ((r.setPart p { r.part p with tasks := rest }).setCounter p t.counter
      { r.counter p t.counter with pend := t.task :: (r.counter p t.counter).pend, atTask := true }).freezeCounter p t.counter c cs a
  | .fault a => (r.setPart p { r.part p with tasks := { t with told := some a } :: rest }).tell p (r.walker p) t.told 0 t.counter a
  | .wait => r

/-- A task's packet, by the verdict of its checks. -/
theorem State.girthTask_eq (ht : (s.part p).tasks = t :: rest) (hst : t.stack = st) (hrun : t.run = none) (hkind : pktKind t.pkt = cmd)
    (hbusy : (s.stack st).hBusy = false) (hr : s.metGirth p t.pkt = r) :
    s.girthTask p st cmd = r.taskJudged p t rest (r.girthCheck p st true t.pkt) := by
  have hfind : (t :: rest).find? (fun t => t.stack == st) = some t := List.find?_cons_of_pos (beq_iff_eq.mpr hst)
  have hidx : (t :: rest).findIdx (fun t => t.stack == st) = 0 := by rw [List.findIdx_cons, beq_iff_eq.mpr hst]; rfl
  have hgo : ¬(pktKind t.pkt ≠ cmd ∨ (s.stack st).hBusy = true) := by
    simp [hbusy, hkind]
  unfold State.girthTask State.taskJudged
  dsimp only
  rw [ht, hfind, hidx]
  dsimp only
  rw [hrun]
  dsimp only
  rw [if_neg hgo, hr]
  generalize r.girthCheck p st true t.pkt = v
  cases v <;> rfl

theorem Met.counter (h : Met s r) (n : Nat) : r.counter p n = s.counter p n := by
  unfold State.counter
  rw [h.parts]

/-- A counter other than the initial one is there once it is set. -/
theorem State.counter_setCounter_self (hp : p < 8) (n : Nat) {c : Counter} (hc : c ≠ {}) : (s.setCounter p n c).counter p n = c := by
  unfold State.counter State.setCounter
  rw [State.part_setPart_self _ _ hp]
  exact Sparse.get_set_self _ _ _ hc

theorem State.setCounter_part (hp : p < 8) (n : Nat) (c : Counter) :
    (s.setCounter p n c).part p = { s.part p with counters := ((s.setCounter p n c).part p).counters } := by
  unfold State.setCounter
  rw [State.part_setPart_self _ _ hp]

theorem State.addVio_counter (v : VioRec) (hp : p < 8) (n : Nat) : (r.addVio p v).counter p n = r.counter p n := by
  unfold State.counter
  rw [(r.addVio_rest p v).2 hp]

/-- A task refused. -/
theorem State.refuse_task (hp : p < 8) (tasks : List TaskRun) (n cause : Nat) :
    let u := (r.setPart p { r.part p with tasks := tasks }).refuse p n cause
    u = { r with parts := u.parts } ∧ (u.part p).tasks = tasks ∧ u.counter p n = { r.counter p n with err := true } ∧
      (u.part p).reports = (r.part p).reports ++ [.counter n cause] := by
  have hcounter : (r.setPart p { r.part p with tasks := tasks }).counter p n = r.counter p n := by
    unfold State.counter
    rw [State.part_setPart_self _ _ hp]
  have hset := State.counter_setCounter_self (s := r.setPart p { r.part p with tasks := tasks }) hp n
    (c := { r.counter p n with err := true }) fun h => Bool.noConfusion (congrArg Counter.err h)
  have hpart := State.setCounter_part (s := r.setPart p { r.part p with tasks := tasks }) hp n { r.counter p n with err := true }
  unfold State.refuse State.report
  rw [hcounter]
  refine ⟨rfl, ?_, ?_, ?_⟩
  · rw [State.part_setPart_self _ _ hp, hpart, State.part_setPart_self _ _ hp]
  · unfold State.counter
    rw [State.part_setPart_self _ _ hp]
    exact hset
  · rw [State.part_setPart_self _ _ hp, hpart, State.part_setPart_self _ _ hp]

/-- A task's violation: its counter freezes with it the next to be read. -/
theorem State.freeze_task (hp : p < 8) (tasks : List TaskRun) (n : Nat) (task : Word) (code : Nat) (codes : BitVec 16) (addr : Word) :
    let u := ((r.setPart p { r.part p with tasks := tasks }).setCounter p n
      { r.counter p n with pend := task :: (r.counter p n).pend, atTask := true }).freezeCounter p n code codes addr
    u = { r with parts := u.parts } ∧ (u.part p).tasks = tasks ∧
      u.counter p n = { r.counter p n with pend := task :: (r.counter p n).pend, frozen := true, atTask := true } ∧
      ((r.part p).vring.length < 64 → ∃ v : VioRec, (u.part p).vring = (r.part p).vring ++ [v] ∧ v.code = code ∧ v.codes = codes ∧
        v.addr = addr ∧ v.mkind = 4) := by
  have h1 := State.counter_setCounter_self (s := r.setPart p { r.part p with tasks := tasks }) hp n
    (c := { r.counter p n with pend := task :: (r.counter p n).pend, atTask := true }) fun h => Bool.noConfusion (congrArg Counter.atTask h)
  have hpart1 := State.setCounter_part (s := r.setPart p { r.part p with tasks := tasks }) hp n
    { r.counter p n with pend := task :: (r.counter p n).pend, atTask := true }
  have hrest1 : (r.setPart p { r.part p with tasks := tasks }).setCounter p n
      { r.counter p n with pend := task :: (r.counter p n).pend, atTask := true } = { r with
        parts := ((r.setPart p { r.part p with tasks := tasks }).setCounter p n
          { r.counter p n with pend := task :: (r.counter p n).pend, atTask := true }).parts } := rfl
  rw [State.part_setPart_self _ _ hp] at hpart1
  generalize (r.setPart p { r.part p with tasks := tasks }).setCounter p n
    { r.counter p n with pend := task :: (r.counter p n).pend, atTask := true } = w at h1 hpart1 hrest1
  have h2 := State.counter_setCounter_self (s := w) hp n (c := { w.counter p n with frozen := true })
    fun h => Bool.noConfusion (congrArg Counter.frozen h)
  have hpart2 := State.setCounter_part (s := w) hp n { w.counter p n with frozen := true }
  rw [hpart1] at hpart2
  unfold State.freezeCounter
  dsimp only
  have hvio := (w.setCounter p n { w.counter p n with frozen := true }).addVio_rest p
    { code := code, mkind := 4, codes := codes, mid := BitVec.ofNat 32 n, owner := 0, pc := 0, addr := addr
      lanes := 0, time := w.time, slot := 0, lvl := false }
  refine ⟨?_, ?_, ?_, fun hroom => ⟨_, (State.addVio_vring _ _ hp (by rw [hpart2]; exact hroom)).trans (by rw [hpart2]), rfl, rfl, rfl, rfl⟩⟩
  · conv_lhs => rw [hvio.1]
    rw [hrest1]
    rfl
  · rw [hvio.2 hp, hpart2]
  · rw [State.addVio_counter _ hp, h2, h1]

end

end Sys2Proof.Machine

/-! O44: girth commands performed, halted and done (09 R261 to R263). -/
namespace Sys2Proof.Machine

section
variable {r : State} {p : Nat} {q : Queue} {k : Vector Word 8}

/-- Every code of a packet's own is a byte. -/
theorem girthFails_lt {ok : Bool} {c : Nat} (h : girthFails k ok c) : c < 2 ^ 24 := by
  unfold girthFails at h
  dsimp only at h
  split at h
  · decide
  · decide
  · decide
  · decide
  · decide
  · decide
  · exact h.elim

/-- A girth queue's engine is a stack of the partition's dies (01 R26; 09 R254). -/
theorem State.stackOk_eq (s : State) (p : Nat) (q : Queue) :
    s.stackOk p q = (decide (q.engine.toNat < 24) && (s.part p).dies.getLsbD (q.engine.toNat / 3)) := by
  have hstack : q.stack = q.engine.toNat % 32 := by
    unfold Queue.stack
    simp
  have hhigh : (q.engine.extractLsb' 5 3 == 0) = decide (q.engine.toNat < 32) := by
    have hlt := q.engine.isLt
    rw [Bool.eq_iff_iff, beq_iff_eq, decide_eq_true_iff, ← BitVec.toNat_inj, BitVec.extractLsb'_toNat, Nat.shiftRight_eq_div_pow]
    change q.engine.toNat / 2 ^ 5 % 2 ^ 3 = 0 ↔ _
    omega
  unfold State.stackOk stackDie
  rw [hstack, hhigh]
  by_cases h : q.engine.toNat < 32
  · rw [decide_eq_true h, Bool.true_and, Nat.mod_eq_of_lt h]
  · rw [decide_eq_false h, decide_eq_false (by omega : ¬q.engine.toNat < 24)]
    rfl

theorem State.offer_code {s : State} {c : Nat} (h : s.offer q = .code c) : c < 2 ^ 24 := by
  unfold State.offer at h
  split at h
  · cases h
  · split at h
    · cases h
    · split at h
      · cases h
      · split at h
        · cases h
          decide
        · split at h
          · cases h
          · split at h
            · cases h
              decide
            · cases h

/-- A queue whose packet has been performed, the latest lease of what it wrote being `e`. -/
def Queue.running (q : Queue) (k : Vector Word 8) (e : Nat) : Queue :=
  { q.unstall with run := some { done := BitVec.ofNat 32 (pktField k 0x20 4), waitE := e } }

/-- What a halt shows of its queue. -/
theorem Halts.shows {u : State} {c : Nat} (h : Halts r u p q c) (hp : p < 8) (hc : c < 2 ^ 24) {hdr : Word} (hdr_eq : q.hdr = hdr) :
    u.status q = r.status q / 2 % 2 * 2 + 1 + c * 256 ∧ u.ridx q = r.ridx q ∧
      (u.part p).reports = (r.part p).reports ++ [.halt hdr (r.ridx q) c] :=
  ⟨h.status hc, h.ridx, hdr_eq ▸ h.reports hp⟩

theorem Froze.rest_elided {u : State} {e : Vector Nat 8} {slot code : Nat} {codes : BitVec 16} {addr : Word}
    (h : Froze { r with elided := e } u p q slot code codes addr) : u = { r with parts := u.parts, elided := u.elided } := by
  have hrest := h.rest
  rw [hrest]

theorem State.elideSlot_halts (hmem : MemOk r) (p : Nat) (q : Queue) (c : Nat) : Halts r ((r.elideSlot q).halt p q c) p q c :=
  Halts.of_elided (State.halt_halts (r := r.elideSlot q) hmem p q c)

/-- The command performed and a partition changed. -/
theorem GirthDone.setPart {v : State} {e : Nat} (h : GirthDone r v p k e) (u : Part) : v.setPart p u = { r with
    hbm := (v.setPart p u).hbm, hpois := (v.setPart p u).hpois, hue := (v.setPart p u).hue, parts := (v.setPart p u).parts
    accums := (v.setPart p u).accums, elided := (v.setPart p u).elided } := by
  rw [h.rest]
  rfl

/-- The command performed and the queue that runs it. -/
theorem GirthDone.setQueue {v : State} {e : Nat} (h : GirthDone (r.stepRidx q) v p k e) (hp : p < 8) {hdr : Word}
    (hq : r.queue p hdr = some q) {q' : Queue} (hq' : q'.hdr = hdr) :
    (v.setQueue p q').queue p hdr = some q' ∧ v.setQueue p q' = { r with
      hbm := (v.setQueue p q').hbm, hpois := (v.setQueue p q').hpois, hue := (v.setQueue p q').hue
      parts := (v.setQueue p q').parts, accums := (v.setQueue p q').accums, elided := (v.setQueue p q').elided } := by
  have honly := r.hdrPut_only q 0x20 8 (r.ridx q + 1)
  have hrest := h.rest
  have hqueue : v.queue p hdr = some q := by
    rw [← hq, ← honly.queue p hdr, hrest]
    rfl
  refine ⟨State.queue_setQueue hp hqueue hq', ?_⟩
  unfold StoresOnly at honly
  unfold State.stepRidx at hrest
  rw [hrest, honly]
  rfl

end

/-- Settles O44: each step of a girth queue and of a task stream, by the verdict of the packet's checks. -/
theorem girthCommands : Obligations.GirthCommands := by
  unfold Obligations.GirthCommands
  intro s p src i cmd hmem hi clean performed violates
  have hexec := exec_girth hi s
  have hcmd : 0x10 ≤ cmd ∧ cmd ≤ 0x15 := by
    simp only [List.mem_cons, Prod.mk.injEq, List.not_mem_nil, or_false] at hi
    omega
  have hp : (p : Nat) < 8 := p.isLt
  have hperformed : ∀ s1 v u k e, pktKind k = cmd → GirthDone s1 v p k e → u.hbyte = v.hbyte → u.accums = v.accums →
      performed s1 u k e := fun s1 v u k e hk h hbyte hacc =>
    ⟨hbyte.trans h.hbyte, h.time, fun j hj w hw => h.leases w (List.mem_flatMap.mpr ⟨j, List.mem_range.mpr hj, hw⟩),
      fun hne => hacc.trans (h.accums (hk ▸ hne)), fun heq hwf x => by
        unfold State.accum
        rw [hacc]
        exact h.closed (hk ▸ heq) hwf x⟩
  refine ⟨fun hdr q hsrc hq hsort => ?_, fun st t rest hsrc ht hst => ?_⟩
  · subst hsrc
    have hhdr : q.hdr = hdr := State.queue_hdr hq
    intro m halts ok
    have hmet : Met s m := s.metQueue_met q
    have hmemm : MemOk m := memOk_metQueue _ _ hmem
    have hhalts : ∀ (r u : State) c, exec i s = .next u → Halts r u p q c → c < 2 ^ 24 → halts r c := fun r u c he h hc =>
      ⟨u, he, h.shows hp hc hhdr⟩
    refine ⟨fun hrun hax c ho => ?_, fun k hrun ho hkind => ?_, fun x hrun => ⟨fun hwait => ?_, fun htime hheld hnone hroom => ?_⟩⟩
    · subst hax
      exact hhalts m _ c (hexec.trans (congrArg _ (State.girthQueue_code hq hsort hrun ho))) (State.halt_halts hmemm p q c)
        (State.offer_code ho)
    · have hgo : exec i s = .next (m.girthAccept p q k) :=
        hexec.trans (congrArg _ (State.girthQueue_packet hq hsort hrun ho (girthKind_iff.mpr hkind)))
      intro r verdict
      have hr : m.girthMet p (s.stackOk p q) k = r := rfl
      have hmetr : Met m r := m.girthMet_met p _ k
      have hmemr : MemOk r := by
        rw [← hr]
        unfold State.girthMet
        split
        · exact memOk_metGirth _ _ _ hmemm
        · exact hmemm
      have hqr : r.queue p hdr = some q := (hmetr.queue p hdr).trans ((hmet.queue p hdr).trans hq)
      rw [State.girthAccept_eq (hmet.stackOk p q) hr] at hgo
      have hok : s.stackOk p q = ok := s.stackOk_eq p q
      clear_value r
      refine ⟨fun hue => ?_, fun c hlow => ?_, fun hno c hc hlt => ?_, fun hv hf => ?_, fun a hv => ?_, fun c cs a hv => ?_, fun hv => ?_,
        fun hv hf hb => ?_⟩
      · have hm := hmet.clean hue
        rw [hmetr.clean (by rw [hm]; exact hue), hm]
      · have hlow : Lowest (girthFails k (s.stackOk p q)) c := hok ▸ hlow
        rw [State.girthCheck_fails hlow] at hgo
        exact hhalts r _ c hgo (State.elideSlot_halts hmemr p q c) (girthFails_lt hlow.1)
      · have hno : ∀ c, ¬girthFails k (s.stackOk p q) c := hok ▸ hno
        rw [show r.girthCheck p q.stack (s.stackOk p q) k = .code c from hc] at hgo
        exact ⟨hhalts r _ c hgo (State.elideSlot_halts hmemr p q c) (by omega),
          State.girthCheck_code ((lowest_iff (mem_girthCodes k _)).2.mp hno) hc⟩
      · rw [show r.girthCheck p q.stack (s.stackOk p q) k = .ok () from hv] at hgo
        unfold State.girthJudged at hgo
        dsimp only at hgo
        rw [if_pos hf] at hgo
        exact hhalts r _ _ hgo (State.halt_halts hmemr p q 0x0C) (by decide)
      · rw [show r.girthCheck p q.stack (s.stackOk p q) k = .fault a from hv] at hgo
        have h := r.stallQueue_stalled hp q a
        exact ⟨_, hgo, h.rest, hhdr ▸ h.queue q (hhdr.symm ▸ hqr), hhdr ▸ h.reports⟩
      · rw [show r.girthCheck p q.stack (s.stackOk p q) k = .vio c cs a from hv] at hgo
        have h := (r.elideSlot q).freezeQueue_froze hp q (r.ridx q) c cs a
        refine ⟨_, hgo, ?_, hhdr ▸ h.queue q (hhdr.symm ▸ hqr), fun hroom => ?_⟩
        · exact h.rest_elided
        · obtain ⟨v, hring, hcode, hcodes, haddr, hmk, -, -⟩ := h.vring hroom
          exact ⟨v, hring, hcode, hcodes, haddr, hmk.trans (by rw [hsort]; decide)⟩
      · rw [show r.girthCheck p q.stack (s.stackOk p q) k = .wait from hv] at hgo
        exact hgo
      · intro s1 hclean
        rw [show r.girthCheck p q.stack (s.stackOk p q) k = .ok () from hv] at hgo
        unfold State.girthJudged at hgo
        dsimp only at hgo
        rw [if_neg (by rw [hf]; decide), if_neg (by rw [hb]; decide)] at hgo
        obtain ⟨hk, hk'⟩ := State.girthCheck_kind (show r.girthCheck p q.stack (s.stackOk p q) k = .ok () from hv)
        have hcmdk : pktKind k = cmd := by omega
        obtain ⟨hdone, hbad⟩ := State.girthAccept_performs hmemr hk hk' fun h14 => hclean (hcmdk ▸ h14)
        rw [if_neg (by rw [hbad]; decide)] at hgo
        obtain ⟨hqueue, hrest⟩ := hdone.setQueue hp hqr (q' := q.running k (((r.elideSlot q).stepRidx q).girthPerform p k).2.1) hhdr
        exact ⟨_, _, hgo, hperformed _ _ _ k _ hcmdk hdone rfl rfl, hqueue, hrest⟩
    · have hgo := hexec.trans (congrArg _ (State.girthQueue_running (cmd := cmd) hq hsort hrun))
      rw [hgo, if_neg]
      simp only [Bool.and_eq_true, decide_eq_true_eq, Bool.not_eq_true', not_and, Bool.not_eq_false]
      exact fun h => hwait.resolve_left (by omega)
    · obtain ⟨hqueue, hidx, hrest⟩ := State.girthQueue_done (cmd := cmd) hp hmem hq hsort hrun htime hheld hnone hroom
      exact ⟨_, hexec, hqueue, hidx, hrest⟩
  · subst hsrc
    refine ⟨fun hrun hkind hbusy => ?_, fun x hrun => ⟨fun hwait => ?_, fun htime hnone => ?_⟩⟩
    · intro r verdict
      have hmet : Met s r := s.metGirth_met p t.pkt
      have hmemr : MemOk r := memOk_metGirth _ _ _ hmem
      have hgo : exec i s = .next (s.girthTask p st cmd) := hexec
      have hr : s.metGirth p t.pkt = r := rfl
      rw [State.girthTask_eq ht hst hrun hkind hbusy hr] at hgo
      have hcounter := hmet.counter (p := p) t.counter
      have hverdict : verdict = r.girthCheck p st true t.pkt := rfl
      clear_value r verdict
      subst hverdict
      refine ⟨hmet.clean, fun c hlow => State.girthCheck_fails hlow, fun hv hclean => ?_, fun c hv => ?_, fun a hv => ?_, fun c cs a hv => ?_,
        fun hv => ?_⟩
      · rw [hv] at hgo
        unfold State.taskJudged at hgo
        obtain ⟨hdone, -⟩ := State.girthPerform_done hmemr r.elided p (k := t.pkt) (by omega) (by omega) fun h14 => hclean (hkind ▸ h14)
        refine ⟨_, _, hgo, hperformed _ _ _ t.pkt _ hkind hdone rfl rfl, ?_, ?_⟩
        · rw [State.part_setPart_self _ _ hp]
          rfl
        · exact hdone.setPart _
      · rw [hv] at hgo
        obtain ⟨hrest, htasks, hcount, hreports⟩ := r.refuse_task hp rest t.counter c
        exact ⟨_, hgo, hrest, htasks, hcounter ▸ hcount, hreports⟩
      · rw [hv] at hgo
        unfold State.taskJudged at hgo
        have h := (r.setPart p { r.part p with tasks := { t with told := some a } :: rest }).tell_told p (r.walker p) t.told 0 t.counter a
        have hpart := h.part hp
        rw [State.part_setPart_self _ _ hp] at hpart
        refine ⟨_, hgo, ?_, ?_, ?_⟩
        · dsimp only
          conv_lhs => rw [h.rest]
          rfl
        · dsimp only
          rw [hpart]
        · dsimp only
          rw [hpart]
      · rw [hv] at hgo
        obtain ⟨hrest, htasks, hcount, hring⟩ := r.freeze_task hp rest t.counter t.task c cs a
        exact ⟨_, hgo, hrest, htasks, hcounter ▸ hcount, hring⟩
      · rw [hv] at hgo
        exact hgo
    · have hgo := hexec.trans (congrArg _ (State.girthTask_running (cmd := cmd) ht hst hrun))
      rw [hgo, if_neg (by omega)]
    · have hgo := hexec.trans (congrArg _ (State.girthTask_running (cmd := cmd) ht hst hrun))
      rw [hgo, if_pos htime]
      unfold State.takeDone
      rw [hnone]
      rfl

end Sys2Proof.Machine

/-! The codes that a copy packet fails, and the step of a copy queue (09 R257, R259, R260, R263). -/
namespace Sys2Proof.Machine

/-! ### The table of accepted packets (09 R258) -/

theorem State.packet_setPacket_self (s : State) (n : Nat) {k : Packet} : (s.setPacket n (some k)).packet n = some k :=
  Sparse.get_set_self none _ _ nofun

theorem State.packet_setPacket_ne (s : State) {m n : Nat} (k : Option Packet) (h : m ≠ n) : (s.setPacket n k).packet m = s.packet m :=
  Sparse.get_set_ne none _ _ h

/-! ### The codes of a copy packet (09 R263) -/

section
variable (s : State) (p : Nat) (q : Queue) (k : Vector Word 8)

theorem pktSsp_iff : pktSsp k = (pktField k 1 1).testBit 0 := by
  unfold pktSsp
  rw [Nat.testBit_zero, beq_eq_decide]

theorem pktDsp_iff : pktDsp k = (pktField k 1 1).testBit 1 := by
  unfold pktDsp
  rw [Nat.testBit_eq_decide_div_mod_eq, beq_eq_decide, pow_one]

theorem targetKind_iff (t : Word) {n : Nat} (hn : n < 4) : targetKind t = n ↔ t.extractLsb' 62 2 = BitVec.ofNat 2 n := by
  unfold targetKind
  rw [← BitVec.toNat_inj, BitVec.toNat_ofNat, Nat.mod_eq_of_lt (by omega)]

theorem targetBad_iff (t : Word) : targetBad t = true ↔ t.extractLsb' 62 2 = 0 ∧ t ≠ 0 ∨
    t.extractLsb' 62 2 = 1 ∧ t.extractLsb' 32 30 ≠ 0 ∨ t.extractLsb' 62 2 = 2 ∧ t.extractLsb' 12 50 ≠ 0 ∨ t.extractLsb' 62 2 = 3 := by
  have hlt : targetKind t < 4 := (t.extractLsb' 62 2).isLt
  rw [show (0 : BitVec 2) = BitVec.ofNat 2 0 from rfl, show (1 : BitVec 2) = BitVec.ofNat 2 1 from rfl,
    show (2 : BitVec 2) = BitVec.ofNat 2 2 from rfl, show (3 : BitVec 2) = BitVec.ofNat 2 3 from rfl,
    ← targetKind_iff t (by decide), ← targetKind_iff t (by decide), ← targetKind_iff t (by decide), ← targetKind_iff t (by decide)]
  unfold targetBad
  have hcases : targetKind t = 0 ∨ targetKind t = 1 ∨ targetKind t = 2 ∨ targetKind t = 3 := by omega
  rcases hcases with h | h | h | h <;> rw [h] <;> simp

theorem copyFails_kind : (pktKind k == 0 || decide (4 < pktKind k)) = true ↔ s.copyFails p q k 0x01 := by
  rw [Bool.or_eq_true, beq_iff_eq, decide_eq_true_iff]
  rfl

theorem any_targets (f : Word → Bool) : (pktTargets k).any f = true ↔ ∃ t ∈ [pktWord k 0x28, pktWord k 0x30], f t = true :=
  List.any_eq_true

theorem copyFails_reserved : (decide (4 ≤ pktField k 1 1) || (pktKind k == kFILL && pktSsp k) || (pktKind k == kFEED && pktDsp k) ||
      decide (8 ≤ pktField k 2 1) || pktField k 3 1 != 0 || pktField k 0x24 4 != 0 ||
      (pktKind k != kGATHER && pktWord k 0x38 != 0) || (pktTargets k).any targetBad) = true ↔ s.copyFails p q k 0x02 := by
  have htargets : (pktTargets k).any targetBad = true ↔ ∃ t ∈ [pktWord k 0x28, pktWord k 0x30], t.extractLsb' 62 2 = 0 ∧ t ≠ 0 ∨
      t.extractLsb' 62 2 = 1 ∧ t.extractLsb' 32 30 ≠ 0 ∨ t.extractLsb' 62 2 = 2 ∧ t.extractLsb' 12 50 ≠ 0 ∨ t.extractLsb' 62 2 = 3 := by
    rw [any_targets]
    simp only [targetBad_iff]
  rw [Bool.or_eq_true, htargets]
  simp only [Bool.or_eq_true, Bool.and_eq_true, decide_eq_true_eq, beq_iff_eq, bne_iff_ne, pktSsp_iff, pktDsp_iff, or_assoc]
  rfl

theorem copyFails_misaligned : (pktLen k % 8 != 0 || (pktKind k == kGATHER && pktWord k 0x38 &&& 3 != 0) ||
      (pktTargets k).any (fun t => targetKind t == 1 && t &&& 31 != 0)) = true ↔ s.copyFails p q k 0x03 := by
  rw [Bool.or_eq_true, any_targets]
  simp only [Bool.or_eq_true, Bool.and_eq_true, beq_iff_eq, bne_iff_ne, targetKind_iff _ (show 1 < 4 by decide), or_assoc]
  rfl

theorem copyFails_size : (pktLen k == 0 || pktRows k == 0 || decide (2 ^ 32 ≤ pktLen k * pktRows k) || decide (6 ≤ pktField k 2 1 % 8) ||
      (pktKind k == kFEED && decide (512 < pktLen k))) = true ↔ s.copyFails p q k 0x05 := by
  simp only [Bool.or_eq_true, Bool.and_eq_true, decide_eq_true_eq, beq_iff_eq, or_assoc]
  rfl

theorem copyFails_head : (pktKind k == kFEED && ((q.core).bind (fun c => s.feedHead p c k)).isNone) = true ↔ s.copyFails p q k 0x06 := by
  rw [Bool.and_eq_true, beq_iff_eq, Option.isNone_iff_eq_none]
  show _ ↔ pktKind k = 2 ∧ ∀ c, q.core = some c → s.feedHead p c k = none
  rw [Option.bind_eq_none_iff]
  rfl

theorem copyFails_engine : (!s.engineOk p q) = true ↔ s.copyFails p q k 0x08 := by
  show _ ↔ match q.core with
    | none => (s.part p).keel.getLsbD (q.engine.toNat % 16) = false
    | some c => s.owns p c = false ∨ s.usable c = false
  have hlow : (q.engine.extractLsb' 0 4).toNat = q.engine.toNat % 16 := by simp
  unfold State.engineOk
  cases q.core with
  | none =>
    dsimp only
    rw [hlow, Bool.not_eq_true']
  | some c =>
    dsimp only
    rw [Bool.not_eq_true', Bool.and_eq_false_iff]

/-- A barrier target's address in the scratchpad. -/
theorem localForm_target (t : Word) : localForm ((t.setWidth 32).setWidth 64) = true ↔ (t &&& 0xFFFFFFFF) >>> 30 = 2 := by
  have h : (t.setWidth 32).setWidth 64 = t &&& 0xFFFFFFFF := by
    apply BitVec.eq_of_toNat_eq
    rw [BitVec.toNat_and, BitVec.toNat_setWidth, BitVec.toNat_setWidth]
    show t.toNat % 2 ^ 32 % 2 ^ 64 = t.toNat &&& (2 ^ 32 - 1)
    rw [Nat.and_two_pow_sub_one_eq_mod]
    omega
  unfold localForm
  rw [h, beq_iff_eq]

theorem copyFails_combination : comboBad q k = true ↔ s.copyFails p q k 0x04 := by
  show _ ↔ match q.core with
    | none => pktKind k = 2 ∨ (pktField k 1 1).testBit 0 ∨ (pktField k 1 1).testBit 1 ∨
      ∃ t ∈ [pktWord k 0x28, pktWord k 0x30], t.extractLsb' 62 2 = 1
    | some _ => (pktKind k = 1 ∨ pktKind k = 4) ∧ ¬(pktField k 1 1).testBit 0 ∧ ¬(pktField k 1 1).testBit 1 ∨
      (pktField k 1 1).testBit 0 ∧ ¬pktWord k 8 >>> 30 = 2 ∨ (pktField k 1 1).testBit 1 ∧ ¬pktWord k 0x10 >>> 30 = 2 ∨
      (∃ t ∈ [pktWord k 0x28, pktWord k 0x30], t.extractLsb' 62 2 = 1 ∧ ¬(t &&& 0xFFFFFFFF) >>> 30 = 2) ∨
      pktKind k ≠ 3 ∧ ¬(pktField k 1 1).testBit 0 ∧ (pktWord k 8).getLsbD 63 ∨
      pktKind k ≠ 2 ∧ ¬(pktField k 1 1).testBit 1 ∧ (pktWord k 0x10).getLsbD 63 ∨ pktKind k = 4 ∧ (pktWord k 0x38).getLsbD 63
  have hone : ∀ t : Word, (targetKind t == 1) = true ↔ t.extractLsb' 62 2 = 1 := fun t => by
    rw [beq_iff_eq, targetKind_iff t (by decide)]
    rfl
  have hspads : ∀ f : Word → Bool, (pktSpads k).any f = true ↔ pktSsp k = true ∧ f (pktWord k 8) = true ∨
      pktDsp k = true ∧ f (pktWord k 0x10) = true ∨
      ∃ t ∈ [pktWord k 0x28, pktWord k 0x30], t.extractLsb' 62 2 = 1 ∧ f ((t.setWidth 32).setWidth 64) = true := fun f => by
    unfold pktSpads
    rw [List.any_append, List.any_append, Bool.or_eq_true, Bool.or_eq_true, or_assoc]
    refine or_congr ?_ (or_congr ?_ ?_)
    · cases pktSsp k <;> simp
    · cases pktDsp k <;> simp
    · rw [List.any_map, List.any_filter, any_targets]
      simp only [Bool.and_eq_true, hone, Function.comp]
  have hempty : (!(pktSpads k).isEmpty) = true ↔ (pktSpads k).any (fun _ => true) = true := by
    cases pktSpads k <;> simp
  unfold comboBad
  rw [← pktSsp_iff, ← pktDsp_iff]
  cases q.core with
  | none =>
    dsimp only
    rw [Bool.or_eq_true, hempty, hspads]
    simp [kFEED]
  | some c =>
    have hlocal : ∀ t : Word, (!localForm ((t.setWidth 32).setWidth 64)) = true ↔ ¬(t &&& 0xFFFFFFFF) >>> 30 = 2 := fun t => by
      rw [Bool.not_eq_true', ← Bool.not_eq_true, localForm_target]
    have hform : ∀ a : Word, (!localForm a) = true ↔ ¬a >>> 30 = 2 := fun a => by
      unfold localForm
      rw [Bool.not_eq_true', beq_eq_false_iff_ne]
    dsimp only
    simp only [Bool.or_eq_true, Bool.and_eq_true, hspads, hlocal, hform, Bool.not_eq_true', beq_iff_eq, bne_iff_ne, or_assoc, and_assoc,
      Bool.not_eq_true]
    rfl

theorem State.mem_copyCodes (c : Nat) : c ∈ s.copyCodes p q k ↔ s.copyFails p q k c := by
  unfold State.copyCodes
  rw [mem_codes]
  simp only [List.mem_cons, Prod.mk.injEq, List.not_mem_nil, or_false]
  constructor
  · rintro (⟨rfl, h⟩ | ⟨rfl, h⟩ | ⟨rfl, h⟩ | ⟨rfl, h⟩ | ⟨rfl, h⟩ | ⟨rfl, h⟩ | ⟨rfl, h⟩)
    · exact (copyFails_kind s p q k).mp h.symm
    · exact (copyFails_reserved s p q k).mp h.symm
    · exact (copyFails_misaligned s p q k).mp h.symm
    · exact (copyFails_combination s p q k).mp h.symm
    · exact (copyFails_size s p q k).mp h.symm
    · exact (copyFails_head s p q k).mp h.symm
    · exact (copyFails_engine s p q k).mp h.symm
  · intro h
    have hcode : c = 1 ∨ c = 2 ∨ c = 3 ∨ c = 4 ∨ c = 5 ∨ c = 6 ∨ c = 8 := by
      unfold State.copyFails at h
      dsimp only at h
      split at h
      · decide
      · decide
      · decide
      · decide
      · decide
      · decide
      · decide
      · exact h.elim
    rcases hcode with rfl | rfl | rfl | rfl | rfl | rfl | rfl
    · exact .inl ⟨rfl, ((copyFails_kind s p q k).mpr h).symm⟩
    · exact .inr (.inl ⟨rfl, ((copyFails_reserved s p q k).mpr h).symm⟩)
    · exact .inr (.inr (.inl ⟨rfl, ((copyFails_misaligned s p q k).mpr h).symm⟩))
    · exact .inr (.inr (.inr (.inl ⟨rfl, ((copyFails_combination s p q k).mpr h).symm⟩)))
    · exact .inr (.inr (.inr (.inr (.inl ⟨rfl, ((copyFails_size s p q k).mpr h).symm⟩))))
    · exact .inr (.inr (.inr (.inr (.inr (.inl ⟨rfl, ((copyFails_head s p q k).mpr h).symm⟩)))))
    · exact .inr (.inr (.inr (.inr (.inr (.inr ⟨rfl, ((copyFails_engine s p q k).mpr h).symm⟩)))))

theorem State.copyFails_lt {c : Nat} (h : s.copyFails p q k c) : c < 2 ^ 24 := by
  unfold State.copyFails at h
  dsimp only at h
  split at h
  · decide
  · decide
  · decide
  · decide
  · decide
  · decide
  · decide
  · exact h.elim

end

/-! ### What an engine's addresses depend on (09 R257) -/

theorem State.engineDecode_congr {s u : State} (h : u.launches = s.launches) (core : Nat) (a : Int) :
    u.engineDecode core a = s.engineDecode core a := by
  have hlaunch : ∀ t, u.launchOf t = s.launchOf t := fun t => by
    unfold State.launchOf
    rw [h]
  unfold State.engineDecode State.spadDecode
  simp only [hlaunch, Seat.blank, Bool.not_false, if_true]

theorem State.feedHead_congr {s u : State} (h : u.seats = s.seats) (p core : Nat) (k : Vector Word 8) :
    u.feedHead p core k = s.feedHead p core k := by
  unfold State.feedHead
  rw [h]

theorem State.dstLines_congr {s u : State} (h : u.launches = s.launches) (core : Nat) (k : Vector Word 8) :
    u.dstLines core k = s.dstLines core k := by
  unfold State.dstLines
  simp only [State.engineDecode_congr h]

/-! ### The step of a copy queue (09 R260) -/

theorem exec_copyStep {p : Fin 8} {hdr : Word} {i : Instr} {kind : Nat}
    (h : (i, kind) ∈ [(Instr.copy p hdr, 1), (.feed p hdr, 2), (.fill p hdr, 3), (.gather p hdr, 4)]) (s : State) :
    exec i s = .next (s.copyStep p hdr kind) := by
  simp only [List.mem_cons, Prod.mk.injEq, List.not_mem_nil, or_false] at h
  rcases h with ⟨rfl, rfl⟩ | ⟨rfl, rfl⟩ | ⟨rfl, rfl⟩ | ⟨rfl, rfl⟩ <;> rfl

section
variable {s : State} {p : Nat} {hdr : Word} {q : Queue} {kind : Nat} (hq : s.queue p hdr = some q) (hsort : q.sort = 1)
include hq hsort

theorem State.copyStep_moving {n : Nat} {k : Packet} (hmov : s.moving p hdr = some (n, k)) (hkind : pktKind k.pkt = kind)
    (hfault : k.fault = false) (hfrozen : k.frozen = false) (hheld : s.rowsHeld k = false) : s.copyStep p hdr kind = s.copyRow n k := by
  unfold State.copyStep
  rw [hq]
  dsimp only
  rw [if_neg (by rw [hsort]; decide), hmov]
  exact if_pos ⟨hkind, by rw [hfault]; rfl, by rw [hfrozen]; rfl, by rw [hheld]; rfl⟩

theorem State.copyStep_code (hmov : s.moving p hdr = none) {c : Nat} (ho : (s.metQueue q).offer q = .code c) :
    s.copyStep p hdr 1 = (s.metQueue q).halt p q c := by
  unfold State.copyStep
  rw [hq]
  dsimp only
  rw [if_neg (by rw [hsort]; decide), hmov]
  dsimp only
  rw [ho]
  exact if_pos rfl

theorem State.copyStep_packet (hmov : s.moving p hdr = none) {k : Vector Word 8} (ho : (s.metQueue q).offer q = .packet k)
    (hkind : pktKind k = kind ∨ kind = 1 ∧ (pktKind k = 0 ∨ 4 < pktKind k)) :
    s.copyStep p hdr kind = (s.metQueue q).acceptCopy p q k := by
  unfold State.copyStep
  rw [hq]
  dsimp only
  rw [if_neg (by rw [hsort]; decide), hmov]
  dsimp only
  rw [ho]
  exact if_pos hkind

end

/-! ### Acceptance (09 R260, R263) -/

/-- An engine on a fenced die accepts nothing (14 R365). -/
def State.engineCut (r : State) (q : Queue) : Prop := ∃ c, q.core = some c ∧ r.fenced.getLsbD (c / 8) = true

/-- A FEED's head is bound (06 R170). -/
def State.headBound (r : State) (p : Nat) (q : Queue) (k : Vector Word 8) : Prop :=
  ∃ c h, pktKind k = 2 ∧ q.core = some c ∧ r.feedHead p c k = some h ∧ (r.row h).feed ≠ none

/-- A packet as it enters the table. -/
def State.entering (r : State) (p : Nat) (q : Queue) (k : Vector Word 8) : Packet :=
  { part := p, hdr := q.hdr, slot := r.ridx q, pkt := k, core := q.core, sub := q.sub (r.ridx q), acq := q.core.bind fun c => (r.core c).gwct }

/-- A queue of whose slots those up to RIDX have left. -/
def State.left (r : State) (q : Queue) : Queue := { q with subs := q.subs.filter fun (x : Nat × Word × Option Nat) => r.ridx q < x.1 }

section
variable {r : State} {p : Nat} {q : Queue} {k : Vector Word 8}

theorem State.acceptCopy_code {c : Nat} (h : lowest (r.copyCodes p q k) = some c) : r.acceptCopy p q k = (r.elideSlot q).halt p q c := by
  unfold State.acceptCopy
  dsimp only
  rw [h]

theorem State.acceptCopy_vio (h : lowest (r.copyCodes p q k) = none) {c : Nat} {cs : BitVec 16} {a : Word}
    (ht : r.targetsCheck q k = .vio c cs a) : r.acceptCopy p q k = (r.elideSlot q).freezeQueue p q (r.ridx q) c cs a := by
  unfold State.acceptCopy
  dsimp only
  rw [h]
  dsimp only
  rw [ht]

theorem State.acceptCopy_ok (h : lowest (r.copyCodes p q k) = none) (ht : r.targetsCheck q k = .ok ())
    [Decidable (r.engineCut q ∨ r.headBound p q k)] :
    r.acceptCopy p q k = if r.engineCut q ∨ r.headBound p q k then r
      else (((r.elideSlot q).stepRidx q).setQueue p (r.left q)).bring (r.entering p q k) := by
  have hbound : (pktKind k == kFEED && (match q.core.bind (fun c => r.feedHead p c k) with
      | some h => (r.row h).feed.isSome
      | none => false)) = true ↔ r.headBound p q k := by
    unfold State.headBound
    rw [Bool.and_eq_true, beq_iff_eq]
    cases hc : q.core with
    | none => simp
    | some c =>
      cases hh : r.feedHead p c k with
      | none => simp [hh]
      | some h => simp [hh, kFEED, Option.isSome_iff_ne_none]
  have hcut : (match q.core with
      | some c => r.fenced.getLsbD (c / 8)
      | none => false) = true ↔ r.engineCut q := by
    unfold State.engineCut
    cases q.core <;> simp
  unfold State.acceptCopy
  dsimp only
  rw [h]
  dsimp only
  rw [ht]
  dsimp only
  refine if_congr ?_ rfl rfl
  rw [Bool.or_eq_true, or_comm]
  exact or_congr hcut hbound

theorem State.acceptCopy_waits (h : lowest (r.copyCodes p q k) = none) (ht : r.targetsCheck q k = .ok ())
    (hwait : r.engineCut q ∨ r.headBound p q k) : r.acceptCopy p q k = r := by
  classical
  rw [State.acceptCopy_ok h ht, if_pos hwait]

theorem State.acceptCopy_brings (h : lowest (r.copyCodes p q k) = none) (ht : r.targetsCheck q k = .ok ()) (hcut : ¬r.engineCut q)
    (hfree : ¬r.headBound p q k) :
    r.acceptCopy p q k = (((r.elideSlot q).stepRidx q).setQueue p (r.left q)).bring (r.entering p q k) := by
  classical
  rw [State.acceptCopy_ok h ht, if_neg (not_or.mpr ⟨hcut, hfree⟩)]

end

end Sys2Proof.Machine

/-! A copy packet accepted (09 R260; 06 R170; 07 R185). -/
namespace Sys2Proof.Machine

/-- Lines marked absent, one after the other. -/
theorem State.setAbsent_fold (s : State) (ls : List Nat) : ls.foldl (fun (s : State) l => s.setAbsent l true) s =
    { s with absent := ls.foldl (fun m l => Sparse.set false m l true) s.absent } := by
  induction ls generalizing s with
  | nil => rfl
  | cons l ls ih =>
    rw [List.foldl_cons, List.foldl_cons, ih]
    rfl

/-- The head that a packet's FEED binds. -/
def State.headOf (s : State) (k : Packet) : Option Nat :=
  if pktKind k.pkt = kFEED then k.core.bind fun c => s.feedHead k.part c k.pkt else none

/-- The lines that a packet's acceptance marks absent. -/
def State.emptied (s : State) (k : Packet) : List Nat :=
  match k.core with
  | some c => if pktKind k.pkt ≠ kFEED ∧ pktDsp k.pkt = true then s.dstLines c k.pkt else []
  | none => []

/-- A packet has been brought into the table: its destination lines are absent, and a FEED is bound. -/
structure Brought (s u : State) (k : Packet) (pk : Packet) : Prop where
  rest : u = { s with absent := u.absent, rows := u.rows, packets := u.packets, nextPacket := s.nextPacket + 1 }
  packet : u.packet s.nextPacket = some pk
  entered : pk = { k with head := pk.head }
  others : ∀ n, n ≠ s.nextPacket → u.packet n = s.packet n
  bound : ∀ h, s.headOf k = some h → (u.row h).feed = some s.nextPacket ∧ pk.head = some h
  absent : ∀ l ∈ s.emptied k, u.isAbsent l = true

/-- A packet put into the table, bound to its head if it has one. -/
def State.enter (s : State) (n : Nat) (k : Packet) : Option Nat → State
  | some h => (s.setRow h { s.row h with feed := some n }).setPacket n (some { k with head := some h })
  | none => s.setPacket n (some k)

/-- The destination lines of a packet marked absent (07 R185). -/
def State.marked (s : State) (k : Packet) : State :=
  match k.core with
  | some c => if pktKind k.pkt ≠ kFEED ∧ pktDsp k.pkt then (s.dstLines c k.pkt).foldl (fun (s : State) l => s.setAbsent l true) s else s
  | none => s

theorem State.marked_eq (s : State) (k : Packet) : ({ s with nextPacket := s.nextPacket + 1 } : State).marked k = { s with
    nextPacket := s.nextPacket + 1, absent := (s.emptied k).foldl (fun m l => Sparse.set false m l true) s.absent } := by
  unfold State.marked State.emptied
  cases k.core with
  | none => rfl
  | some c =>
    have hlines : ({ s with nextPacket := s.nextPacket + 1 } : State).dstLines c k.pkt = s.dstLines c k.pkt := State.dstLines_congr rfl c k.pkt
    dsimp only
    rw [hlines, State.setAbsent_fold]
    by_cases hcond : pktKind k.pkt ≠ kFEED ∧ pktDsp k.pkt = true
    · rw [if_pos hcond, if_pos hcond]
    · rw [if_neg hcond, if_neg hcond]
      rfl

theorem State.bring_eq (s : State) (k : Packet) :
    s.bring k = State.enter { s with
      nextPacket := s.nextPacket + 1
      absent := (s.emptied k).foldl (fun m l => Sparse.set false m l true) s.absent } s.nextPacket k (s.headOf k) := by
  rw [← State.marked_eq]
  rfl

theorem State.bring_brought (s : State) (k : Packet) : ∃ pk, Brought s (s.bring k) k pk := by
  have habsent : ∀ u : State, u.absent = (s.emptied k).foldl (fun m l => Sparse.set false m l true) s.absent →
      ∀ l ∈ s.emptied k, u.isAbsent l = true := fun u hu l hl => by
    unfold State.isAbsent
    rw [hu, Sparse.get_sets_of_ne false (by decide), if_pos hl]
  rw [State.bring_eq]
  generalize hl : (s.emptied k).foldl (fun m l => Sparse.set false m l true) s.absent = ab at habsent
  cases hh : s.headOf k with
  | none =>
    exact ⟨k, rfl, State.packet_setPacket_self _ _, rfl, fun n hn => State.packet_setPacket_ne _ _ hn,
      fun h hb => absurd (hh.symm.trans hb) nofun, habsent _ rfl⟩
  | some h =>
    refine ⟨{ k with head := some h }, rfl, State.packet_setPacket_self _ _, rfl, fun n hn => State.packet_setPacket_ne _ _ hn,
      fun g hb => ?_, habsent _ rfl⟩
    obtain rfl : h = g := Option.some.inj (hh.symm.trans hb)
    refine ⟨congrArg RowUnit.feed (State.row_setRow_self _ h fun he => ?_), rfl⟩
    exact absurd (congrArg RowUnit.feed he) nofun

section
variable {r : State} {p : Nat} {q : Queue} {k : Vector Word 8} {hdr : Word}

/-- RIDX one further, and the slot's submitter forgotten. -/
theorem State.taken_same (hmem : MemOk r) (hroom : r.ridx q + 1 < 2 ^ 64) :
    let w := ((r.elideSlot q).stepRidx q).setQueue p (r.left q)
    w.ridx q = r.ridx q + 1 ∧ w = { r with hbm := w.hbm, hpois := w.hpois, hue := w.hue, parts := w.parts, elided := w.elided } := by
  have hidx : (r.elideSlot q).ridx q = r.ridx q := by
    rw [State.ridx_eq, State.ridx_eq]
    rfl
  unfold State.stepRidx
  rw [hidx]
  have honly := (r.elideSlot q).hdrPut_only q 0x20 8 (r.ridx q + 1)
  have hbyte := State.hdrPut_hbyte (s := r.elideSlot q) hmem q 0x20 8 (r.ridx q + 1)
  generalize (r.elideSlot q).hdrPut q 0x20 8 (r.ridx q + 1) = v at honly hbyte
  refine ⟨?_, ?_⟩
  · rw [State.ridx_eq, State.setQueue_hbyte, hbyte, readBytes_storeBytes]
    exact Nat.mod_eq_of_lt (by omega)
  · unfold StoresOnly at honly
    rw [honly]
    rfl

/-- A packet accepted: it is in the table, and RIDX is one further. -/
structure Accepted (r u : State) (p : Nat) (q : Queue) (k : Vector Word 8) (pk : Packet) : Prop where
  rest : u = { r with
    hbm := u.hbm, hpois := u.hpois, hue := u.hue, parts := u.parts, absent := u.absent, rows := u.rows, packets := u.packets
    nextPacket := r.nextPacket + 1, elided := u.elided }
  ridx : u.ridx q = r.ridx q + 1
  packet : u.packet r.nextPacket = some pk
  entered : pk = { r.entering p q k with head := pk.head }
  others : ∀ n, n ≠ r.nextPacket → u.packet n = r.packet n
  bound : ∀ c h, pktKind k = 2 → q.core = some c → r.feedHead p c k = some h → (u.row h).feed = some r.nextPacket ∧ pk.head = some h
  absent : ∀ c, pktKind k ≠ 2 → pktDsp k = true → q.core = some c → ∀ l ∈ r.dstLines c k, u.isAbsent l = true

theorem State.bring_accepted (hmem : MemOk r) (p : Nat) (k : Vector Word 8) (hroom : r.ridx q + 1 < 2 ^ 64) :
    ∃ u pk, (((r.elideSlot q).stepRidx q).setQueue p (r.left q)).bring (r.entering p q k) = u ∧ Accepted r u p q k pk := by
  obtain ⟨hridx, hrest⟩ := State.taken_same (p := p) (q := q) hmem hroom
  generalize ((r.elideSlot q).stepRidx q).setQueue p (r.left q) = w at hridx hrest
  obtain ⟨pk, hb⟩ := w.bring_brought (r.entering p q k)
  have hnext : w.nextPacket = r.nextPacket := by rw [hrest]
  have hpackets : w.packets = r.packets := by rw [hrest]
  have hbyte : (w.bring (r.entering p q k)).hbyte = w.hbyte := by
    rw [hb.rest]
    rfl
  refine ⟨_, pk, rfl, ?_, ?_, hnext ▸ hb.packet, hb.entered, fun n hn => ?_, fun c h hkind hc hhead => ?_, fun c hkind hdsp hc l hl => ?_⟩
  · have hu := hb.rest
    generalize w.bring (r.entering p q k) = u at hu
    rw [hu, hrest]
  · rw [State.ridx_eq, hbyte, ← State.ridx_eq, hridx]
  · rw [hb.others n (hnext ▸ hn)]
    unfold State.packet
    rw [hpackets]
  · rw [← hnext]
    refine hb.bound h ?_
    unfold State.headOf State.entering
    dsimp only
    rw [if_pos (show pktKind k = kFEED from hkind), hc, Option.bind_some, State.feedHead_congr (s := r) (by rw [hrest]), hhead]
  · refine hb.absent l ?_
    unfold State.emptied State.entering
    dsimp only
    rw [hc]
    dsimp only
    rw [if_pos ⟨hkind, hdsp⟩, State.dstLines_congr (s := r) (by rw [hrest])]
    exact hl

end

end Sys2Proof.Machine

/-! A row of a copy packet: its two sides, its bytes, and what its writing leaves (09 R258, R260; 07 R185, R187, R199). -/
namespace Sys2Proof.Machine

/-! ### Sides, whatever has been counted for elision (21 R386) -/

section
variable (s : State) (e : Vector Nat 8)

theorem State.xlate_elided (p d : Nat) (va : Word) (k : AccKind) : ({ s with elided := e } : State).xlate p d va k = s.xlate p d va k := by
  unfold State.xlate State.walk
  simp only [State.walkFrom_elided]
  rfl

theorem State.checkRange_elided (p d : Nat) (va : Word) (n : Nat) (k : AccKind) (fen : BitVec 8) :
    ({ s with elided := e } : State).checkRange p d va n k fen = s.checkRange p d va n k fen := by
  unfold State.checkRange
  simp only [State.xlate_elided]
  rfl

theorem State.side_elided (p d : Nat) (core : Option Nat) (sp : Bool) (a : Int) (n : Nat) (k : AccKind) :
    ({ s with elided := e } : State).side p d core sp a n k = s.side p d core sp a n k := by
  have hdecode : ∀ c a, ({ s with elided := e } : State).engineDecode c a = s.engineDecode c a := State.engineDecode_congr rfl
  unfold State.side
  simp only [State.xlate_elided, State.checkRange_elided, hdecode]
  rfl

theorem State.rowSrc_elided (k : Packet) (idx : Nat) : ({ s with elided := e } : State).rowSrc k idx = s.rowSrc k idx := by
  unfold State.rowSrc
  simp only [State.side_elided]
  rfl

theorem State.rowDst_elided (k : Packet) : ({ s with elided := e } : State).rowDst k = s.rowDst k := by
  unfold State.rowDst
  simp only [State.side_elided]
  rfl

end

/-! ### The bytes of a row (09 R258; 07 R187) -/

/-- A side that is not at a peer gives its bytes with their marks, where it has no error. -/
theorem State.sideRead_clean {s : State} {n : Nat} {x : Side} (hclean : s.sideClean n x) : ∃ e bs,
    s.sideRead n [] x = ({ s with elided := e }, bs) ∧ bs.map (fun b => b.1) = s.sideBytes n x ∧ bs.map (fun b => b.2) = s.sideMarks n x := by
  cases x with
  | spad key =>
    refine ⟨s.elided, _, rfl, ?_, ?_⟩ <;> rw [List.map_map] <;> rfl
  | mem ps =>
    have hmeet := State.meet_clean (s := s) (as := (Side.mem ps).bytes n) hclean
    unfold State.sideRead
    dsimp only
    rw [hmeet]
    refine ⟨_, _, rfl, ?_, ?_⟩ <;> rw [List.map_map] <;> rfl
  | peer va => exact ⟨s.elided, [], rfl, rfl, rfl⟩

/-- What a row's bytes are: those of its source, or a FILL's. -/
def State.srcBytes (s : State) (k : Vector Word 8) (src : Option Side) : List Byte :=
  match src with
  | some x => s.sideBytes (pktLen k) x
  | none => (List.range (pktLen k)).map fun j => BitVec.ofNat 8 (pktField k (8 + j % 8) 1)

/-- The marks that a row's bytes carry. -/
def State.srcMarks (s : State) (k : Vector Word 8) (src : Option Side) : List Bool :=
  match src with
  | some x => s.sideMarks (pktLen k) x
  | none => []

/-- A row's bytes, each with its mark, as they are written. -/
structure RowBytes (s : State) (k : Vector Word 8) (src : Option Side) (bad : Bool) (bs : List (Byte × Bool)) : Prop where
  bytes : bs.map (fun b => b.1) = s.srcBytes k src
  marks : bad = false → ∀ i, (bs.getD i (0, false)).2 = (s.srcMarks k src).getD i false

theorem getD_map_marks (bs : List (Byte × Bool)) (i : Nat) : (bs.getD i (0, false)).2 = (bs.map fun b => b.2).getD i false := by
  simp only [List.getD_eq_getElem?_getD, List.getElem?_map]
  cases bs[i]? <;> rfl

theorem getD_map_bytes (bs : List (Byte × Bool)) (i : Nat) : (bs.getD i (0, false)).1 = (bs.map fun b => b.1).getD i 0 := by
  simp only [List.getD_eq_getElem?_getD, List.getElem?_map]
  cases bs[i]? <;> rfl

theorem State.rowBytes_clean {s : State} {k : Packet} {src : Option Side} (bad : Bool)
    (hclean : ∀ x, src = some x → s.sideClean (pktLen k.pkt) x) : ∃ e bs,
      s.rowBytes k src [] bad = ({ s with elided := e }, bs) ∧ RowBytes s k.pkt src bad bs := by
  cases src with
  | none =>
    refine ⟨s.elided, _, rfl, ⟨?_, fun _ i => ?_⟩⟩
    · rw [List.map_map]
      rfl
    · rw [getD_map_marks, List.map_map]
      show ((List.range (pktLen k.pkt)).map fun _ => false).getD i false = _
      rw [List.getD_eq_getElem?_getD, List.getElem?_map]
      cases (List.range (pktLen k.pkt))[i]? <;> rfl
  | some x =>
    obtain ⟨e, bs, hread, hbytes, hmarks⟩ := State.sideRead_clean (hclean x rfl)
    unfold State.rowBytes
    dsimp only
    rw [hread]
    refine ⟨e, _, rfl, ⟨?_, fun hbad i => ?_⟩⟩
    · rw [List.map_map]
      exact hbytes
    · subst hbad
      rw [getD_map_marks, List.map_map]
      simp only [Function.comp_def, Bool.or_false]
      rw [hmarks]
      rfl

/-! ### A row moved (09 R260) -/

theorem takeGranules_all {rs rest : List PeerReply} (h : ∀ x ∈ rs, ∃ w, x = .data w) :
    takeGranules rs.length (rs ++ rest) = some (rs, rest) := by
  have hno : ¬((rs ++ rest).length < rs.length ∨ ((rs ++ rest).take rs.length).contains .retry = true) := by
    rw [List.take_left, List.contains_iff_mem, List.length_append, not_or]
    refine ⟨by omega, fun hmem => ?_⟩
    obtain ⟨w, hw⟩ := h _ hmem
    cases hw
  unfold takeGranules
  rw [if_neg hno, List.take_left, List.drop_left]

theorem worst_ok {vs : List (Verdict Unit)} (h : ∀ v ∈ vs, v = .ok ()) : worst vs = .ok () := by
  induction vs with
  | nil => rfl
  | cons v vs ih =>
    obtain ⟨hv, hvs⟩ := List.forall_mem_cons.mp h
    subst hv
    exact ih hvs

theorem peerVerdict_data {rs : List (Word × PeerReply)} (h : ∀ x ∈ rs, ∃ w, x.2 = .data w) : peerVerdict rs = .ok () := by
  refine worst_ok fun v hv => ?_
  obtain ⟨x, hx, rfl⟩ := List.mem_map.mp hv
  obtain ⟨w, hw⟩ := h x hx
  rw [hw]

theorem Side.granules_local {x : Side} (n : Nat) (h : x.isPeer = false) : x.granules n = [] := by
  cases x with
  | spad => rfl
  | mem => rfl
  | peer => cases h

/-- The frames in which a row's bytes leave for a peer (13 R337; log 67). -/
def State.rowFrames (s : State) (k : Packet) (dst : Side) (bs : List (Byte × Bool)) (rs : List PeerReply) : List SpanFrame :=
  s.sent k.part (granuleOps bs) ((dst.granules (pktLen k.pkt)).zip rs) (fun _ => true)

section
variable {s : State} {n : Nat} {k : Packet} {idx : Nat × Bool} {src : Option Side} {dst : Side} {e : Vector Nat 8} {bs : List (Byte × Bool)}
  (hsrc : s.rowSrc k idx.1 = .ok src) (hdst : s.rowDst k = .ok dst) (hlocal : ∀ x, src = some x → x.isPeer = false)
  (hbytes : s.rowBytes k src [] idx.2 = ({ s with elided := e }, bs))
include hsrc hdst hlocal hbytes

theorem State.moveRow_eq {rs rest : List PeerReply} (hdata : ∀ x ∈ rs, ∃ w, x = .data w) (hreplies : s.peerReplies = rs ++ rest)
    (hlen : rs.length = (dst.granules (pktLen k.pkt)).length) :
    s.moveRow n k idx = ({ s with elided := e, peerReplies := rest, spanOut := s.spanOut ++ s.rowFrames k dst bs rs } : State).rowWrite n k
      dst bs := by
  have hgs : (src.map (Side.granules (pktLen k.pkt))).getD [] = [] := by
    cases src with
    | none => rfl
    | some x => exact Side.granules_local _ (hlocal x rfl)
  have hok : peerVerdict ((dst.granules (pktLen k.pkt)).zip rs) = .ok () :=
    peerVerdict_data fun x hx => hdata x.2 (List.of_mem_zip hx).2
  unfold State.moveRow
  dsimp only
  rw [hsrc, hdst]
  dsimp only [Verdict.both]
  rw [hgs, List.length_nil, Nat.zero_add, ← hlen, hreplies, takeGranules_all hdata]
  dsimp only
  rw [List.take_zero, List.drop_zero, List.zip_nil_left, List.nil_append, hbytes, hok]
  rfl

/-- A row whose sides are both the module's own. -/
theorem State.moveRow_local (h : dst.isPeer = false) : s.moveRow n k idx = ({ s with elided := e } : State).rowWrite n k dst bs := by
  have hgd := Side.granules_local (pktLen k.pkt) h
  have hframes : s.rowFrames k dst bs [] = [] := by
    unfold State.rowFrames
    rw [List.zip_nil_right]
    rfl
  rw [State.moveRow_eq hsrc hdst hlocal hbytes (rs := []) nofun rfl (by rw [hgd]; rfl), hframes, List.append_nil]

end

/-! ### A row written (09 R258; 07 R185, R187; 08 R223) -/

/-- A packet is one row further, and the others are as they were. -/
structure RowDone (s u : State) (n : Nat) (k pk : Packet) : Prop where
  packet : u.packet n = some pk
  row : pk.row = k.row + 1
  pkt : pk.pkt = k.pkt
  slot : pk.slot = k.slot
  released : pk.released = k.released
  landed : pk.landed = k.landed
  others : ∀ m, m ≠ n → u.packet m = s.packet m

theorem RowDone.of_packets {s v u : State} {n : Nat} {k pk : Packet} (h : RowDone v u n k pk) (hv : v.packets = s.packets) :
    RowDone s u n k pk :=
  { h with others := fun m hm => (h.others m hm).trans (congrArg (fun t => Sparse.get none t m) hv) }

/-- The stores of a row. -/
def rowStores (dst : Side) (len : Nat) (bytes : List Byte) : List (Nat × Nat) :=
  ((dst.bytes len).zip bytes).map fun x => (x.1, x.2.toNat)

theorem rowStores_eq (as : List Nat) (bs : List (Byte × Bool)) :
    (as.zip bs).map (fun (x : Nat × Byte × Bool) => (x.1, 1, x.2.1.toNat)) =
      ((as.zip (bs.map fun b => b.1)).map fun x => (x.1, x.2.toNat)).map fun w => (w.1, 1, w.2) := by
  rw [List.zip_map_right, List.map_map, List.map_map]
  rfl

theorem State.setPois_fold {α : Type} (f : α → Nat) (b : Bool) (xs : List α) (s : State) :
    xs.foldl (fun (s : State) i => s.setPois (f i) b) s =
      { s with spois := xs.foldl (fun m i => Sparse.set false m (f i) b) s.spois } := by
  induction xs generalizing s with
  | nil => rfl
  | cons x xs ih => exact ih (s.setPois (f x) b)

theorem State.setSecPois_fold {α : Type} (f : α → Nat) (b : Bool) (xs : List α) (s : State) :
    xs.foldl (fun (s : State) i => s.setSecPois (f i) b) s =
      { s with hpois := xs.foldl (fun m i => Sparse.set false m (paSector (f i)) b) s.hpois } := by
  induction xs generalizing s with
  | nil => rfl
  | cons x xs ih => exact ih (s.setSecPois (f x) b)

theorem State.setAbsent_keys {α : Type} (f : α → Nat) (b : Bool) (xs : List α) (s : State) :
    xs.foldl (fun (s : State) i => s.setAbsent (f i) b) s =
      { s with absent := xs.foldl (fun m i => Sparse.set false m (f i) b) s.absent } := by
  induction xs generalizing s with
  | nil => rfl
  | cons x xs ih => exact ih (s.setAbsent (f x) b)

/-- The latest of some leases is none earlier than each. -/
theorem foldl_max_ge (f : Nat → Nat) (as : List Nat) (e : Nat) :
    e ≤ as.foldl (fun e a => max e (f a)) e ∧ ∀ a ∈ as, f a ≤ as.foldl (fun e a => max e (f a)) e := by
  induction as generalizing e with
  | nil => exact ⟨le_rfl, nofun⟩
  | cons a as ih =>
    obtain ⟨hle, hall⟩ := ih (max e (f a))
    exact ⟨(le_max_left _ _).trans hle, List.forall_mem_cons.mpr ⟨(le_max_right _ _).trans hle, hall⟩⟩

section
variable (s : State) (n : Nat) (k : Packet) (bs : List (Byte × Bool))

theorem State.setPacket_done (w : State) (hw : w.packets = s.packets) {pk : Packet} (hrow : pk.row = k.row + 1) (hpkt : pk.pkt = k.pkt)
    (hslot : pk.slot = k.slot) (hrel : pk.released = k.released) (hland : pk.landed = k.landed) :
    RowDone s (w.setPacket n (some pk)) n k pk :=
  ⟨w.packet_setPacket_self n, hrow, hpkt, hslot, hrel, hland, fun m hm => by
    rw [w.packet_setPacket_ne _ hm]
    unfold State.packet
    rw [hw]⟩

/-- A row written to the scratchpad. -/
theorem State.rowWrite_spad {s : State} (hs : s.spad.wf = true) (key : Nat) :
    ∃ u pk, s.rowWrite n k (.spad key) bs = u ∧ RowDone s u n k pk ∧
      u.spad.byte = storeAll 1 (rowStores (.spad key) (pktLen k.pkt) (bs.map fun b => b.1)) s.spad.byte ∧
      u = { s with spad := u.spad, spois := u.spois, absent := u.absent, packets := u.packets } := by
  unfold State.rowWrite
  dsimp only
  rw [rowStores_eq, State.spadStore_eq, State.setPois_fold, State.setPois_fold, State.setAbsent_keys]
  refine ⟨_, _, rfl, State.setPacket_done s n k _ ?_ rfl rfl rfl rfl rfl, Memory.byte_storeAll hs 1 _, rfl⟩
  rfl

/-- A row written to memory. -/
theorem State.rowWrite_mem {s : State} (hmem : MemOk s) (ps : List (Nat × Nat × Bool)) :
    ∃ u pk, s.rowWrite n k (.mem ps) bs = u ∧ RowDone s u n k pk ∧
      u.hbyte = storeAll 1 (rowStores (.mem ps) (pktLen k.pkt) (bs.map fun b => b.1)) s.hbyte ∧
      (k.waitE ≤ pk.waitE ∧ ∀ a ∈ (Side.mem ps).bytes (pktLen k.pkt), s.leaseOf a ≤ pk.waitE) ∧
      u = { s with hbm := u.hbm, hpois := u.hpois, hue := u.hue, packets := u.packets, elided := u.elided } := by
  unfold State.rowWrite
  dsimp only
  rw [rowStores_eq, State.setSecPois_fold, State.setSecPois_fold]
  have honly := s.puts_none_only ((rowStores (.mem ps) (pktLen k.pkt) (bs.map fun b => b.1)).map fun w => (w.1, 1, w.2))
  have hbyte := State.puts_none_hbyte hmem ((rowStores (.mem ps) (pktLen k.pkt) (bs.map fun b => b.1)).map fun w => (w.1, 1, w.2))
  unfold rowStores at honly hbyte
  generalize s.puts none _ = w at honly hbyte ⊢
  unfold StoresOnly at honly
  refine ⟨_, _, rfl, State.setPacket_done _ _ _ _ ?_ rfl rfl rfl rfl rfl, ?_, foldl_max_ge s.leaseOf _ k.waitE, ?_⟩
  · rw [honly]
  · refine hbyte.trans ?_
    unfold storeAll
    rw [List.foldl_map]
    rfl
  · rw [honly]
    rfl

/-- A row that a peer has stored. -/
theorem State.rowWrite_peer (va : Word) :
    ∃ u pk, s.rowWrite n k (.peer va) bs = u ∧ RowDone s u n k pk ∧ u = { s with packets := u.packets } :=
  ⟨_, _, rfl, State.setPacket_done _ _ _ _ rfl rfl rfl rfl rfl rfl, rfl⟩

end

/-! ### The frames of a row to a peer (13 R337) -/

/-- The word of a granule, and whether it is poisoned. -/
theorem granuleOps_eq (bs : List (Byte × Bool)) (i : Nat) : granuleOps bs i =
    some (.store 3 (BitVec.ofNat 64 ((List.range 8).foldr (fun j v => ((bs.map fun b => b.1).getD (8 * i + j) 0).toNat + 256 * v) 0))
      ((List.range 8).any fun j => (bs.map fun b => b.2).getD (8 * i + j) false)) := by
  unfold granuleOps
  simp only [getD_map_bytes, getD_map_marks]

theorem State.rowFrames_peer (s : State) (k : Packet) (va : Word) (bs : List (Byte × Bool)) {rs : List PeerReply}
    (hlen : rs.length = pktLen k.pkt / 8) : s.rowFrames k (.peer va) bs rs = (List.range rs.length).map fun j =>
      s.frame k.part (va + BitVec.ofNat 64 (8 * j)) (.store 3 (BitVec.ofNat 64
        ((List.range 8).foldr (fun b v => ((bs.map fun b => b.1).getD (8 * j + b) 0).toNat + 256 * v) 0))
        ((List.range 8).any fun b => (bs.map fun b => b.2).getD (8 * j + b) false)) (rs.getD j .retry) := by
  have hlist : ((((List.range (pktLen k.pkt / 8)).map fun i => va + BitVec.ofNat 64 (8 * i)).zip rs).map
      fun x => ((0 : Nat), x.1, Xlate.peer, x.2)).zipIdx =
        (List.range rs.length).map fun j => ((0, va + BitVec.ofNat 64 (8 * j), Xlate.peer, rs.getD j .retry), j) := by
    refine List.ext_getElem? fun j => ?_
    rw [← hlen]
    by_cases hj : j < rs.length
    · simp [hj]
    · simp [hj]
  unfold State.rowFrames State.sent State.frames Side.granules
  dsimp only
  rw [hlist, List.filterMap_map, ← List.filterMap_eq_map]
  refine List.filterMap_congr fun j _ => ?_
  simp only [Function.comp, granuleOps_eq, if_true]

end Sys2Proof.Machine

/-! A packet that stops, resumes, takes its targets and ends, and the push of a FEED's entry (08 R223; 09 R248, R258, R260; 06 R170). -/
namespace Sys2Proof.Machine

/-! ### A row that cannot move (09 R260; 13 R331) -/

section
variable {s : State} {n : Nat} {k : Packet}

theorem State.copyRow_plain (hk : pktKind k.pkt ≠ 4) : s.copyRow n k = s.moveRow n k (0, false) := by
  have hidx : s.idxSide k = .ok none := if_pos hk
  unfold State.copyRow
  rw [hidx]

theorem State.copyRow_index {x : Side} (hidx : s.idxSide k = .ok (some x)) (hx : x.isPeer = false) :
    s.copyRow n k = (s.sideRead 4 [] x).1.moveRow n k (idxOf (s.sideRead 4 [] x).2) := by
  unfold State.copyRow
  rw [hidx]
  cases x with
  | spad => rfl
  | mem => rfl
  | peer => cases hx

theorem State.rowSrc_plain (hk : pktKind k.pkt ≠ 4) (idx : Nat) : s.rowSrc k idx = s.rowSrc k 0 := by
  have hno : ¬pktKind k.pkt = kGATHER := hk
  have hsrc : pktSrc k.pkt k.row idx = pktSrc k.pkt k.row 0 := by
    unfold pktSrc
    rw [if_neg hno, if_neg hno]
  unfold State.rowSrc
  rw [hsrc]

theorem State.moveRow_stop {idx : Nat × Bool} {v : Verdict (Option Side × Side)} (hv : (s.rowSrc k idx.1).both (s.rowDst k) = v)
    (hno : ∀ x, v ≠ .ok x) : s.moveRow n k idx = s.rowStop n k v := by
  unfold State.moveRow
  dsimp only
  rw [hv]
  cases v with
  | ok x => exact absurd rfl (hno x)
  | code => rfl
  | fault => rfl
  | vio => rfl
  | wait => rfl

/-- A packet waits for a page. -/
structure Faulted (s u : State) (n : Nat) (k : Packet) (va : Word) : Prop where
  rest : u = { s with packets := u.packets, parts := u.parts, elided := u.elided }
  packet : u.packet n = some { k with fault := true, told := some va }
  others : ∀ m, m ≠ n → u.packet m = s.packet m
  reports : k.part < 8 →
    (u.part k.part).reports = (s.part k.part).reports ++ if k.told = some va then [] else [.fault k.hdr k.slot va]

theorem State.rowStop_fault {α : Type} {q : Queue} (hq : s.queue k.part k.hdr = some q) (va : Word) :
    Faulted s (s.rowStop n k (.fault va : Verdict α)) n k va := by
  have htold := (s.setPacket n (some { k with fault := true, told := some va })).tell_told k.part (s.packetDie k) k.told k.hdr k.slot va
  have hstop : s.rowStop n k (.fault va : Verdict α) =
      (s.setPacket n (some { k with fault := true, told := some va })).tell k.part (s.packetDie k) k.told k.hdr k.slot va := by
    unfold State.rowStop
    rw [hq]
  rw [hstop]
  generalize (s.setPacket n (some { k with fault := true, told := some va })).tell k.part (s.packetDie k) k.told k.hdr k.slot va = u at htold
  have hpackets : ∀ m, u.packet m = (s.setPacket n (some { k with fault := true, told := some va })).packet m := fun m => by
    rw [htold.rest]
    rfl
  refine ⟨?_, ?_, fun m hm => ?_, fun hp => ?_⟩
  · rw [htold.rest]
    rfl
  · rw [hpackets, State.packet_setPacket_self]
  · rw [hpackets, State.packet_setPacket_ne _ _ hm]
  · rw [htold.part hp]
    rfl

/-- RIDX is back at a packet that a violation has frozen. -/
structure BackAt (s u : State) (n : Nat) (k : Packet) (q : Queue) (code : Nat) (codes : BitVec 16) (va : Word) : Prop where
  packet : u.packet n = some { k with frozen := true }
  others : ∀ m, m ≠ n → u.packet m = s.packet m
  ridx : u.ridx q = k.slot
  doneIdx : u.doneIdx q = s.doneIdx q
  queue : u.queue k.part k.hdr = some { q with back := some (q.back.getD (s.ridx q)), frozen := true }
  vring : (s.part k.part).vring.length < 64 → ∃ v : VioRec, (u.part k.part).vring = (s.part k.part).vring ++ [v] ∧ v.code = code ∧
    v.codes = codes ∧ v.addr = va ∧ v.mkind = (if q.sort = 0 then 5 else q.sort) ∧ v.owner = k.hdr ∧ v.pc = BitVec.ofNat 64 k.slot

theorem State.rowStop_vio {α : Type} {q : Queue} (hmem : MemOk s) (hp : k.part < 8) (hq : s.queue k.part k.hdr = some q)
    (hslot : k.slot < s.ridx q) (hroom : s.ridx q < 2 ^ 64) (code : Nat) (codes : BitVec 16) (va : Word) :
    BackAt s (s.rowStop n k (.vio code codes va : Verdict α)) n k q code codes va := by
  have hhdr : q.hdr = k.hdr := State.queue_hdr hq
  have hridx : (s.setPacket n (some { k with frozen := true })).ridx q = s.ridx q := by
    rw [State.ridx_eq, State.ridx_eq]
    rfl
  have hback : (s.setPacket n (some { k with frozen := true })).backTo k.part q k.slot =
      ((s.setPacket n (some { k with frozen := true })).setQueue k.part { q with back := some (q.back.getD (s.ridx q)) }).hdrPut q 0x20 8
        k.slot := by
    unfold State.backTo
    rw [hridx, if_neg (by omega)]
  have hqueue : ((s.setPacket n (some { k with frozen := true })).setQueue k.part { q with back := some (q.back.getD (s.ridx q)) }).queue
      k.part k.hdr = some { q with back := some (q.back.getD (s.ridx q)) } :=
    State.queue_setQueue hp (s := s.setPacket n (some { k with frozen := true })) hq hhdr
  have hpart := State.setQueue_part (s.setPacket n (some { k with frozen := true })) { q with back := some (q.back.getD (s.ridx q)) } hp
  have hpackets : ∀ m, (s.setPacket n (some { k with frozen := true })).packet m =
      ((s.setPacket n (some { k with frozen := true })).setQueue k.part { q with back := some (q.back.getD (s.ridx q)) }).packet m :=
    fun m => rfl
  have hmemb : MemOk ((s.setPacket n (some { k with frozen := true })).setQueue k.part { q with back := some (q.back.getD (s.ridx q)) }) := hmem
  have hbyteb : ((s.setPacket n (some { k with frozen := true })).setQueue k.part { q with back := some (q.back.getD (s.ridx q)) }).hbyte =
      s.hbyte := rfl
  unfold State.rowStop
  rw [hq]
  dsimp only
  rw [hback]
  generalize (s.setPacket n (some { k with frozen := true })).setQueue k.part { q with back := some (q.back.getD (s.ridx q)) } = w at *
  have honly := w.hdrPut_only q 0x20 8 k.slot
  have hbyte := State.hdrPut_hbyte hmemb q 0x20 8 k.slot
  generalize w.hdrPut q 0x20 8 k.slot = v at honly hbyte
  have hqv : v.queue k.part k.hdr = some { q with back := some (q.back.getD (s.ridx q)) } := (honly.queue _ _).trans hqueue
  rw [hqv, Option.getD_some]
  have hfroze := v.freezeQueue_froze hp { q with back := some (q.back.getD (s.ridx q)) } k.slot code codes va
  generalize v.freezeQueue k.part { q with back := some (q.back.getD (s.ridx q)) } k.slot code codes va = u at hfroze
  have hpacketsu : ∀ m, u.packet m = (s.setPacket n (some { k with frozen := true })).packet m := fun m => by
    rw [hpackets, hfroze.rest, honly]
    rfl
  have hbyteu : u.hbyte = storeBytes s.hbyte (q.pa + 0x20) 8 k.slot := by
    rw [hfroze.rest, ← hbyteb]
    exact hbyte
  refine ⟨?_, fun m hm => ?_, ?_, ?_, ?_, fun hring => ?_⟩
  · rw [hpacketsu, State.packet_setPacket_self]
  · rw [hpacketsu, State.packet_setPacket_ne _ _ hm]
  · rw [State.ridx_eq, hbyteu, readBytes_storeBytes]
    exact Nat.mod_eq_of_lt (by omega)
  · rw [State.doneIdx_eq, State.doneIdx_eq, hbyteu]
    exact readBytes_storeBytes_disjoint _ (by omega)
  · exact hhdr ▸ hfroze.queue _ (hhdr.symm ▸ hqv)
  · have hvpart : (v.part k.part).vring = (s.part k.part).vring := by
      rw [honly.part, hpart]
      rfl
    rw [← hvpart] at hring ⊢
    obtain ⟨x, hx, hcode, hcodes, haddr, hkind, howner, hpc⟩ := hfroze.vring hring
    exact ⟨x, hx, hcode, hcodes, haddr, hkind, howner.trans hhdr, hpc⟩

end

/-! ### Targets (08 R223; 09 R248, R249) -/

section
variable {s : State} {n : Nat} {k : Packet} {w : Word}

theorem State.takeTarget_none (h : targetKind w = 0) : s.takeTarget k w = s := by
  unfold State.takeTarget
  rw [h]
  rfl

theorem State.takeTarget_counter (h : targetKind w = 2) : s.takeTarget k w = s.decrement k.part (w.extractLsb' 0 12).toNat := by
  unfold State.takeTarget
  rw [h]
  rfl

theorem State.takeTarget_barrier (h : targetKind w = 1) {c key : Nat} (hc : k.core = some c)
    (hkey : s.engineDecode c (w.setWidth 32).toNat = .ok key) (hpois : s.isPois (key / 128) = false) :
    s.takeTarget k w = s.setBar key ((s.bar key).arrive false (pktBytes k.pkt) s.time.toNat 0x80 (k.slot % 2 ^ 16)) := by
  unfold State.takeTarget
  rw [h, hc]
  show (match s.engineDecode c (w.setWidth 32).toNat with
    | .error _ => s
    | .ok key => _) = _
  rw [hkey]
  exact if_neg (by rw [hpois]; decide)

/-- An arrival of bytes that leaves some to come. -/
theorem Bar.arrive_bytes (o : Bar) {n : Nat} (h : n < o.pendb) (now role lrow : Nat) :
    o.arrive false n now role lrow = { o with pendb := o.pendb - n, st := true, cur := if o.st then o.cur else now % 2 ^ 32 } := by
  obtain ⟨gen, expa, penda, expb, pendb, tfirst, tlast, lrole, st, ovr, lrow0, cur⟩ := o
  have hlt : ¬pendb < n := by dsimp only at h; omega
  have hne : ¬pendb - n = 0 := by dsimp only at h; omega
  unfold Bar.arrive
  cases st <;> simp [hlt, hne]

theorem Bar.Fits.arrive_bytes {o : Bar} (ho : o.Fits) (n now : Nat) :
    ({ o with pendb := o.pendb - n, st := true, cur := if o.st then o.cur else now % 2 ^ 32 } : Bar).Fits := by
  have hcur : (if o.st then o.cur else now % 2 ^ 32) < 2 ^ 32 := by
    split
    · exact ho.cur
    · exact Nat.mod_lt _ (by decide)
  exact { ho with pendb := Nat.lt_of_le_of_lt (Nat.sub_le _ _) ho.pendb, cur := hcur }

/-- A barrier's arrival of a packet's bytes, where more are to come. -/
theorem State.takeTarget_bytes (hs : s.spad.wf = true) (h : targetKind w = 1) {c key : Nat} (hc : k.core = some c)
    (hkey : s.engineDecode c (w.setWidth 32).toNat = .ok key) (hpois : s.isPois (key / 128) = false)
    {b : Bar} (hb : s.bar key = b) (hlt : pktBytes k.pkt < b.pendb) :
    ∃ u, s.takeTarget k w = u ∧ u = { s with spad := u.spad } ∧ u.bar key =
      { b with pendb := b.pendb - pktBytes k.pkt, st := true, cur := if b.st then b.cur else s.time.toNat % 2 ^ 32 } := by
  subst hb
  refine ⟨_, State.takeTarget_barrier h hc hkey hpois, ?_, ?_⟩
  · rw [State.setBar_eq]
  · rw [Bar.arrive_bytes _ hlt]
    exact State.bar_setBar hs ((s.bar_fits key).arrive_bytes (pktBytes k.pkt) s.time.toNat)

/-- A packet one of whose targets is still to come stays in the table. -/
theorem State.packetEnd_stays (hk : s.packet n = some k) (hmore : (k.released && k.landed) = false) : s.packetEnd n = s := by
  unfold State.packetEnd
  rw [hk]
  exact if_neg (by rw [hmore]; decide)

theorem State.packetEnd_ends (hk : s.packet n = some k) (hboth : (k.released && k.landed) = true) {q : Queue}
    (hq : s.queue k.part k.hdr = some q) (hpois : k.pois = []) : s.packetEnd n = (s.setPacket n none).stepDone q := by
  have hq' : (s.setPacket n none).queue k.part k.hdr = some q := hq
  unfold State.packetEnd
  rw [hk]
  dsimp only
  rw [if_pos hboth, hq']
  exact if_pos hpois

/-- A packet that has both targets is gone, and DONE is one further. -/
theorem State.packetEnd_counts (hmem : MemOk s) (hwf : Sparse.wf none s.packets = true) (n : Nat) (hboth : (k.released && k.landed) = true)
    {q : Queue} (hq : s.queue k.part k.hdr = some q) (hpois : k.pois = []) (hroom : s.doneIdx q + 1 < 2 ^ 64) :
    ∃ u, (s.setPacket n (some k)).packetEnd n = u ∧ u.packet n = none ∧ u.doneIdx q = s.doneIdx q + 1 ∧
      u = { s with packets := u.packets, hbm := u.hbm, hpois := u.hpois, hue := u.hue, elided := u.elided } := by
  have hq' : (s.setPacket n (some k)).queue k.part k.hdr = some q := hq
  have hgone : ((s.setPacket n (some k)).setPacket n none).packet n = none :=
    (Sparse.get_set none (Sparse.wf_set none n (some k) hwf) n n none).trans (if_pos rfl)
  have hrest : (s.setPacket n (some k)).setPacket n none =
      { s with packets := ((s.setPacket n (some k)).setPacket n none).packets } := rfl
  have hidx : ((s.setPacket n (some k)).setPacket n none).doneIdx q = s.doneIdx q := by
    rw [State.doneIdx_eq, State.doneIdx_eq]
    rfl
  have hmemv : MemOk ((s.setPacket n (some k)).setPacket n none) := hmem
  rw [State.packetEnd_ends (State.packet_setPacket_self _ _) hboth hq' hpois]
  unfold State.stepDone
  rw [hidx]
  generalize (s.setPacket n (some k)).setPacket n none = v at hgone hrest hmemv
  have honly := v.hdrPut_only q 0x28 8 (s.doneIdx q + 1)
  have hbyte := State.hdrPut_hbyte hmemv q 0x28 8 (s.doneIdx q + 1)
  generalize v.hdrPut q 0x28 8 (s.doneIdx q + 1) = u at honly hbyte
  unfold StoresOnly at honly
  refine ⟨u, rfl, ?_, ?_, ?_⟩
  · rw [honly]
    exact hgone
  · rw [State.doneIdx_eq, hbyte, readBytes_storeBytes]
    exact Nat.mod_eq_of_lt (by omega)
  · rw [honly, hrest]

/-- RELEASE and LANDED where their packet is ready for them (08 R223). -/
theorem exec_release (hk : s.packet n = some k) (hrel : k.released = false) (hread : k.readAll = true) (hheld : s.packetHeld k = false)
    (hacq : s.past k.acq = true) : exec (.release n) s =
      .next (((s.setPacket n (some { k with released := true })).takeTarget k (pktWord k.pkt 0x28)).packetEnd n) := by
  show execRelease n s = _
  unfold execRelease
  rw [hk]
  exact if_neg (by rw [hrel, hread, hheld, hacq]; decide)

theorem exec_landed (hk : s.packet n = some k) (hland : k.landed = false) (hready : s.landable n k = true) (hheld : s.packetHeld k = false)
    (hhead : k.head = none) : exec (.landed n) s =
      .next (((s.setPacket n (some { k with landed := true })).takeTarget k (pktWord k.pkt 0x30)).packetEnd n) := by
  have hsame : { k with landed := true, head := none } = { k with landed := true } := by rw [← hhead]
  show execLanded n s = _
  unfold execLanded
  rw [hk]
  dsimp only
  rw [if_neg (by rw [hland, hready, hheld]; decide), hsame]
  simp only [hhead]

theorem State.landable_past (h : s.past k.acq = false) : s.landable n k = false := by
  unfold State.landable
  rw [h, Bool.and_false, Bool.false_and]

/-- Neither target is taken before what the engine acquired is past (08 R211). -/
theorem exec_targets_wait (hk : s.packet n = some k) (h : s.past k.acq = false) :
    exec (.release n) s = .next s ∧ exec (.landed n) s = .next s := by
  have hland := State.landable_past (n := n) h
  refine ⟨?_, ?_⟩
  · show execRelease n s = _
    unfold execRelease
    rw [hk]
    exact if_pos (by rw [h]; simp)
  · show execLanded n s = _
    unfold execLanded
    rw [hk]
    exact if_pos (by rw [hland]; simp)

end

/-! ### A counter's decrement leaves the packets (12 R313, R314) -/

section
variable (s : State) (p n : Nat)

theorem Met.packets {s r : State} (h : Met s r) : r.packets = s.packets := by
  rw [h.rest]

theorem State.metRange_met (va : Word) (m : Nat) : Met s (s.metRange p va m) := by
  unfold State.metRange
  refine (s.metWalks_met p _).trans (Met.foldl (fun s i => ?_) _ _)
  split
  · exact s.meetUE_met _
  · exact Met.refl s

theorem State.metBridle_met (k : Vector Word 8) : Met s (s.metBridle p k) := by
  unfold State.metBridle
  dsimp only
  split
  · exact Met.refl s
  · split
    · exact s.metRange_met p _ _
    · exact s.metWalks_met p _

theorem State.metTask_met (task : Word) : Met s (s.metTask p task) := by
  unfold State.metTask
  dsimp only
  refine (s.metRange_met p task 64).trans ?_
  generalize s.metRange p task 64 = r
  split
  · exact r.metBridle_met p _
  · split
    · exact r.metGirth_met p _
    · exact Met.refl r

theorem State.takeTask_packets : (s.takeTask p n).packets = s.packets := by
  unfold State.takeTask
  dsimp only
  split
  · rfl
  · rename_i task _ _
    split
    · rfl
    · have hmet := (s.metTask_met p task).packets
      generalize s.metTask p task = r at hmet
      split
      · exact hmet
      · rw [(State.tell_told _ _ _ _ _ _ _).rest]
        exact hmet
      · unfold State.freezeCounter
        rw [(State.addVio_rest _ _ _).1]
        exact hmet
      · exact hmet
      · exact hmet
      · exact hmet

theorem State.decrement_packets : (s.decrement p n).packets = s.packets := by
  unfold State.decrement
  dsimp only
  split
  · rfl
  · unfold State.issueTask
    dsimp only
    split
    · split
      · exact State.takeTask_packets _ _ _
      · rfl
    · rfl

end

/-! ### A stalled packet goes on (09 R260) -/

/-- What a stalled packet's sides make of it now. -/
def State.resumed (s : State) (n : Nat) (k : Packet) : Verdict Unit → State
  | .fault a => s.rowStop n k (.fault a : Verdict Unit)
  | .code _ => s
  | _ => s.setPacket n (some { k with fault := false, told := none })

section
variable {s : State} {n : Nat} {k : Packet} (hk : s.packet n = some k)
include hk

theorem exec_resume_idle (h : k.fault = false) : exec (.copyFaultResume n) s = .next s := by
  show execCopyFaultResume n s = _
  unfold execCopyFaultResume
  rw [hk]
  exact if_pos (by rw [h]; rfl)

theorem exec_resume_halted {q : Queue} (hq : s.queue k.part k.hdr = some q) (h : s.halted q = true) :
    exec (.copyFaultResume n) s = .next s := by
  show execCopyFaultResume n s = _
  unfold execCopyFaultResume
  rw [hk]
  exact if_pos (by rw [hq, Option.map_some, Option.getD_some, h]; simp)

theorem exec_resume {q : Queue} (hq : s.queue k.part k.hdr = some q) (hfault : k.fault = true) (h : s.halted q = false) :
    exec (.copyFaultResume n) s = .next (s.resumed n k (s.rowState k)) := by
  show execCopyFaultResume n s = _
  unfold execCopyFaultResume
  rw [hk]
  dsimp only
  rw [if_neg (by rw [hq, Option.map_some, Option.getD_some, h, hfault]; decide)]
  unfold State.resumed
  cases s.rowState k <;> rfl

end

end Sys2Proof.Machine

/-! O43: what the copy engines accept, move and complete (09 R257 to R260; 06 R170; 08 R223). -/
namespace Sys2Proof.Machine

/-! ### A FEED's entry (06 R170; 09 R258) -/

/-- A byte of a granule. -/
theorem granule_byte (f : Nat → Byte) {j : Nat} (hj : j < 8) :
    (BitVec.ofNat 64 ((List.range 8).foldr (fun i v => (f i).toNat + 256 * v) 0)).extractLsb' (8 * j) 8 = f j := by
  have hread : (List.range 8).foldr (fun i v => (f i).toNat + 256 * v) 0 = readBytes f 0 8 := rfl
  have hbyte := readBytes_byte f 8 0 hj
  rw [hread, ← BitVec.toNat_inj, BitVec.extractLsb'_toNat, BitVec.toNat_ofNat, Nat.mod_eq_of_lt (readBytes_lt f 8 0),
    Nat.shiftRight_eq_div_pow]
  rw [← BitVec.toNat_inj, BitVec.toNat_ofNat, Nat.zero_add] at hbyte
  exact hbyte

/-- The entry that a row of a FEED makes. -/
def State.feedEntry (s : State) (h : Nat) (bs : List (Byte × Bool)) : PortEntry where
  v := tab 64 fun l => BitVec.ofNat 64 ((List.range 8).foldr (fun i v => (bs.getD (8 * l + i) (0, false)).1.toNat + 256 * v) 0)
  act := BitVec.allOnes 64
  pois := laneMask ((List.range 64).filter fun l => (List.range 8).any fun i => (bs.getD (8 * l + i) (0, false)).2)
  ready := (s.core (h / 64)).clkc + 1

theorem exec_push {s : State} {h : Fin 4096} {n : Nat} {k : Packet} {x : Side} (hfeed : (s.row h).feed = some n) (hk : s.packet n = some k)
    (hfault : k.fault = false) (hfrozen : k.frozen = false) (hrow : k.row < pktRows k.pkt) (hroom : (s.row h).north.length < 16)
    (hheld : s.rowsHeld k = false) (hsrc : s.rowSrc k 0 = .ok (some x)) {e : Vector Nat 8} {bs : List (Byte × Bool)}
    (hread : s.sideRead (pktLen k.pkt) [] x = ({ s with elided := e }, bs)) :
    exec (.feedEntryPush h) s = .next ((({ s with elided := e } : State).setRow h
      { s.row h with north := (s.row h).north ++ [s.feedEntry h bs] }).setPacket n
        (some { k with row := k.row + 1, pois := if (s.feedEntry h bs).pois = 0 then k.pois else [0] })) := by
  have hbound : (s.row h).feed.bind (fun n => (s.packet n).map (fun k => (n, k))) = some (n, k) := by
    rw [hfeed, Option.bind_some, hk]
    rfl
  have hgo : (k.fault || k.frozen || s.rowsHeld k || decide (pktRows k.pkt ≤ k.row) || decide (16 ≤ (s.row h).north.length)) = false := by
    rw [hfault, hfrozen, hheld, decide_eq_false (by omega), decide_eq_false (by omega)]
    rfl
  show execFeedEntryPush h s = _
  unfold execFeedEntryPush
  dsimp only
  rw [hbound]
  dsimp only
  rw [if_neg (by rw [hgo]; decide), hsrc]
  dsimp only
  rw [hread]
  rfl

/-! ### The packet that moves -/

theorem State.moving_spec {s : State} {p : Nat} {hdr : Word} {n : Nat} {k : Packet} (h : s.moving p hdr = some (n, k)) :
    k.part = p ∧ k.hdr = hdr ∧ pktKind k.pkt ≠ kFEED := by
  unfold State.moving at h
  obtain ⟨e, -, he⟩ := List.exists_of_findSome?_eq_some h
  split at he
  · split at he
    · rename_i hk
      cases he
      exact ⟨hk.1, hk.2.1, hk.2.2.1⟩
    · cases he
  · cases he

theorem State.srcBytes_elided (s : State) (e : Vector Nat 8) (k : Vector Word 8) (src : Option Side) :
    ({ s with elided := e } : State).srcBytes k src = s.srcBytes k src := by
  cases src with
  | none => rfl
  | some x => cases x <;> rfl

/-- A row's move, with the index that a GATHER has read. -/
structure RowMoves (s : State) (n : Nat) (k : Packet) (src : Option Side) (dst : Side) (e : Vector Nat 8) (bs : List (Byte × Bool)) : Prop where
  bytes : bs.map (fun b => b.1) = s.srcBytes k.pkt src
  marks : pktKind k.pkt ≠ 4 → ∀ i, (bs.getD i (0, false)).2 = (s.srcMarks k.pkt src).getD i false
  home : dst.isPeer = false → s.copyRow n k = ({ s with elided := e } : State).rowWrite n k dst bs
  peer : pktKind k.pkt ≠ 4 → ∀ rs rest, (∀ x ∈ rs, ∃ w, x = .data w) → s.peerReplies = rs ++ rest →
    rs.length = (dst.granules (pktLen k.pkt)).length → s.copyRow n k = ({ s with
      elided := e, peerReplies := rest, spanOut := s.spanOut ++ s.rowFrames k dst bs rs } : State).rowWrite n k dst bs

theorem State.copyRow_moves {s : State} (n : Nat) {k : Packet} {idx : Nat} {src : Option Side} {dst : Side}
    (hidx : pktKind k.pkt = 4 → ∃ x, s.idxSide k = .ok (some x) ∧ x.isPeer = false ∧ s.sideClean 4 x ∧
      idx = (s.sideBytes 4 x).foldr (fun b v => b.toNat + 256 * v) 0)
    (hsrc : s.rowSrc k idx = .ok src) (hdst : s.rowDst k = .ok dst)
    (hclean : ∀ x, src = some x → x.isPeer = false ∧ s.sideClean (pktLen k.pkt) x) : ∃ e bs, RowMoves s n k src dst e bs := by
  have hlocal : ∀ x, src = some x → x.isPeer = false := fun x hx => (hclean x hx).1
  by_cases hk : pktKind k.pkt = 4
  · obtain ⟨x, hx, hpeer, hxclean, hval⟩ := hidx hk
    obtain ⟨e, is, hread, hbytes, -⟩ := State.sideRead_clean hxclean
    have hidxOf : (idxOf is).1 = idx := by
      rw [hval, ← hbytes, List.foldr_map]
      rfl
    obtain ⟨e', bs, hrow, hbs⟩ := State.rowBytes_clean (s := { s with elided := e }) (k := k) (src := src) (idxOf is).2
      fun x hx => (hclean x hx).2
    refine ⟨e', bs, hbs.bytes.trans (s.srcBytes_elided e _ _), fun h => absurd hk h, fun hd => ?_, fun h => absurd hk h⟩
    rw [State.copyRow_index hx hpeer, hread]
    refine State.moveRow_local (s := { s with elided := e }) (src := src) ?_ ?_ hlocal hrow hd
    · rw [State.rowSrc_elided, hidxOf, hsrc]
    · rw [State.rowDst_elided, hdst]
  · obtain ⟨e, bs, hrow, hbs⟩ := State.rowBytes_clean (s := s) (k := k) (src := src) false fun x hx => (hclean x hx).2
    have hsrc0 : s.rowSrc k 0 = .ok src := (State.rowSrc_plain hk idx).symm.trans hsrc
    refine ⟨e, bs, hbs.bytes, fun _ => hbs.marks rfl, fun hd => ?_, fun _ rs rest hdata hreplies hlen => ?_⟩
    · rw [State.copyRow_plain hk]
      exact State.moveRow_local (idx := (0, false)) hsrc0 hdst hlocal hrow hd
    · rw [State.copyRow_plain hk]
      exact State.moveRow_eq (idx := (0, false)) hsrc0 hdst hlocal hrow hdata hreplies hlen

section
variable {s : State} {n : Nat} {k : Packet} {src : Option Side} {e : Vector Nat 8} {bs : List (Byte × Bool)}

/-- A row moved into the scratchpad. -/
theorem RowMoves.spad {key : Nat} (h : RowMoves s n k src (.spad key) e bs) (hs : s.spad.wf = true) :
    ∃ u pk, s.copyRow n k = u ∧ RowDone s u n k pk ∧
      u.spad.byte = storeAll 1 (rowStores (.spad key) (pktLen k.pkt) (s.srcBytes k.pkt src)) s.spad.byte ∧
      u = { s with spad := u.spad, spois := u.spois, absent := u.absent, packets := u.packets, elided := u.elided } := by
  obtain ⟨u, pk, hu, hd, hbyte, hrest⟩ := State.rowWrite_spad n k bs (s := { s with elided := e }) hs key
  rw [h.bytes] at hbyte
  refine ⟨u, pk, (h.home rfl).trans hu, hd.of_packets rfl, hbyte, ?_⟩
  rw [hrest]

/-- A row moved into memory. -/
theorem RowMoves.mem {ps : List (Nat × Nat × Bool)} (h : RowMoves s n k src (.mem ps) e bs) (hmem : MemOk s) :
    ∃ u pk, s.copyRow n k = u ∧ RowDone s u n k pk ∧
      u.hbyte = storeAll 1 (rowStores (.mem ps) (pktLen k.pkt) (s.srcBytes k.pkt src)) s.hbyte ∧
      (∀ a ∈ (Side.mem ps).bytes (pktLen k.pkt), s.leaseOf a ≤ pk.waitE) ∧ k.waitE ≤ pk.waitE ∧
      u = { s with hbm := u.hbm, hpois := u.hpois, hue := u.hue, packets := u.packets, elided := u.elided } := by
  obtain ⟨u, pk, hu, hd, hbyte, ⟨hwait, hlease⟩, hrest⟩ := State.rowWrite_mem n k bs (s := { s with elided := e }) hmem ps
  rw [h.bytes] at hbyte
  refine ⟨u, pk, (h.home rfl).trans hu, hd.of_packets rfl, hbyte, hlease, hwait, ?_⟩
  rw [hrest]

/-- A row moved to a peer that has stored it: one access for each granule (log 67). -/
theorem RowMoves.peers {va : Word} (h : RowMoves s n k src (.peer va) e bs) (hk : pktKind k.pkt ≠ 4) {rs rest : List PeerReply}
    (hlen : rs.length = pktLen k.pkt / 8) (hdata : ∀ x ∈ rs, ∃ w, x = .data w) (hreplies : s.peerReplies = rs ++ rest) :
    ∃ u pk, s.copyRow n k = u ∧ RowDone s u n k pk ∧ u.spanOut = s.spanOut ++ (List.range rs.length).map (fun j =>
        s.frame k.part (va + BitVec.ofNat 64 (8 * j)) (.store 3 (BitVec.ofNat 64
          ((List.range 8).foldr (fun b v => ((s.srcBytes k.pkt src).getD (8 * j + b) 0).toNat + 256 * v) 0))
          ((List.range 8).any fun b => (s.srcMarks k.pkt src).getD (8 * j + b) false)) (rs.getD j .retry)) ∧
      u = { s with peerReplies := rest, spanOut := u.spanOut, packets := u.packets, elided := u.elided } := by
  have hgran : rs.length = ((Side.peer va).granules (pktLen k.pkt)).length := by
    rw [hlen]
    unfold Side.granules
    rw [List.length_map, List.length_range]
  obtain ⟨u, pk, hu, hd, hrest⟩ := State.rowWrite_peer
    { s with elided := e, peerReplies := rest, spanOut := s.spanOut ++ s.rowFrames k (.peer va) bs rs } n k bs va
  refine ⟨u, pk, (h.peer hk rs rest hdata hreplies hgran).trans hu, hd.of_packets rfl, ?_, ?_⟩
  · rw [hrest, s.rowFrames_peer k va bs hlen]
    simp only [← getD_map_marks, h.marks hk, h.bytes]
  · rw [hrest]

end

/-- What an engine has acquired is past. -/
theorem State.past_of (s : State) {o : Option Nat} (h : ∀ g, o = some g → g + 4 ≤ s.time.toNat) : s.past o = true := by
  cases o with
  | none => rfl
  | some g => exact decide_eq_true (h g rfl)

/-! ### The obligation -/

/-- Settles O43: each step of a copy queue, of a FEED, of the two targets, and of a packet that waits for a page. -/
theorem copyEngines : Obligations.CopyEngines := by
  unfold Obligations.CopyEngines
  intro s hmem hwf
  refine ⟨fun p hdr q i kind hq hsort hi => ?_, fun h n k x hfeed hk hfault hfrozen hrow hroom hheld hsrc hclean => ?_,
    fun n k hk hheld => ⟨fun i w done hcase => ?_, fun q i hcase hpois hq hroom => ?_, fun g hacq htime => ?_, fun hfault => ?_,
      fun q hfault hq => ⟨fun hhalt => ?_, fun hhalt => ⟨fun hv => ?_, fun c hv => ?_, fun a hv => ?_⟩⟩⟩⟩
  · have hp : (p : Nat) < 8 := p.isLt
    have hhdr : q.hdr = hdr := State.queue_hdr hq
    have hexec := exec_copyStep hi s
    intro r
    have hr : s.metQueue q = r := rfl
    have hmet : Met s r := s.metQueue_met q
    have hmemr : MemOk r := memOk_metQueue _ _ hmem
    have hqr : r.queue p hdr = some q := (hmet.queue p hdr).trans hq
    clear_value r
    refine ⟨hmet.clean, ?_⟩
    intro halts
    have hhalts : ∀ (u : State) c, exec i s = .next u → Halts r u p q c → c < 2 ^ 24 → halts c := fun u c he h hc => by
      obtain ⟨hstatus, hridx, hreports⟩ := h.shows hp hc hhdr
      refine ⟨u, he, hstatus, hridx, hreports, ?_⟩
      rw [h.rest]
      exact hmet.packets
    refine ⟨fun hmov hone c ho => ?_, fun k hmov ho hkind => ?_, fun n k hmov hkind hfault hfrozen hheld => ?_⟩
    · subst hone
      have hstep := State.copyStep_code hq hsort hmov (hr.symm ▸ ho)
      rw [hstep, hr] at hexec
      exact hhalts _ c hexec (State.halt_halts hmemr p q c) (State.offer_code ho)
    · have hstep := State.copyStep_packet hq hsort hmov (hr.symm ▸ ho) hkind
      rw [hstep, hr] at hexec
      intro cut bound
      have hnone : (∀ c, ¬r.copyFails p q k c) → lowest (r.copyCodes p q k) = none := (lowest_iff (r.mem_copyCodes p q k)).2.mp
      have hsame : (∀ c, ¬r.copyFails p q k c) → pktKind k = kind := fun hno => by
        have hkind' : ¬(pktKind k = 0 ∨ 4 < pktKind k) := hno 0x01
        exact hkind.resolve_right fun h => hkind' h.2
      have hbound : (∀ c, ¬r.copyFails p q k c) → (bound ↔ r.headBound p q k) := fun hno => by
        unfold State.headBound
        rw [hsame hno]
      refine ⟨fun c hlow => ?_, fun hno => ⟨fun c cs a ht => ?_, fun ht hwait => ?_⟩, fun hno ht hcut hfree hroom => ?_⟩
      · rw [State.acceptCopy_code (((lowest_iff (r.mem_copyCodes p q k)).1 c).mp hlow)] at hexec
        exact hhalts _ c hexec (State.elideSlot_halts hmemr p q c) (State.copyFails_lt r p q k hlow.1)
      · rw [State.acceptCopy_vio (hnone hno) ht] at hexec
        have hf := (r.elideSlot q).freezeQueue_froze hp q (r.ridx q) c cs a
        generalize (r.elideSlot q).freezeQueue p q (r.ridx q) c cs a = u at hexec hf
        refine ⟨u, hexec, ?_, ?_, hhdr ▸ hf.queue q (hhdr.symm ▸ hqr), fun hring => ?_⟩
        · rw [State.ridx_eq, State.ridx_eq, hf.rest_elided]
          rfl
        · rw [hf.rest_elided]
          exact hmet.packets
        · obtain ⟨v, hv, hcode, hcodes, haddr, hmk, howner, hpc⟩ := hf.vring hring
          exact ⟨v, hv, hcode, hcodes, haddr, hmk.trans (by rw [hsort]; decide), howner.trans hhdr, hpc⟩
      · rw [State.acceptCopy_waits (hnone hno) ht (hwait.imp_right (hbound hno).mp)] at hexec
        exact hexec
      · rw [State.acceptCopy_brings (hnone hno) ht hcut (mt (hbound hno).mpr hfree)] at hexec
        obtain ⟨u, pk, hu, ha⟩ := State.bring_accepted (q := q) hmemr p k hroom
        have hnext : r.nextPacket = s.nextPacket := by rw [hmet.rest]
        have hentered := ha.entered
        rw [hu] at hexec
        refine ⟨u, pk, hexec, hnext ▸ ha.packet, ?_, ha.ridx, congrArg Packet.part hentered, (congrArg Packet.hdr hentered).trans hhdr,
          congrArg Packet.slot hentered, congrArg Packet.pkt hentered, congrArg Packet.core hentered, congrArg Packet.row hentered,
          congrArg Packet.released hentered, congrArg Packet.landed hentered, congrArg Packet.fault hentered,
          congrArg Packet.frozen hentered, congrArg Packet.gidx hentered, fun c hc => ?_, fun hc => ?_, fun n hn => ?_,
          fun c h hk hc hh => hnext ▸ ha.bound c h ((hsame hno).trans hk) hc hh,
          fun c hk hd hc l hl => ha.absent c (hsame hno ▸ hk) hd hc l hl, ?_⟩
        · rw [ha.rest, ← hnext]
        · refine (congrArg Packet.acq hentered).trans ?_
          unfold State.entering
          dsimp only
          rw [hc]
          rfl
        · refine (congrArg Packet.acq hentered).trans ?_
          unfold State.entering
          dsimp only
          rw [hc]
          rfl
        · rw [ha.others n (hnext ▸ hn)]
          unfold State.packet
          rw [hmet.packets]
        · rw [ha.rest]
    · obtain ⟨hpart, hkhdr, -⟩ := State.moving_spec hmov
      rw [State.copyStep_moving hq hsort hmov hkind hfault hfrozen hheld] at hexec
      have hqk : s.queue k.part k.hdr = some q := by rw [hpart, hkhdr, hq]
      have hpk : k.part < 8 := hpart ▸ hp
      subst hkind
      have hstop : ∀ v, pktKind k.pkt ≠ 4 → (s.rowSrc k 0).both (s.rowDst k) = v → (∀ x, v ≠ .ok x) →
          exec i s = .next (s.rowStop n k v) := fun v hk hv hno => by
        rw [hexec, State.copyRow_plain hk, State.moveRow_stop (idx := (0, false)) hv hno]
      refine ⟨fun idx src dst hidx hsrc hdst hclean => ?_, fun hk a hv => ?_, fun hk c cs a hv hslot hroom => ?_⟩
      · obtain ⟨e, bs, hm⟩ := s.copyRow_moves n hidx hsrc hdst hclean
        intro bytes marks stores does
        have hbytes : s.srcBytes k.pkt src = bytes := by cases src <;> rfl
        have hmarks : s.srcMarks k.pkt src = marks := by cases src <;> rfl
        have hstores : rowStores dst (pktLen k.pkt) (s.srcBytes k.pkt src) = stores := by rw [hbytes]; rfl
        have hdoes : ∀ (F : State → Packet → Prop) u pk, s.copyRow n k = u → RowDone s u n k pk → F u pk → does F := fun F u pk hu hd hF =>
          ⟨u, pk, hexec.trans (congrArg _ hu), hd.packet, hd.row, hd.pkt, hd.slot, hd.released, hd.landed, hd.others, hF⟩
        refine ⟨fun key hkey => ?_, fun ps hps => ?_, fun va rs rest hva hk hlen hdata hreplies => ?_⟩
        · subst hkey
          obtain ⟨u, pk, hu, hd, hbyte, hrest⟩ := hm.spad hmem.1
          exact hdoes _ u pk hu hd ⟨hbyte.trans (congrArg (storeAll 1 · s.spad.byte) hstores), hrest⟩
        · subst hps
          obtain ⟨u, pk, hu, hd, hbyte, hlease, hwait, hrest⟩ := hm.mem hmem
          exact hdoes _ u pk hu hd ⟨hbyte.trans (congrArg (storeAll 1 · s.hbyte) hstores), hlease, hwait, hrest⟩
        · subst hva
          obtain ⟨u, pk, hu, hd, hspan, hrest⟩ := hm.peers hk hlen hdata hreplies
          rw [hpart, hbytes, hmarks] at hspan
          exact hdoes _ u pk hu hd ⟨hspan, hrest⟩
      · have hf := State.rowStop_fault (α := Option Side × Side) (n := n) hqk a
        exact ⟨_, hstop _ hk hv nofun, hf.packet, hf.others, hf.rest, by
          rw [← hpart, hf.reports hpk, hkhdr]⟩
      · have hb := State.rowStop_vio (α := Option Side × Side) (n := n) hmem hpk hqk hslot hroom c cs a
        refine ⟨_, _, hstop _ hk hv nofun, hb.packet, hb.others, hb.ridx, hb.doneIdx, hpart ▸ hkhdr ▸ hb.queue, rfl, rfl, fun hring => ?_⟩
        rw [← hpart] at hring ⊢
        obtain ⟨v, hx, hcode, hcodes, haddr, hmk, howner, hpc⟩ := hb.vring hring
        exact ⟨v, hx, hcode, hcodes, haddr, hmk.trans (by rw [hsort]; decide), howner.trans hkhdr, hpc⟩
  · obtain ⟨e, bs, hread, hbytes, -⟩ := State.sideRead_clean hclean
    have hgo := exec_push hfeed hk hfault hfrozen hrow hroom hheld hsrc hread
    refine ⟨_, s.feedEntry h bs, _, hgo, ?_, rfl, fun l j hl hj => ?_, State.packet_setPacket_self _ _, rfl, rfl, fun r hr => ?_, rfl⟩
    · refine congrArg RowUnit.north (State.row_setRow_self _ h.val fun he => ?_)
      have := congrArg (fun r : RowUnit => r.north.length) he
      simp [RowUnit.empty] at this
    · unfold State.feedEntry
      dsimp only
      rw [vget_tab_lt hl, granule_byte (fun i => (bs.getD (8 * l + i) (0, false)).1) hj, getD_map_bytes, hbytes]
    · exact State.row_setRow_ne _ _ hr
  · have hexec : exec i s = .next (((s.setPacket n (some done)).takeTarget k w).packetEnd n) ∧ (done.released && done.landed) = false := by
      rcases hcase with ⟨rfl, rfl, hrel, hread, hland, hacq, rfl⟩ | ⟨rfl, rfl, hland, hready, hrel, hhead, rfl⟩
      · exact ⟨exec_release hk hrel hread hheld (s.past_of hacq), by rw [hland]; rfl⟩
      · exact ⟨exec_landed hk hland hready hheld hhead, by rw [hrel]; rfl⟩
    obtain ⟨hexec, hmore⟩ := hexec
    have hpacket : (s.setPacket n (some done)).packet n = some done := State.packet_setPacket_self _ _
    refine ⟨fun hkind => ?_, fun hkind => ?_, fun c key hkind hcore hkey hpois => ?_⟩
    · rw [hexec, State.takeTarget_none hkind, State.packetEnd_stays hpacket hmore]
    · rw [State.takeTarget_counter hkind, State.packetEnd_stays (k := done) ?_ hmore] at hexec
      · exact ⟨_, hexec, rfl⟩
      · unfold State.packet
        rw [State.decrement_packets]
        exact hpacket
    · intro b hlt
      have hdecode := (State.engineDecode_congr (u := s.setPacket n (some done)) (s := s) rfl c _).trans hkey
      have hbar : (s.setPacket n (some done)).bar key = b := rfl
      obtain ⟨u, hu, hrest, hubar⟩ := State.takeTarget_bytes (s := s.setPacket n (some done)) hmem.1 hkind hcore hdecode hpois hbar hlt
      have hupacket : u.packet n = some done := by
        rw [hrest]
        exact hpacket
      rw [hu, State.packetEnd_stays hupacket hmore] at hexec
      refine ⟨u, hexec, hupacket, ?_, hubar⟩
      rw [hrest]
      rfl
  · obtain ⟨done, hexec, hboth, hpoisd, hpart, hhdr⟩ : ∃ done : Packet, exec i s = .next ((s.setPacket n (some done)).packetEnd n) ∧
        (done.released && done.landed) = true ∧ done.pois = [] ∧ done.part = k.part ∧ done.hdr = k.hdr := by
      rcases hcase with ⟨rfl, hland, hrel, hread, hacq, hkind⟩ | ⟨rfl, hrel, hland, hready, hhead, hkind⟩
      · refine ⟨{ k with released := true }, ?_, by rw [hland]; rfl, hpois, rfl, rfl⟩
        rw [exec_release hk hrel hread hheld (s.past_of hacq), State.takeTarget_none hkind]
      · refine ⟨{ k with landed := true }, ?_, by rw [hrel]; rfl, hpois, rfl, rfl⟩
        rw [exec_landed hk hland hready hheld hhead, State.takeTarget_none hkind]
    have hqd : s.queue done.part done.hdr = some q := by
      rw [hpart, hhdr]
      exact hq
    obtain ⟨u, hu, hgone, hidx, hrest⟩ := State.packetEnd_counts hmem hwf n hboth hqd hpoisd hroom
    exact ⟨u, hexec.trans (congrArg _ hu), hgone, hidx, hrest⟩
  · have hpast : s.past k.acq = false := by
      rw [hacq]
      exact decide_eq_false (by omega)
    exact exec_targets_wait hk hpast
  · exact exec_resume_idle hk hfault
  · exact exec_resume_halted hk hq hhalt
  · rw [exec_resume hk hq hfault hhalt]
    rcases hv with ⟨x, hv⟩ | hv | ⟨c, cs, a, hv⟩ <;> rw [hv] <;> rfl
  · rw [exec_resume hk hq hfault hhalt, hv]
    rfl
  · rw [exec_resume hk hq hfault hhalt, hv]
    have hf := State.rowStop_fault (α := Unit) (n := n) hq a
    exact ⟨_, rfl, hf.packet, hf.rest, hf.reports⟩

end Sys2Proof.Machine

/-! A line cache that is not in canonical form (07 R192): where a sector is listed again, an uncached load drops its first
copies alone, and the core still holds the sector. The statements of the loads that go past the cache ask for the canonical form
of neither their `Held` nor their states, and fail there. -/
namespace Sys2Proof.Machine

/-- A row with lane 0 alone, in partition 0: x1 and x3 hold the addresses of two lists of one element each (x2, x4), and s1
the address of the first. -/
def soleSeat : Seat := { Seat.blank with
  status := .ready
  m := tab 8 fun n => if n = 0 then 1 else 0
  stack := [{ kind := .base, mask := 1 }]
  x := tab 31 fun n => tab 64 fun _ => if n = 1 then 0x1000 else if n = 3 then 0x1080 else 1
  s := tab 31 fun _ => 0x1000 }

/-- The row on seat 0, its page a GiB at physical address 0, and its core's line cache with the sector at 0x1000 five times:
more often than any of these loads names it. -/
def manyHeld : State := { State.reset with
  parts := vset State.reset.parts 0 { en := true, dies := 1, tregion := vset (vrep 8 0) 0 (2 ^ 42 + 1) }
  hbm := [(2 ^ 42, 1), (2 ^ 42 + 2, 1), (2 ^ 42 + 0x10000, 0x0F)]
  cores := vset State.reset.cores 0 { CoreUnit.reset with
    lcache := List.replicate 5 (0x80, some { data := vrep 32 0, expiry := 1 }) }
  seats := [(0, soleSeat)] }

/-- The check answers, and one of the accesses goes to the sector held many times. -/
def reachesManyHeld (x : Except Stop (List LaneLoc × State)) : Bool :=
  match x with
  | .ok (ls, _) => (memLocs ls).any fun y => y.2 == 0x1000
  | .error _ => false

/-- The step goes on, and core 0 holds the sector still. -/
def holdsStill : Host.Outcome State Fault Refusal → Bool
  | .next u => (u.cached 0 0x1000).isSome
  | _ => false

/-- After a load past the cache the core holds none of the sectors read: that is not what the step leaves. -/
theorem not_held_manyHeld {i : Instr} {as mis : List (Nat × Word)} {n : Nat} {op : Nat → Option PeerOp}
    (hheld : ∀ ls s1, manyHeld.global as mis n false true op ls s1 → ∃ u, exec i manyHeld = .next u ∧ Held manyHeld u true ls)
    (hreach : reachesManyHeld (manyHeld.gcheck 0 0 (some 0) as mis n false true op) = true)
    (hstill : holdsStill (exec i manyHeld) = true) : False := by
  unfold reachesManyHeld at hreach
  split at hreach
  case h_2 => cases hreach
  case h_1 ls s1 hcheck =>
    obtain ⟨⟨l, pa⟩, hmem, hpa⟩ := List.any_eq_true.mp hreach
    obtain rfl : pa = 0x1000 := by simpa using hpa
    obtain ⟨u, hexec, -, -, -, hpast, -⟩ := hheld ls s1 hcheck
    have hnone : u.cached 0 0x1000 = none := (hpast rfl).2 _ hmem
    rw [hexec, holdsStill, hnone] at hstill
    cases hstill

/-- The source that names a lane register, and the one that names a scalar (02 R53). -/
def xSrc (n : BitVec 5) : Src := ⟨false, false, n⟩
def sSrc (n : BitVec 4) : Src := ⟨false, true, 16 + n.setWidth 5⟩

/-- Refutes O29: an uncached LDG of a sector listed again and again in its core's line cache leaves a copy there. -/
theorem not_globalLoads : ¬Obligations.GlobalLoads := by
  intro h
  obtain ⟨loads, -⟩ := h manyHeld (xSrc 1) (xSrc 31) (by decide)
  have takes : manyHeld.now.takesF true 11 := by
    unfold Seat.takesF
    rw [if_neg (by decide)]
    exact fun h => absurd h (by decide)
  have ready : LaneReady manyHeld (memOp ⟨false, 2⟩ (xSrc 1) (xSrc 31)) { v := vrep 64 0, act := 0, ready := 0 } manyHeld :=
    ⟨by decide, by decide +kernel, rfl, by decide⟩
  exact not_held_manyHeld (fun ls s1 hglobal =>
      have ⟨u, _, hexec, _, _, _, hheld⟩ := loads _ 11 _ _ ls s1 takes ready (.inr (.inr (by decide))) hglobal
      ⟨u, hexec, hheld⟩)
    (by decide +kernel) (by decide +kernel)

/-- Refutes O24: the same of an uncached LDGB. -/
theorem not_blockAccesses : ¬Obligations.BlockAccesses := by
  intro h
  obtain ⟨-, blocks⟩ := h
  have ready : BlockReady manyHeld (sSrc 1) (xSrc 31) false := ⟨by decide, by decide, by decide, by decide +kernel⟩
  exact not_held_manyHeld (fun ls s1 hglobal =>
      have ⟨loads, _⟩ := blocks manyHeld (sSrc 1) (xSrc 31) ls s1 (by decide) (by decide)
      have ⟨u, _, hexec, _, _, _, hheld⟩ := loads ⟨false, 2⟩ 1 ready (.inr (by decide)) hglobal
      ⟨u, hexec, hheld⟩)
    (by decide +kernel) (by decide +kernel)

/-- Refutes O32: the same of a round of ISECT, which reads both its lists past the cache. -/
theorem not_isectRounds : ¬Obligations.IsectRounds := by
  intro h
  obtain ⟨-, rounds⟩ := h manyHeld 5 1 3 (by decide) (by decide) (by decide) (by decide) (by decide) (by decide)
    (by decide +kernel) (fun x _ l _ => by rw [show manyHeld.now.xdead = vrep 31 0 from rfl, vget_vrep_default]; simp)
  exact not_held_manyHeld (fun ls s1 hglobal =>
      have ⟨u, _, hexec, _, _, hheld, _⟩ := rounds ls s1 (by decide +kernel) (by decide +kernel) hglobal
      ⟨u, hexec, hheld⟩)
    (by decide +kernel) (by decide +kernel)

end Sys2Proof.Machine
